-- ==== Sys2Proof/Word.lean ====
section
/-! DEFINITION. The word types and the instance numbers of Table SCP-2. -/

namespace Sys2Proof

/-- A 32-bit register value (every register is 32 bits wide, 00_scope "Registers and fields"). -/
abbrev Word := BitVec 32

/-- One byte. -/
abbrev Byte := BitVec 8

/-- The 64 bytes of one line, little-endian (R3). -/
abbrev LineData := BitVec 512

/-- A line address: TPA[45:6] (R156). -/
abbrev LineAddr := Nat

/-- An agent ID: node × 64 + bay code (R148). -/
abbrev AgentId := Nat

/-- A bay B00 to B47. -/
abbrev Bay := Fin 48
/-- A quad Q0 to Q11, whose quad is bay / 4 (R26). -/
abbrev Quad := Fin 12
/-- A node of the Tulle fabric. -/
abbrev Node := Fin 128
/-- A Tulle virtual channel VC0 to VC7. -/
abbrev Vc := Fin 8
/-- A home slice HS0 to HS7. -/
abbrev Slice := Fin 8
/-- A mover M00 to M31. -/
abbrev Mover := Fin 32
/-- A stream of a mover. -/
abbrev StreamNo := Fin 8
/-- A compare channel PIC00 to PIC63, or a task input T0 to T63. -/
abbrev Chan := Fin 64
/-- A keep store device KS0 or KS1. -/
abbrev KsDev := Fin 2
/-- A power domain: 0 to 11 the quads, 12 to 15 the mover groups (17 "Power domains"). -/
abbrev Domain := Fin 16

end Sys2Proof
end

