-- ==== Sys2Proof/Syntax.lean ====
section
/-! DEFINITION. The commands of the hub: one constructor of `Instr` for each row of spec/opcode_table.json,
with the operands the spec's text gives the happening. -/

namespace Sys2Proof

/-- Who makes a register access (Table PAG-3). One lead bay counts as two origins (R100). -/
inductive Origin where
  | zhozha
  | core (c : Fin 4)
  | hostH (b : Bay)
  | hostU (b : Bay)
  deriving DecidableEq, Repr

/-- The three register windows (Table PAG-1). -/
inductive Window where
  | regwin | dbwin | perfwin
  deriving DecidableEq, Repr

/-- A register access as the page port sees it (R97): origin, window, page, byte offset of the first enabled
byte, number of bytes from the first to the last enabled byte, and which of them, counted from the first, are not
enabled. -/
structure Access where
  origin : Origin
  win    : Window
  page   : Nat
  off    : Nat
  nbytes : Nat
  gaps   : List Nat
  deriving DecidableEq, Repr

/-- The enabled bytes are contiguous (R97). -/
def Access.contig (a : Access) : Bool := a.gaps.isEmpty

/-- The six supplies, in the order of PWR.RAIL_WARN (Table MOD-5). -/
inductive Rail where
  | vcore | vsram | vphyA | vphyH | vio | vaux
  deriving DecidableEq, Repr

/-- The PFAIL channels. -/
inductive PfCh where
  | a | b
  deriving DecidableEq, Repr

/-- The header of a Tulle message (Table COH-4). -/
structure Hdr where
  opc    : Nat
  src    : AgentId
  dstn   : Nat
  tag    : Nat
  addr   : LineAddr
  seq    : Nat
  hops   : Nat
  prio   : Nat
  poison : Bool
  attr   : Nat
  /-- The message has the size that the tables give its opcode (R143, R160). -/
  sized  : Bool := true
  deriving DecidableEq, Repr

/-- The payload of an ATOMIC (Table COH-8). -/
structure AtomicArg where
  operand : BitVec 64
  compare : BitVec 64
  op      : Nat
  word    : Fin 8
  size8   : Bool
  upper   : Bool
  deriving DecidableEq, Repr

/-- How a coherent request row happens: the Tulle message arrives on a T link (R127, R131, R132, R121, R160),
or the looked-up request at the head of its line's chain is served (R185). -/
inductive ReqStep where
  | arrive (b : Bay) (h : Hdr)
  | serve (line : LineAddr)
  deriving DecidableEq, Repr

/-- The Meta0-State of a CXL.mem message (Table COH-7). -/
inductive Meta0 where
  | i | s | a
  deriving DecidableEq, Repr

/-- D2H read requests (Table COH-7). -/
inductive D2hRd where
  | rdShared | rdAny | rdOwn | rdCurr | rdOwnNoData
  deriving DecidableEq, Repr

/-- D2H write requests (Table COH-7). -/
inductive D2hWr where
  | wrCur | itoMWr | wrInv | wOWrInv | wOWrInvF
  deriving DecidableEq, Repr

/-- D2H snoop responses (Table TRN-4). -/
inductive D2hRspOp where
  | rspIHitI | rspIHitSE | rspSHitSE | rspIFwdM | rspSFwdM
  deriving DecidableEq, Repr

/-- The features of Table BAY-2. -/
inductive Feature where
  | rates | flitMode | nonFlit | flit68 | flit256 | reversal | crosslink | linkPower | cxlIo | memTarget | memInitiator
  | cacheHostSide | cacheDeviceSide | hdmDecoders | type2Memory | gpf | ide | doe | atsPriPasid | mctpVdm | switching | srIov
  | tulle
  /-- Any other optional feature of CXL 3.1 or PCIe (R11). -/
  | unlisted
  deriving DecidableEq, Repr

/-- What a function reports of itself in config space: its identification (Table OVW-4), the values of its ATS, PASID and
PRI capabilities (R311), the size of its MSI-X table (Table PAG-1), its number of HDM decoders, Memory_Active (R257), and
whether a feature of Table BAY-2 is there (R11, R33). -/
inductive CfgReg where
  | vendorId | deviceId | revisionId | classCode | subsystemVendor | subsystemId
  | atsQueueDepth | atsPageAligned | atsGlobalInvalidate
  | pasidWidth | pasidExecute | pasidPrivileged
  | priCapacity | priPasidRequired
  | msixTableSize | hdmCount | biDecoders
  | memoryActive
  | feature (f : Feature)
  deriving DecidableEq, Repr

/-- A register field of a host function's config space that the spec names (R85, R106, R311, R314, R323, R324, BAY-2). -/
inductive CfgField where
  | memSpaceEnable (v : Bool)
  | msixEnable (v : Bool)
  | functionMask (v : Bool)
  | atsEnable (v : Bool)
  | pasidEnable (v : Bool)
  | priEnable (v : Bool)
  | priAllocation (n : Nat)
  /-- HDM decoder i: first line and number of lines of its HPA range, first TPA line, interleave ways, granularity in lines
  and the function's position in the interleave set (Table BAY-2). No lines: the decoder is off. -/
  | hdmDecoder (i : Fin 4) (hpaLine lines tpaLine ways gran pos : Nat)
  /-- BI Enable of the BI decoder (R164). -/
  | biEnable (v : Bool)
  /-- A key of CXL or PCIe IDE, by key set and slot (Table BAY-2, R47). -/
  | ideKey (slot key : Nat)
  /-- A read of what the function reports of itself. -/
  | read (r : CfgReg)
  deriving DecidableEq, Repr

/-- The state of one lane as a training attempt finds it (Table BAY-8). -/
inductive LaneSt where
  | active | opened | short | order | masked | spare | foreign
  deriving DecidableEq, Repr

/-- The alternate protocol that the modified TS1 and TS2 received on a lane offer: none, CXL, or a vendor's, with its
24-bit Modified TS Information 1 (R37). -/
inductive Offer where
  | pcie
  | cxl
  | vendor (id word : Nat)
  deriving DecidableEq, Repr

/-- What a training attempt meets on one group lane (Table BAY-4, R40): no receiver; a receiver whose common mode lies
outside the PHY window; no bit lock; or bit lock, with the lane number received in Configuration, inverted symbols and
the offer. -/
inductive LaneIn where
  | absent
  | badLevel
  | noLock
  | locked (num : Nat) (inverted : Bool) (offer : Offer)
  deriving DecidableEq, Repr

/-- What a training attempt meets (R34 to R43): each group lane, link numbers proposed by the partner, 256 B flit mode,
CXL negotiated, a CXL.cache device (Table COH-1). -/
structure TrainIn where
  lanes    : List LaneIn
  proposes : Bool
  flitOk   : Bool
  cxl      : Bool
  cacheDev : Bool
  deriving DecidableEq, Repr

/-- A replayed flit: the lead bay of its link, and the flits that FEC has corrected there since the last one. -/
structure FlitIn where
  bay       : Bay
  corrected : Nat
  deriving DecidableEq, Repr

/-- HELLO (Table TUL-9). -/
structure HelloMsg where
  serial   : Nat
  fabricId : Nat
  digest   : Nat
  epoch    : Nat
  profSer  : Nat
  zhSvn    : Nat
  mode     : Nat
  present  : Bool
  fenced   : Bool
  quorum   : Bool
  levelLo  : Nat
  levelHi  : Nat
  deriving DecidableEq, Repr

/-- One link of an LSA (Table TUL-9). -/
structure LsaLink where
  peer : Nat
  bay  : Nat
  cost : Nat
  deriving DecidableEq, Repr

/-- A home map entry (Table TUL-3). -/
structure HEntry where
  home   : Nat
  valid  : Bool
  memo   : Bool
  atomic : Nat
  frozen : Bool
  loc    : Nat
  deriving DecidableEq, Repr

/-- A Poison Ledger entry (Table DED-4). KIND 1 LINE, 2 FOREIGN. -/
structure PsnEntry where
  line  : LineAddr
  kind  : Nat
  cause : Nat
  agent : AgentId
  epoch : Nat
  deriving DecidableEq, Repr

/-- What an HO_COPY carries (Table TUL-9). -/
inductive CopyItem where
  | data (line : LineAddr) (d : LineData) (poison : Bool)
  | dir (idx : Nat) (entries : BitVec 512)
  | ledger (es : List PsnEntry)
  | mark
  deriving DecidableEq, Repr

/-- A doorbell unit (Table MOV-3); `zeroOk` says every byte and bit the table requires zero is zero. -/
structure DbUnit where
  sqTail  : Nat
  cqHead  : Nat
  sqValid : Bool
  cqValid : Bool
  setup   : Bool
  sqBase  : Nat
  cqBase  : Nat
  sqLog2  : Nat
  cqLog2  : Nat
  vector  : Nat
  zeroOk  : Bool
  first4  : Nat
  deriving DecidableEq, Repr

/-- The result of a Translation Request (R312, R313): a fault answer, or a range. -/
inductive AtsResult where
  | ok (pa : Nat) (log2 : Nat) (r w u : Bool)
  | urOrCa
  deriving DecidableEq, Repr

/-- The outcome of a PRG Response (R324). -/
inductive PrgCode where
  | success | invalid | failure
  deriving DecidableEq, Repr

/-- The registers of a compare channel whose write arms or changes it (R344). -/
inductive ChanReg where
  | cmpHi | interval | phase | ctl
  deriving DecidableEq, Repr

/-- The carriers of an MCTP message (R62, R63, R398): on SMBus with the address the message is sent to, and whether its
packet error code is right. -/
inductive Carrier where
  | i3c | smbus (addr : BitVec 7) (pec : Bool) | vdm (b : Bay)
  deriving DecidableEq, Repr

/-- What a recovery of the management bus meets (R63): the lines that are low once the hub has released its own drivers and
reset its target logic, SCL for 1 ms, and the lines that are low after the pulses, where they are sent. -/
structure BusTry where
  scl      : Bool
  sda      : Bool
  sclAfter : Bool
  sdaAfter : Bool
  deriving DecidableEq, Repr

/-- How a Quinsor management command is carried (R412). -/
inductive QCarrier where
  | mctp | spdmVendor
  deriving DecidableEq, Repr

/-- What Zhozha finds of the hybrid signature of an owner-signed command (R413): the outcome of its two parts, the nonce
it carries and the SHA-384 of the key pair that signed it. -/
structure OwnerSig where
  ecdsaOk : Bool
  mldsaOk : Bool
  nonce   : Nat
  key     : Nat
  deriving DecidableEq, Repr

/-- A firmware image slot as its reader finds it (Table TRU-3, R390): header fields and the outcome of each check. -/
structure Image where
  typ       : Nat
  svn       : Nat
  length    : Nat
  loadLen   : Nat
  digest    : Nat
  keyHash   : Nat
  ecdsaOk   : Bool
  mldsaOk   : Bool
  digestOk  : Bool
  /-- The slot's sectors took it: false where an erase or a program of one failed (R433). -/
  stored    : Bool
  deriving DecidableEq, Repr

/-- An owner policy slot (Table TRU-6, R399): the policy's fields, the hash of the root key pair it carries and the
outcome of the two parts of its signature. -/
structure Policy where
  ecdsaOk   : Bool
  mldsaOk   : Bool
  rootHash  : Nat
  serial    : Nat
  roles     : List Nat
  qbonds    : List Nat
  ways      : Nat
  gran      : Nat
  wayBays   : List Nat
  prov      : Nat
  bootLimit : Nat
  wdogMs    : Nat
  strict    : Bool
  autoSvn   : Bool
  digest    : Nat
  opsKey    : Nat
  /-- The SMBus static address, where the policy sets one (R62). -/
  i3cStatic : Option (BitVec 7)
  /-- Subsystem Vendor ID and Subsystem ID, where the policy sets them (Table OVW-4). -/
  subsystem : Option (Nat × Nat)
  /-- The slot's sectors took it (R433). -/
  stored    : Bool
  deriving DecidableEq, Repr

/-- A range of the profile's initial home map (Table TUL-1). -/
structure MapRange where
  first  : Nat
  last   : Nat
  home   : Nat
  memo   : Bool
  atomic : Nat
  base   : Nat
  deriving DecidableEq, Repr

/-- The end of a sector's erase (R424, R433): whether it succeeded, and whether the SECTOR record read before it was valid. -/
structure EraseEnd where
  ok     : Bool
  header : Bool
  deriving DecidableEq, Repr

/-- A fabric profile slot (Table TUL-1, R112). -/
structure Profile where
  /-- SHA-384 of the key pair that signed it, and whether both signatures verify under that pair over the body's digest. -/
  key      : Nat
  ecdsaOk  : Bool
  mldsaOk  : Bool
  fabricId : Nat
  serial   : Nat
  members  : List (Nat × Nat)
  roots    : List Nat
  levelMin : Nat
  levelMax : Nat
  svnFloor : Nat
  grace    : Nat
  ranges   : List MapRange
  rsvdZero : Bool
  lenOk    : Bool
  /-- The slot's sectors took it (R433). -/
  stored   : Bool
  deriving DecidableEq, Repr

/-- What the hub meets while Zhozha starts, beyond the keep store's contents (R203, R402, R406, R408): the capacity in bytes
of each media way's device, none where the way is not up. -/
structure ZhIn where
  media   : List (Option Nat)
  torn    : Bool
  writable : Bool
  deriving DecidableEq, Repr

/-- A firmware image kind (R392). -/
inductive FwKind where
  | zhozha | chakacon
  deriving DecidableEq, Repr

/-- A firmware, policy or profile slot. -/
inductive Slot where
  | a | b
  deriving DecidableEq, Repr

/-- A transport that carries SPDM (R398). -/
inductive SpdmPort where
  | doe (b : Bay)
  | mctp
  deriving DecidableEq, Repr

/-- The arbitration point of an egress grant (R234): a bay's or a T link's egress. -/
inductive EgressPoint where
  | tlink (b : Bay)
  | bay (b : Bay)
  deriving DecidableEq, Repr

/-- An access to the MSI-X table (entry `i`, double word `dw`) or to the PBA (word `i`) in BAR0 of an H bay (R478). -/
structure MsixAccess where
  bay   : Bay
  pba   : Bool
  i     : Nat
  dw    : Fin 4
  write : Option Word
  deriving DecidableEq, Repr

/-- An SPDM message of mutual authentication on VC6 (R114, Table TUL-9): its MCTP packet, whether the exchange is finished by
it, and then its outcome and the serial of the peer's DeviceID certificate. -/
structure SpdmIn where
  packet : List Nat
  final  : Bool
  authOk : Bool
  serial : Nat
  deriving DecidableEq, Repr

/-- PROPOSE (Table TUL-9): the new epoch, the new member set, the LSDB digest, the number of changed entries that
follow in PROP_MAP messages, and the time root of the new epoch. -/
structure ProposeMsg where
  epoch   : Nat
  members : List Nat
  digest  : Nat
  count   : Nat
  root    : Option Nat
  deriving DecidableEq, Repr

/-- HEARTBEAT (Table TUL-9). -/
structure HeartMsg where
  seq     : Nat
  mode    : Nat
  suspect : Bool
  fenced  : Bool
  last    : Bool
  epoch   : Nat
  present : Nat
  deriving DecidableEq, Repr

/-- One data step of a tile of a mover op: the host's answer to the tile's reads of host memory, where it has any (the
bytes of SRC, then of DST; a poisoned completion). -/
structure OpStep where
  tok    : Nat
  tile   : Nat
  host   : List Nat
  poison : Bool
  deriving DecidableEq, Repr

/-- A Quinsor management command inside an SPDM VENDOR_DEFINED_REQUEST (R412). -/
inductive QCmd where
  | ldgInfo
  | ldgRead (lseq count : Nat)
  | ldgCerts
  | ldgNonce
  | ldgAck (sig : OwnerSig) (lseq : Nat)
  | benchRelease (sig : OwnerSig)
  | ownerClaim (keyHash : Nat)
  | ownerRevoke (sig : OwnerSig) (slot : Fin 4)
  | imageUpdate (k : FwKind) (img : Image)
  | benchStatus
  | other (code : Nat)
  deriving DecidableEq, Repr

/-- The commands of the block: one constructor for each row of the table of operations and events. -/
inductive Instr where
  /-- SEQUENCER_START (R75): VAUX is above 1.64 V and HUB_RESET_N is deasserted, so the boot sequencer starts at offset 0 and counts REFCLK. -/
  | sequencerStart
  /-- FUSE_SENSING_DONE (R388): Fuse sensing completes: ECC is checked and, on success, the PLL is enabled. -/
  | fuseSensingDone (eccOk : Bool)
  /-- PLL_LOCK (R74): The PLL locks and LOCK_RC records the time taken. -/
  | pllLock (rc : Nat)
  /-- HCLK_SWITCH (R75): Lock is confirmed steady, the island switches to HCLK, HTIME starts at 0 and the trusted core enters ROM. -/
  | hclkSwitch
  /-- ROM_START (R395): The ROM checks GRADE, chooses a Zhozha slot, derives the DICE keys, locks the UDS and jumps to Zhozha. -/
  | romStart
  /-- ZHOZHA_START (R395): Zhozha counts the start, selects the policy and profile, loads class-Z fields, advances BGEN and writes the boot record. -/
  | zhozhaStart (z : ZhIn)
  /-- CORE_DOMAIN_RELEASE (R68): All five main rails have stayed above warning for 20,000 hc, so the core domain is released onto HCLK. -/
  | coreDomainRelease
  /-- MGMT_CORE_RELEASE (R395): Once the core domain is released, Zhozha loads resident Chakacon, starts the watchdog, releases the management cores and the hub enters ASSEMBLE. -/
  | mgmtCoreRelease
  /-- FORMAT_DONE (R207): The directory format writes its last UNCACHED entry, FORMAT_BUSY clears and FORMAT_DONE sets. -/
  | formatDone
  /-- PRK_FORMAT (R207): A write of PRK.CTL.FORMAT starts a directory format in ASSEMBLE, or is refused. -/
  | prkFormat (o : Origin)
  /-- PRK_FLUSH (R212): A write of PRK.CTL.FLUSH writes back every DIRTY way of the Pricking cache. -/
  | prkFlush (o : Origin)
  /-- FLUSH_DONE (R212): The Pricking flush completes and FLUSH_BUSY clears. -/
  | flushDone
  /-- HUB_RESET_ASSERT (R61): Filtered HUB_RESET_N asserts, and every part of the hub resets at once without a seal. -/
  | hubResetAssert
  /-- HUB_RESET_DEASSERT (R61): HUB_RESET_N deasserts, and training and boot restart. -/
  | hubResetDeassert
  /-- RAIL_BELOW_WARNING (R71): A rail stays below its warning threshold long enough to be counted below warning: BRACE for VCORE, VSRAM or VAUX, and PWR status with ALERT_N for the others. -/
  | railBelowWarning (r : Rail)
  /-- RAIL_ABOVE_WARNING (R70): A rail exceeds its warning threshold plus hysteresis again. -/
  | railAboveWarning (r : Rail)
  /-- RAIL_BELOW_RESET (R72): A rail falls below its reset threshold, the hub resets and PREV_RESET records SUPPLY. -/
  | railBelowReset (r : Rail)
  /-- REFCLK_LOSS (R77): No REFCLK edge arrives for 80 hc, so holdover starts, credits and acceptance stop and the tail commit starts. -/
  | refclkLoss
  /-- CLOCK_LOSS_RESET (R77): 64 hc after the tail commit, or at offset 200,080, the hub resets with cause CLOCK_LOSS. -/
  | clockLossReset
  /-- REFCLK_RETURN (R78): REFCLK returns after a pre-lock loss and the sequencer restarts from offset 0. -/
  | refclkReturn
  /-- THERMTRIP (R80): A sensor reads 115 °C or more: THERMTRIP_N asserts, the hub resets and the cause latches. -/
  | thermtrip
  /-- THERMTRIP_RELEASE (R80): The main rails have stayed below reset for 1 s, so THERMTRIP_N deasserts and the sequencer starts. -/
  | thermtripRelease
  /-- THERMAL_WARNING (R455): TEMP_MAX reaches WARN_C, so throttling and ALERT_N start; they end when it falls 5 °C below. -/
  | thermalWarning (temp : BitVec 8)
  /-- PFAIL_ASSERT (R452): A filtered PFAIL channel asserts: BRACE, or SEAL on agreement or with the partner excluded, or a hold of the start. -/
  | pfailAssert (ch : PfCh)
  /-- PFAIL_DEASSERT (R452): A PFAIL channel deasserts, which counts a glitch when its partner never asserted. -/
  | pfailDeassert (ch : PfCh)
  /-- PFAIL_EXCLUSION (R452): A channel has been asserted alone for more than DISC, so it becomes EXCLUDED and ALERT_N asserts. -/
  | pfailExclusion (ch : PfCh)
  /-- PFAIL_BOOT_EXCLUSION (R453): A channel has been asserted alone for 50 ms during the start span, so it is excluded for the start and the start resumes. -/
  | pfailBootExclusion (ch : PfCh)
  /-- PFAIL_REINCLUDE (R453): A REINCLUDE write returns a deasserted EXCLUDED channel to service, or is refused. -/
  | pfailReinclude (o : Origin) (ch : PfCh)
  /-- BRACE_EXIT (R451): No BRACE trigger has held for 1 ms, so BRACE is left and event source 75 is raised. -/
  | braceExit
  /-- BENCH_REQUEST (R454): Debounced BENCH_REQ_N asserts, so the hub seals with cause BENCH_REQ and then resets into BENCH. -/
  | benchRequest (low : Bool)
  /-- QRST_ASSERT (R47): QRST_N of a quad asserts, so its H links go down, their state resets and the host agents die. -/
  | qrstAssert (q : Quad)
  /-- QRST_DEASSERT (R47): QRST_N deasserts and training of the quad's H bays begins within 1 ms. -/
  | qrstDeassert (q : Quad)
  /-- HOST_HOT_RESET (R48): A host drives a Hot Reset on an H bay, which is handled as a QRST_N of that bay. -/
  | hostHotReset (b : Bay)
  /-- HOST_LINK_DISABLE (R48): A host drives Link Disable on an H bay, which is handled as under R47 until the host releases the link. -/
  | hostLinkDisable (b : Bay)
  /-- HOST_LINK_RELEASE (R48): The host releases a disabled link and training resumes. -/
  | hostLinkRelease (b : Bay)
  /-- FUNCTION_LEVEL_RESET (R33): A host issues FLR: CXL.io state resets and the bay's origins and queues are reset. -/
  | functionLevelReset (b : Bay)
  /-- HOST_CONFIG_WRITE (R314): A host writes config space, for example ATS, PASID or PRI Enable, which changes translation behaviour. -/
  | hostConfigWrite (b : Bay) (f : CfgField)
  /-- TRAINING_RETRY (R45): 1 s after a refusal, or after a hold ends, a new training attempt begins on the bay. -/
  | trainingRetry (b : Bay)
  /-- TRAINING_ATTEMPT_END (R41): A training attempt ends with the link up, degraded or refused, and the cause and lane states are recorded. -/
  | trainingAttemptEnd (b : Bay) (t : TrainIn)
  /-- POLLING_TIMEOUT (R41): No lane reaches bit lock within the 24 ms Polling timeout. -/
  | pollingTimeout (b : Bay)
  /-- EQUALISATION_FAIL (R44): Equalisation does not converge at a rate, and the hub retries at the next lower rate. -/
  | equalisationFail (b : Bay)
  /-- LINK_UP (R39): The link reaches DL_Active: credits are initialised and LINK_UP is set. -/
  | linkUp (b : Bay)
  /-- LINK_DOWN (R39): The link leaves DL_Active: origins reset and Tulle traffic for it is held. -/
  | linkDown (b : Bay)
  /-- FLAP_HOLD_EXPIRY (R46): The HOLD time expires and the bay may train again. -/
  | flapHoldExpiry (b : Bay)
  /-- FLAP_HOLD_RESET (R46): After 60 s with the link continuously up, the hold time returns to 1 s. -/
  | flapHoldReset (b : Bay)
  /-- ROLECFG_WRITE (R28): A write of ROLECFG takes effect only while every affected bay is OFF or DISABLED. -/
  | rolecfgWrite (o : Origin) (b : Bay) (v : Word)
  /-- LINKCFG_WRITE (R45): A write of LINKCFG sets the floors, the mask and LINK_EN; clearing and setting LINK_EN forces a new training attempt. -/
  | linkcfgWrite (o : Origin) (b : Bay) (v : Word)
  /-- I3C_STUCK_TIMEOUT (R63): I3C_SDA or I3C_SCL stays low for 35 ms, so the hub releases its drivers and starts bus recovery. -/
  | i3cStuckTimeout (scl : Bool) (sda : Bool) (t : BusTry)
  /-- I3C_RECOVERY_RETRY (R63): A further bus recovery runs 1 s after a failed one, or 10 s after entry to FAILED. -/
  | i3cRecoveryRetry (t : BusTry)
  /-- MCTP_MESSAGE (R62): An MCTP message arrives over I3C, SMBus or PCIe VDM and is carried to Chakacon or Zhozha. -/
  | mctpMessage (c : Carrier) (typ : Nat) (len : Nat)
  /-- MCTP_CONTROL (R471): An MCTP control message is answered, including by the ROM in BENCH. -/
  | mctpControl (c : Carrier) (code : Nat)
  /-- KS_TRANSFER_FAIL (R65): A keep store transfer fails, so the bus is parked and the device is marked FAILED. -/
  | ksTransferFail (d : KsDev) (cause : Nat)
  /-- TAP_BYPASS (R66): The TAP instruction BYPASS. -/
  | tapBypass
  /-- TAP_IDCODE (R66): The TAP instruction IDCODE. -/
  | tapIdcode
  /-- TAP_SAMPLE_PRELOAD (R66): The TAP instruction SAMPLE/PRELOAD. -/
  | tapSamplePreload (data : Nat)
  /-- TAP_EXTEST (R66): The TAP instruction EXTEST. -/
  | tapExtest
  /-- TAP_CLAMP (R66): The TAP instruction CLAMP. -/
  | tapClamp
  /-- TAP_HIGHZ (R66): The TAP instruction HIGHZ. -/
  | tapHighz
  /-- TAP_EXTEST_PULSE (R66): The IEEE 1149.6 instruction EXTEST_PULSE on bay lanes. -/
  | tapExtestPulse
  /-- TAP_EXTEST_TRAIN (R66): The IEEE 1149.6 instruction EXTEST_TRAIN on bay lanes. -/
  | tapExtestTrain
  /-- REGISTER_WRITE (R103): A write to a register with no row of its own, judged by shape, class, owner and lock, takes effect 1 hc later. -/
  | registerWrite (a : Access) (v : Nat)
  /-- RC_READ (R6): A full-width read of an RC register returns its value and clears it. -/
  | rcRead (a : Access)
  /-- LOW_HALF_READ (R100): A 32-bit read of the low half of a 64-bit register arms the origin's latch, and clears the whole register if it is RC. -/
  | lowHalfRead (a : Access)
  /-- HIGH_HALF_READ (R100): A 32-bit read of the high half returns the latched copy and disarms the latch, or returns the live value. -/
  | highHalfRead (a : Access)
  /-- LATCH_EXPIRY (R101): An unconsumed latch expires 1,024 hc after the low-half read, logging RC_HALF_LOST if needed. -/
  | latchExpiry (o : Origin)
  /-- LOW_HALF_WRITE (R102): A write of the low half of a 64-bit register is staged for its origin. -/
  | lowHalfWrite (o : Origin) (page : Nat) (off : Nat) (v : Word)
  /-- HIGH_HALF_WRITE (R102): A write of the high half updates both halves in one hc, using any value staged. -/
  | highHalfWrite (o : Origin) (page : Nat) (off : Nat) (v : Word)
  /-- STAGE_EXPIRED (R102): A staged low half is discarded 1,024 hc after its write and logged. -/
  | stageExpired (o : Origin)
  /-- IFORCE_WRITE (R105): A write to IFORCE sets the assigned ISTAT bits. -/
  | iforceWrite (o : Origin) (page : Nat) (v : Word)
  /-- ISTAT_CLEAR (R106): A W1C write to ISTAT, or a write of IEN, updates the page interrupt and resends MSI-X while it stays active. -/
  | istatClear (o : Origin) (page : Nat) (ien : Bool) (v : Word)
  /-- ERRLOG_CLEAR (R108): A write of 1 to ERRLOG_A.VALID clears the page's error log. -/
  | errlogClear (o : Origin) (page : Nat)
  /-- ACCERR_CLEAR (R110): A write of 1 to ACCERR.VALID clears the captured access error. -/
  | accerrClear (o : Origin)
  /-- LOCK_WRITE (R95): A write to a page's LOCK sets or raises the lock level, subject to class and STICKY. -/
  | lockWrite (o : Origin) (page : Nat) (v : Word)
  /-- OWNER_WRITE (R93): A write to a page's OWNER changes its owner bay, with an MSI-X resend if needed. -/
  | ownerWrite (o : Origin) (page : Nat) (v : Word)
  /-- MSIX_TABLE_ACCESS (R478): An access to the MSI-X table or PBA follows PCIe 6.2 without logging. -/
  | msixTableAccess (m : MsixAccess)
  /-- PERFWIN_READ (R377): A BAR4 read of a PERFWIN page is served only when the page is granted to the owner bay. -/
  | perfwinRead (o : Origin) (page : Nat) (off : Nat) (nbytes : Nat)
  /-- HELLO (R114): A HELLO arrives on a T link and the admission checks are run or repeated. -/
  | hello (b : Bay) (h : Hdr) (m : HelloMsg)
  /-- HELLO_TIMER (R114): 10 ms pass without a HELLO sent, so it is sent again. -/
  | helloTimer (b : Bay)
  /-- SPDM (R114): An SPDM message arrives over MCTP on VC6 for mutual authentication. -/
  | spdm (b : Bay) (h : Hdr) (m : SpdmIn)
  /-- LSA (R116): An LSA arrives and, if new, is stored in the LSDB and flooded on. -/
  | lsa (b : Bay) (h : Hdr) (seq : Nat) (links : List LsaLink)
  /-- LSA_TIMER (R116): 1 s passes since the last LSA, so a new LSA is flooded. -/
  | lsaTimer
  /-- AUTO_PROPOSE_TIMER (R123): 1 ms after the last change to its LSDB or present set, the lowest present member proposes an epoch. -/
  | autoProposeTimer
  /-- HMAP_PROPOSE (R124): A write of ST_CTL.PROPOSE floods the staged differences as a proposal, or aborts with TOO_LARGE. -/
  | hmapPropose (o : Origin)
  /-- HMAP_RESTAGE (R122): A write of ST_CTL.RESTAGE copies the current map into the stage. -/
  | hmapRestage (o : Origin)
  /-- PROPOSE (R123): A PROPOSE arrives and the member stages the change, then answers ACK or REFUSE. -/
  | propose (b : Bay) (h : Hdr) (m : ProposeMsg)
  /-- PROP_MAP (R123): A PROP_MAP arrives carrying changed home map entries of a proposal. -/
  | propMap (b : Bay) (h : Hdr) (epoch : Nat) (first : Nat) (entries : List (Nat × HEntry))
  /-- EPOCH_ACK (R123): An ACK reaches the proposer, which floods COMMIT once every present member has answered. -/
  | epochAck (b : Bay) (h : Hdr) (epoch : Nat)
  /-- REFUSE (R124): A REFUSE reaches the proposer and the proposal aborts. -/
  | refuse (b : Bay) (h : Hdr) (epoch : Nat) (cause : Nat)
  /-- EPOCH_TIMEOUT (R124): ACKs are still incomplete 10 ms after PROPOSE and the proposal aborts. -/
  | epochTimeout
  /-- COMMIT (R125): A COMMIT arrives and sets the activation time, or activates at once if the time is late. -/
  | commit (b : Bay) (h : Hdr) (epoch : Nat) (ftime : Nat)
  /-- EPOCH_ACTIVATION (R123): At the activation FTIME, the home map, routes, time root and epoch switch together. -/
  | epochActivation
  /-- MAP_FETCH (R125): A MAP_FETCH arrives and is answered with MAP_STATE and MAP_DATA. -/
  | mapFetch (b : Bay) (h : Hdr) (epoch : Nat)
  /-- MAP_STATE (R125): A MAP_STATE arrives in answer to a fetch. -/
  | mapState (b : Bay) (h : Hdr) (epoch : Nat) (members : List Nat) (root : Option Nat) (count : Nat)
  /-- MAP_DATA (R125): A MAP_DATA arrives, and after the last one the fetched epoch is activated. -/
  | mapData (b : Bay) (h : Hdr) (epoch : Nat) (first : Nat) (entries : List HEntry)
  /-- FENCE (R139): A FENCE for a node arrives and that node is fenced. -/
  | fence (b : Bay) (h : Hdr) (node : Node) (ftime : Nat)
  /-- UNFENCE (R139): An UNFENCE arrives and service to the node resumes. -/
  | unfence (b : Bay) (h : Hdr) (node : Node) (ftime : Nat)
  /-- FENCE_GRACE_EXPIRY (R139): FENCE_GRACE ends without resync, so the fenced node is declared dead. -/
  | fenceGraceExpiry (node : Node)
  /-- TIME_REQ (R137): A TIME_REQ from a child arrives and is answered with TIME_RSP. -/
  | timeReq (b : Bay) (h : Hdr) (t1 : Nat)
  /-- TIME_RSP (R137): A TIME_RSP arrives; θ is computed and OFFSET is stepped or slewed. -/
  | timeRsp (b : Bay) (h : Hdr) (t1 : Nat) (t2 : Nat) (t3 : Nat)
  /-- HEARTBEAT (R140): A HEARTBEAT arrives, refreshing the peer's mode and present state, and killing the sender if LAST is set. -/
  | heartbeat (b : Bay) (h : Hdr) (m : HeartMsg)
  /-- HEARTBEAT_TIMEOUT (R141): No heartbeat from a present member for 3.25 ms, so the member is declared dead. -/
  | heartbeatTimeout (node : Node)
  /-- FLIT_CREDIT_BLOCK (R134): A flit's credit block arrives and returns credits (RET) and echoes (ECHO) per VC. -/
  | flitCreditBlock (b : Bay) (ret : List Nat) (ech : List Nat)
  /-- CREDIT_FLIT_TIMER (R134): Credits are to be returned or echoed with no message to send, so a credit-only flit is sent within 64 hc. -/
  | creditFlitTimer (b : Bay)
  /-- EGRESS_GRANT (R234): The egress arbiter of a bay or T link grants one flit among the source queues of a VC or channel. -/
  | egressGrant (p : EgressPoint)
  /-- HO_OFFER (R456): An HO_CTL OFFER for a granule reaches the target, which accepts or refuses. -/
  | hoOffer (b : Bay) (h : Hdr) (gran : Nat) (loc : Nat)
  /-- HO_ACCEPT (R456): An HO_CTL ACCEPT reaches the handing hub and the copy starts. -/
  | hoAccept (b : Bay) (h : Hdr) (gran : Nat) (loc : Nat)
  /-- HO_REFUSE (R456): An HO_CTL REFUSE reaches the handing hub and the handoff aborts. -/
  | hoRefuse (b : Bay) (h : Hdr) (gran : Nat) (loc : Nat)
  /-- HO_SENT (R456): An HO_CTL SENT closes FREEZE with the message count and the owner count. -/
  | hoSent (b : Bay) (h : Hdr) (gran : Nat) (loc : Nat) (count : Nat) (owners : Nat)
  /-- HO_RECEIVED (R456): An HO_CTL RECEIVED acknowledges the freeze and the handing hub proposes the epoch. -/
  | hoReceived (b : Bay) (h : Hdr) (gran : Nat) (loc : Nat)
  /-- HO_ABORT (R457): An HO_CTL ABORT ends the handoff and frees the target's local index. -/
  | hoAbort (b : Bay) (h : Hdr) (gran : Nat) (loc : Nat)
  /-- HO_COPY (R209): An HO_COPY arrives with a data line, directory line or ledger entries, and is written locally. -/
  | hoCopy (b : Bay) (h : Hdr) (item : CopyItem)
  /-- PSN_XFER (R264): A PSN_XFER arrives, transferring ledger entries or a mark, or confirming their commit. -/
  | psnXfer (b : Bay) (h : Hdr) (gran : Nat) (confirm : Bool) (mark : Bool) (es : List PsnEntry)
  /-- HANDOFF_START (R456): A write of MOD.HO_CTL.START offers a granule to a target, or is refused. -/
  | handoffStart (o : Origin) (maxUs : Nat)
  /-- HANDOFF_COPY_DONE (R456): The last page of the copy has been sent, so the granule is FROZEN. -/
  | handoffCopyDone
  /-- HANDOFF_CHAINS_EMPTY (R199): Every chain of the frozen granule is empty, so entries, marked pages, ledger items and count are sent. -/
  | handoffChainsEmpty
  /-- FREEZE_TIMEOUT (R457): FREEZE lasts beyond FREEZE_MAX_US before PROPOSE, and the handoff aborts. -/
  | freezeTimeout
  /-- RD_SHARED (R185): A RD_SHARED request is served at the head of the line's chain by directory state. -/
  | rdShared (r : ReqStep)
  /-- RD_ANY (R185): A RD_ANY request is served at the head of the chain. -/
  | rdAny (r : ReqStep)
  /-- RD_OWN (R185): A RD_OWN request is served at the head of the chain. -/
  | rdOwn (r : ReqStep)
  /-- RD_CUR (R185): A RD_CUR request is served at the head of the chain. -/
  | rdCur (r : ReqStep)
  /-- UPGRADE (R155): An UPGRADE is served, as RD_OWN when the requester is not named. -/
  | upgrade (r : ReqStep)
  /-- WR_FULL (R185): A WR_FULL invalidates every copy and writes the line. -/
  | wrFull (r : ReqStep) (d : LineData)
  /-- ATOMIC (R168): A far ATOMIC invalidates every copy and executes in the home ALU. -/
  | atomic (r : ReqStep) (a : AtomicArg)
  /-- STASH (R172): A STASH writes the line and pushes it to the consumer's RLC if eligible. -/
  | stash (r : ReqStep) (d : LineData) (consumer : AgentId)
  /-- SNP_INV (R161): An SNP_INV reaches an RLC, which recalls and answers from its state. -/
  | snpInv (b : Bay) (h : Hdr)
  /-- SNP_DATA (R161): An SNP_DATA reaches an RLC, which recalls and answers from its state. -/
  | snpData (b : Bay) (h : Hdr)
  /-- SNP_FWD (R161): An SNP_FWD reaches an RLC, which forwards data to the requester and answers the home. -/
  | snpFwd (b : Bay) (h : Hdr)
  /-- RSP_I (R188): An RSP_I reaches the home in a transient state. -/
  | rspI (b : Bay) (h : Hdr)
  /-- RSP_S (R188): An RSP_S reaches the home in a transient state. -/
  | rspS (b : Bay) (h : Hdr)
  /-- RSP_FWD (R188): An RSP_FWD tells the home the forwarder is done. -/
  | rspFwd (b : Bay) (h : Hdr)
  /-- SNP_WB (R188): An SNP_WB brings dirty data in answer to a snoop. -/
  | snpWb (b : Bay) (h : Hdr) (d : LineData)
  /-- ACK (R179): A requester's ACK completes the transaction at the home, updating the directory and releasing the bobbin. -/
  | ack (b : Bay) (h : Hdr)
  /-- STASH_ACK (R172): A STASH_ACK accepts or declines the push, and the bobbin is released. -/
  | stashAck (b : Bay) (h : Hdr)
  /-- DATA (R194): DATA from the home reaches an RLC tracker, which installs the grant and sends ACK. -/
  | data (b : Bay) (h : Hdr) (d : LineData)
  /-- DATA_FWD (R194): DATA_FWD from a holder reaches the requesting RLC and is matched by ADDR. -/
  | dataFwd (b : Bay) (h : Hdr) (d : LineData)
  /-- CMP (R194): A CMP reaches the requester or write-back sender and ends its transient state. -/
  | cmp (b : Bay) (h : Hdr)
  /-- DATA_ATM (R171): A DATA_ATM returns an atomic result and updates the predictor. -/
  | dataAtm (b : Bay) (h : Hdr) (old : BitVec 64) (status : Nat)
  /-- STASH_PUSH (R174): A STASH_PUSH reaches a target RLC, which accepts it in E or declines. -/
  | stashPush (b : Bay) (h : Hdr) (d : LineData)
  /-- WB_DIRTY (R189): A WB_DIRTY takes a write-back bobbin and is served at once or after the head transaction. -/
  | wbDirty (b : Bay) (h : Hdr) (d : LineData)
  /-- MEMRD (R162): A CXL MemRd arrives on an H bay and enters the home as the class of its Meta0-State. -/
  | memrd (b : Bay) (hpa : Nat) (m : Meta0)
  /-- MEMRDDATA (R162): A CXL MemRdData arrives and enters as RD_ANY. -/
  | memrddata (b : Bay) (hpa : Nat)
  /-- MEMINV (R162): A CXL MemInv arrives: an UPGRADE for state A, and a clean-eviction notice for I. -/
  | meminv (b : Bay) (hpa : Nat) (m : Meta0)
  /-- MEMCLNEVCT (R163): A CXL MemClnEvct clears the host's directory pointer. -/
  | memclnevct (b : Bay) (hpa : Nat)
  /-- MEMSPECRD (R162): A CXL MemSpecRd is accepted with no action. -/
  | memspecrd (b : Bay) (hpa : Nat)
  /-- MEMWR (R193): A CXL MemWr or MemWrPtl enters write staging as a write-back or a write. -/
  | memwr (b : Bay) (hpa : Nat) (m : Meta0) (d : LineData) (mask : BitVec 64) (poison : Bool)
  /-- BIRSP (R191): A BIRspI or BIRspS completes a host's answer to a back-invalidate snoop. -/
  | birsp (b : Bay) (line : LineAddr) (shared : Bool)
  /-- BICONFLICT (R164): A host's BIConflict is answered with BIConflictAck in CXL order. -/
  | biconflict (b : Bay) (line : LineAddr)
  /-- D2H_READ (R162): A D-bay RdShared, RdAny, RdOwn, RdCurr or RdOwnNoData enters as its home class. -/
  | d2hRead (b : Bay) (op : D2hRd) (tpa : LineAddr)
  /-- D2H_WRITE (R162): A D-bay WrCur, ItoMWr, WrInv, WOWrInv or WOWrInvF enters as WR_FULL or a partial write. -/
  | d2hWrite (b : Bay) (op : D2hWr) (tpa : LineAddr) (mask : BitVec 64)
  /-- CLFLUSH (R162): A D-bay CLFlush invalidates all copies and makes memory current. -/
  | clflush (b : Bay) (tpa : LineAddr)
  /-- DIRTYEVICT (R192): A D-bay DirtyEvict is served as a write-back after any pending snoop answer completes. -/
  | dirtyevict (b : Bay) (tpa : LineAddr)
  /-- CLEANEVICT (R163): A D-bay CleanEvict or CleanEvictNoData is taken as a clean-eviction notice. -/
  | cleanevict (b : Bay) (tpa : LineAddr) (noData : Bool)
  /-- CACHEFLUSHED (R162): A D-bay CacheFlushed is accepted with no directory change. -/
  | cacheflushed (b : Bay)
  /-- D2H_RSP (R191): A device's snoop response RspIHitI, RspIHitSE, RspSHitSE, RspIFwdM or RspSFwdM enters as a home event. -/
  | d2hRsp (b : Bay) (op : D2hRspOp) (line : LineAddr) (d : LineData) (poison : Bool)
  /-- GPF_PHASE2_REQUEST (R462): A host's GPF phase 2 request completes once its prior writes are on media or acknowledged. -/
  | gpfPhase2Request (b : Bay)
  /-- GPF_COMPLETE (R461): GPF run by the hub as host completes on a D bay. -/
  | gpfComplete (b : Bay)
  /-- GET_POISON_LIST (R271): A host's Get Poison List returns the ledger entries and marks within its decoded ranges. -/
  | getPoisonList (b : Bay)
  /-- INGRESS_GRANT (R233): A slice's ingress arbiter grants one request into HP0, where it joins its line's chain and is looked up. -/
  | ingressGrant (sl : Slice)
  /-- WAY_STALL_RESUME (R211): A way unlocks in a set where a request waited at HP9, and the request proceeds. -/
  | wayStallResume (sl : Slice)
  /-- WRITE_STAGING_DEQUEUE (R231): A staged RwD or VC4 message leaves staging: absorbed, or given a write-back or general bobbin. -/
  | writeStagingDequeue (sl : Slice)
  /-- DIRECTORY_READ_RETURN (R220): The directory entry returns, is decoded and filled, and the speculative read is held or discarded. -/
  | directoryReadReturn (line : LineAddr) (err : Bool)
  /-- MEDIA_READ_DATA (R186): A memory read completes in MRD, or speculative data returns, and DATA is sent. -/
  | mediaReadData (line : LineAddr) (err : Bool)
  /-- MEDIA_WRITE_COMPLETE (R188): A memory write completes in MWR and the completion or push follows. -/
  | mediaWriteComplete (line : LineAddr) (ok : Bool)
  /-- MEDIA_COMPLETION_TIMEOUT (R482): A media request ends by completion timeout, and the way is treated as unreachable. -/
  | mediaCompletionTimeout (way : Nat)
  /-- DIR_WRITEBACK_COMPLETE (R212): A directory entry's write-back completes and leaves the write-back buffer. -/
  | dirWritebackComplete (idx : Nat) (ok : Bool)
  /-- STARVATION_TIMEOUT (R239): A request's wait exceeds STARVE_LIMIT and it enters the starvation lane. -/
  | starvationTimeout (sl : Slice) (idx : Nat)
  /-- AUDIT_TIMEOUT (R247): A conserved book stays out of balance for 2,000 hc and is reported. -/
  | auditTimeout (q : Nat) (idx : Nat)
  /-- DEAD_LINK_TIMEOUT (R250): A host or device link stays out of DL_Active beyond LINK_TO_MS and the agent is declared dead. -/
  | deadLinkTimeout (b : Bay)
  /-- DEAD_SNOOP_TIMEOUT (R250): A snoop to a local agent stays unanswered beyond SNP_TO_MS and the agent is declared dead. -/
  | deadSnoopTimeout (b : Bay)
  /-- CACHE_SWEEP_END (R254): The cache sweep for a dead record ends after 262,144 hc. -/
  | cacheSweepEnd (rec : Nat)
  /-- RECLAIM_WALK_STEP (R254): An internal walk step runs in a 1 µs interval with no SCRUB_STEP run while a record is open. -/
  | reclaimWalkStep
  /-- DEAD_ALERT_EXPIRY (R251): The 1 ms of ALERT_N after a death ends. -/
  | deadAlertExpiry
  /-- TXN_TIMEOUT (R260): A transaction waits beyond TXN_TO_MS and ends by taking the missing message as given or poisoning. -/
  | txnTimeout (line : LineAddr)
  /-- QASSIGN (R275): A write of QCTL.QASSIGN assigns a queue's owner or unassigns it. -/
  | qassign (o : Origin) (v : Word)
  /-- SQ_TAIL_DOORBELL (R277): A doorbell unit with SQ_VALID sets the SQ tail, or stops the queue with DB_RANGE. -/
  | sqTailDoorbell (o : Origin) (q : Nat) (u : DbUnit)
  /-- CQ_HEAD_DOORBELL (R277): A doorbell unit with CQ_VALID sets the CQ head, or stops the queue. -/
  | cqHeadDoorbell (o : Origin) (q : Nat) (u : DbUnit)
  /-- SETUP_DOORBELL (R278): A SETUP unit configures a management queue's rings and enables it. -/
  | setupDoorbell (o : Origin) (q : Nat) (u : DbUnit)
  /-- DESCRIPTOR_PUSH (R279): A 64 B push places an SQ entry and advances the tail, or is refused. -/
  | descriptorPush (o : Origin) (q : Nat) (entry : BitVec 512)
  /-- ENTRY_ACCEPT (R283): The accept engine accepts an entry: it takes a token, writes the Scorebook record, advances ACCEPT_IDX and validates. -/
  | entryAccept (q : Nat) (entry : BitVec 512)
  /-- COPY (R286): Mover op COPY. -/
  | copy (t : OpStep)
  /-- FILL (R286): Mover op FILL repeats a pattern. -/
  | fill (t : OpStep)
  /-- COMPARE (R286): Mover op COMPARE reports the first differing offset. -/
  | compare (t : OpStep)
  /-- CRC32C (R286): Mover op CRC32C computes a seeded CRC. -/
  | crc32c (t : OpStep)
  /-- MOVER_STASH (R286): Mover op STASH writes lines with a consumer hint. -/
  | moverStash (t : OpStep)
  /-- ATOMIC_BATCH (R287): Mover op ATOMIC_BATCH issues atomic items in order and writes results. -/
  | atomicBatch (t : OpStep)
  /-- ADVISE_WILLNEED (R332): ADVISE WILLNEED prefetches the range's translations. -/
  | adviseWillneed (tok : Nat)
  /-- ADVISE_DONTNEED (R332): ADVISE DONTNEED invalidates the range for the queue's key. -/
  | adviseDontneed (tok : Nat)
  /-- ADVISE_HOT (R332): ADVISE HOT writes ADVISE records for the overlapping 2 MiB regions. -/
  | adviseHot (tok : Nat)
  /-- ADVISE_COLD (R332): ADVISE COLD zeroes the counter sets of overlapping regions. -/
  | adviseCold (tok : Nat)
  /-- MIGRATE (R333): MIGRATE takes a hold, invalidates the source and copies. -/
  | migrate (t : OpStep)
  /-- NOP (R288): Management command NOP completes. -/
  | nop (tok : Nat)
  /-- REACH_CREATE (R289): REACH_CREATE resolves a host range and issues a reach handle. -/
  | reachCreate (tok : Nat)
  /-- REACH_REVOKE (R291): REACH_REVOKE invalidates a handle and completes once its old tiles drain. -/
  | reachRevoke (tok : Nat)
  /-- QUEUE_CREATE (R288): QUEUE_CREATE configures and enables a work queue. -/
  | queueCreate (tok : Nat)
  /-- QUEUE_DESTROY (R298): QUEUE_DESTROY aborts undispatched ops and completes when the last retires. -/
  | queueDestroy (tok : Nat)
  /-- QUEUE_SET_PRIO (R237): QUEUE_SET_PRIO sets a queue's base priority. -/
  | queueSetPrio (tok : Nat)
  /-- XLT_BIND (R315): XLT_BIND creates a MIRROR binding. -/
  | xltBind (tok : Nat)
  /-- XLT_INVAL (R329): XLT_INVAL invalidates translations over a range. -/
  | xltInval (tok : Nat)
  /-- XLT_RESUME (R325): XLT_RESUME retries or fails a MIRROR fault. -/
  | xltResume (tok : Nat)
  /-- XLT_FRING (R319): XLT_FRING sets the bay's fault ring. -/
  | xltFring (tok : Nat)
  /-- XLT_UNBIND (R319): XLT_UNBIND removes a binding and invalidates its translations. -/
  | xltUnbind (tok : Nat)
  /-- OP_DISPATCH (R292): The op at the head of a group's dispatch queue takes a free stream of an enabled mover. -/
  | opDispatch (g : Fin 4)
  /-- TILE_COMPLETE (R293): A tile completes and the stream issues the next tile, up to 4 in flight. -/
  | tileComplete (tok : Nat) (tile : Nat)
  /-- OP_COMPLETION (R296): An op retires: its CQ entry is written, COMPLETE_IDX advances and its token frees. -/
  | opCompletion (tok : Nat) (cqOk : Bool)
  /-- MOVER_ENABLE (R301): A write of MOVnn.CTL.EN stops or restarts a mover taking new ops. -/
  | moverEnable (o : Origin) (m : Mover) (v : Word)
  /-- ATS_TRANSLATION_COMPLETION (R312): An ATS Translation Completion arrives and is installed, faulted or discarded by epoch. -/
  | atsTranslationCompletion (slot : Nat) (r : AtsResult)
  /-- MIRROR_WALK_READ (R316): A mirror table line returns during a walk. -/
  | mirrorWalkRead (slot : Nat)
  /-- PRG_RESPONSE (R324): A PRG Response frees the fault entry and replays the tile, or ends the op. -/
  | prgResponse (b : Bay) (idx : Nat) (c : PrgCode)
  /-- FAULT_TIMEOUT (R326): A fault gets no answer within FAULT_TO_MS and ends with XLT_FAULT. -/
  | faultTimeout (idx : Nat)
  /-- ATS_INVALIDATE_REQUEST (R329): A host's ATS Invalidate Request enters the invalidation engine. -/
  | atsInvalidateRequest (b : Bay) (glob : Bool) (pasid : Nat) (va : Nat) (log2 : Nat) (tag : Nat)
  /-- INVALIDATION_START (R330): The engine takes the next invalidation: INV_EPOCH advances and the µTLBs are cleared. -/
  | invalidationStart
  /-- INVALIDATION_SWEEP_END (R330): The L2 sweep ends after 2,048 sets. -/
  | invalidationSweepEnd
  /-- INVALIDATION_COMPLETE (R331): Matching host accesses have drained, so the invalidation completion is sent. -/
  | invalidationComplete
  /-- MIG_HOLD_EXPIRY (R333): A migration hold expires after MIG_HOLD_MS and is logged. -/
  | migHoldExpiry (idx : Nat)
  /-- ACN_DECAY_SWEEP (R335): Every 2^DECAY_LOG2 µs, every access-counter slot is halved. -/
  | acnDecaySweep
  /-- CMP_WRITE (R344): A write of a channel's comparand or settings arms it at the arm point. -/
  | cmpWrite (o : Origin) (c : Chan) (r : ChanReg) (v : Word)
  /-- CHANNEL_START (R347): CTL.START computes the next phase-aligned comparand or the PERIOD count. -/
  | channelStart (o : Origin) (c : Chan) (v : Word)
  /-- COMPARE_FIRE (R343): An armed channel reaches its comparand and fires, advancing C in AUTO. -/
  | compareFire (c : Chan)
  /-- PERIOD_WRAP (R348): A PERIOD channel's COUNT wraps to 0 and it fires. -/
  | periodWrap (c : Chan)
  /-- TASK_END (R360): A running task ends and restarts if PENDING is set. -/
  | taskEnd (t : Chan)
  /-- TASK_IRQ_CLEAR (R362): A W1C write to a TASK_IRQ bit ends a FW_IRQ run. -/
  | taskIrqClear (o : Origin) (hi : Bool) (v : Word)
  /-- SWFIRE (R356): A write of EVT.SWFIRE raises sources 88 to 95. -/
  | swfire (o : Origin) (v : Word)
  /-- TASK_WRITE (R361): A write of a task input's TASK binds its kind, or is refused while the task runs. -/
  | taskWrite (o : Origin) (t : Chan) (v : Word)
  /-- CAPTURE_EDGE (R351): A capture input sees its edge, stamps HTIME or records an overrun, and raises its source. -/
  | captureEdge (k : Slice)
  /-- SYNC_IN_PULSE (R355): A SYNC_IN rising edge leaves its filter and raises source 72. -/
  | syncInPulse
  /-- SYNC_OUT_PULSE_END (R354): SYNC_WIDTH hc after rising, SYNC_OUT goes low. -/
  | syncOutPulseEnd
  /-- COUNTER_CLEAR (R371): A write of CCTL.CLEAR sets a page's eight counts to zero. -/
  | counterClear (o : Origin) (page : Nat)
  /-- OVERFLOW_REPORT (R378): 1 to 64 hc after an overflow, it is reported to the CNT page and source 84 is raised. -/
  | overflowReport
  /-- DUMP_TICK (R373): HTIME reaches a dump period boundary and a tick reaches the COUNTER_DUMP task. -/
  | dumpTick
  /-- SAMPLING_ENABLE (R379): A write setting SMP.CFG.EN loads every slice LFSR from SEED. -/
  | samplingEnable (o : Origin) (v : Word)
  /-- MB_NOP (R412): Zhozha service NOP. -/
  | mbNop
  /-- HEALTH_DECLARE (R404): HEALTH_DECLARE starts the 60 s health window in SERVE. -/
  | healthDeclare
  /-- HEALTH_TIMER (R404): 60 s in SERVE or DRAIN after the declaration: BOOT_TRIES is cleared and any trial kept. -/
  | healthTimer
  /-- WDOG_KICK (R403): WDOG_KICK restarts the watchdog. -/
  | wdogKick
  /-- WDOG_HALF (R416): Half of WDOG_MS passes without a kick. -/
  | wdogHalf
  /-- WATCHDOG_EXPIRY (R403): WDOG_MS passes without a kick: LAST_FAIL becomes WATCHDOG and the hub resets. -/
  | watchdogExpiry
  /-- RELAY (R412): RELAY hands one MCTP or DOE message to Zhozha and returns the answer. -/
  | relay (len : Nat)
  /-- FW_STAGE (R393): FW_STAGE writes a chunk into an inactive slot. -/
  | fwStage (k : FwKind) (sl : Slot) (off : Nat) (len : Nat) (img : Image)
  /-- FW_ACTIVATE (R393): FW_ACTIVATE validates a staged slot and names it TRIAL. -/
  | fwActivate (k : FwKind) (sl : Slot)
  /-- POLICY_INSTALL (R399): POLICY_INSTALL writes a new owner policy slot. -/
  | policyInstall (p : Policy)
  /-- PROFILE_INSTALL (R412): PROFILE_INSTALL writes a new fabric profile slot. -/
  | profileInstall (p : Profile)
  /-- SVN_COMMIT (R401): SVN_COMMIT advances the fuse and counter floors to the running versions. -/
  | svnCommit
  /-- OVERLAY_READ (R394): OVERLAY_READ checks a Chakacon overlay chunk and writes it into management SRAM. -/
  | overlayRead (digestOk : Bool)
  /-- MC_READ (R412): MC_READ returns a monotonic counter. -/
  | mcRead (n : Nat)
  /-- MC_INCR (R400): MC_INCR increments one of MC3 to MC7. -/
  | mcIncr (n : Nat)
  /-- RESET_REQUEST (R412): RESET_REQUEST resets the hub with cause FIRMWARE. -/
  | resetRequest
  /-- LDG_INFO (R412): LDG_INFO returns the ledger head and export state. -/
  | ldgInfo (c : QCarrier)
  /-- LDG_READ (R412): LDG_READ returns 1 to 4 boot records with their checkpoints, or GONE. -/
  | ldgRead (c : QCarrier) (lseq : Nat) (count : Nat)
  /-- LDG_CERTS (R412): LDG_CERTS returns the certificate chain. -/
  | ldgCerts (c : QCarrier)
  /-- LDG_NONCE (R413): LDG_NONCE issues a fresh nonce. -/
  | ldgNonce (c : QCarrier)
  /-- LDG_ACK (R411): An owner-signed LDG_ACK advances EXPORTED_TO and may release a held record. -/
  | ldgAck (c : QCarrier) (sig : OwnerSig) (lseq : Nat)
  /-- BENCH_RELEASE (R405): BENCH_RELEASE clears BOOT_TRIES and resets the hub. -/
  | benchRelease (c : QCarrier) (sig : OwnerSig)
  /-- OWNER_CLAIM (R389): OWNER_CLAIM blows owner key slot 0 on an unowned part. -/
  | ownerClaim (c : QCarrier) (keyHash : Nat)
  /-- OWNER_REVOKE (R389): OWNER_REVOKE blows a revoke bit under another root key. -/
  | ownerRevoke (c : QCarrier) (sig : OwnerSig) (slot : Fin 4)
  /-- IMAGE_UPDATE (R412): IMAGE_UPDATE stages and activates an image in one command in BENCH. -/
  | imageUpdate (c : QCarrier) (k : FwKind) (img : Image)
  /-- BENCH_STATUS (R471): The ROM returns its BENCH reason, floor and Zhozha slot versions. -/
  | benchStatus (c : QCarrier)
  /-- SPDM_GET_VERSION (R398): SPDM GET_VERSION is answered. -/
  | spdmGetVersion (p : SpdmPort)
  /-- SPDM_GET_CAPABILITIES (R398): SPDM GET_CAPABILITIES is answered. -/
  | spdmGetCapabilities (p : SpdmPort)
  /-- SPDM_NEGOTIATE_ALGORITHMS (R398): SPDM NEGOTIATE_ALGORITHMS is answered. -/
  | spdmNegotiateAlgorithms (p : SpdmPort)
  /-- SPDM_GET_DIGESTS (R398): SPDM GET_DIGESTS is answered for slot 0. -/
  | spdmGetDigests (p : SpdmPort)
  /-- SPDM_GET_CERTIFICATE (R398): SPDM GET_CERTIFICATE returns the slot 0 chain. -/
  | spdmGetCertificate (p : SpdmPort) (slot : Nat) (off : Nat) (len : Nat)
  /-- SPDM_CHALLENGE (R398): SPDM CHALLENGE is signed with the alias or DeviceID key. -/
  | spdmChallenge (p : SpdmPort) (slot : Nat)
  /-- SPDM_GET_MEASUREMENTS (R398): SPDM GET_MEASUREMENTS returns the blocks of Table TRU-5. -/
  | spdmGetMeasurements (p : SpdmPort) (index : Nat) (sign : Bool)
  /-- SPDM_KEY_EXCHANGE (R398): SPDM KEY_EXCHANGE opens a session. -/
  | spdmKeyExchange (p : SpdmPort) (slot : Nat) (reqId : Nat)
  /-- SPDM_FINISH (R398): SPDM FINISH completes session setup. -/
  | spdmFinish (p : SpdmPort) (hmacOk : Bool)
  /-- SPDM_HEARTBEAT (R398): SPDM HEARTBEAT keeps a session alive. -/
  | spdmHeartbeat (p : SpdmPort)
  /-- SPDM_KEY_UPDATE (R398): SPDM KEY_UPDATE updates session keys. -/
  | spdmKeyUpdate (p : SpdmPort) (op : Nat)
  /-- SPDM_END_SESSION (R398): SPDM END_SESSION closes a session. -/
  | spdmEndSession (p : SpdmPort)
  /-- SPDM_VENDOR_DEFINED (R412): An SPDM VENDOR_DEFINED_REQUEST carries a Quinsor management command. -/
  | spdmVendorDefined (p : SpdmPort) (q : QCmd)
  /-- BATCH_START (R429): The keep store controller starts the highest-precedence pending batch. -/
  | batchStart
  /-- PHASE1_COMPLETE (R426): Data units are programmed and read back, and the BATCH_COMMIT is sent. -/
  | phase1Complete (fail : List KsDev)
  /-- BATCH_COMMITTED (R426): The BATCH_COMMIT is read back on every device and the effects waiting on it take place. -/
  | batchCommitted (fail : List KsDev)
  /-- SECTOR_ERASE_COMPLETE (R424): A sector erase completes and a new SECTOR record is programmed. -/
  | sectorEraseComplete (d : KsDev) (part : Nat) (e : EraseEnd)
  /-- DEVICE_PROBE (R432): Every 10 s a FAILED keep store device is probed and enters REBUILDING if it passes. -/
  | deviceProbe (d : KsDev) (pass : Bool)
  /-- KEP_PROBE (R432): A write of KEP.CTL.PROBE probes every FAILED device now. -/
  | kepProbe (o : Origin) (pass : List KsDev)
  /-- REBUILD_SECTOR_COPY (R432): One sector is copied to a rebuilding device; after the last, the device is HEALTHY. -/
  | rebuildSectorCopy (d : KsDev)
  /-- DAILY_READ_TIMER (R431): Every 24 h all committed log records are read and the mirrors repaired. -/
  | dailyReadTimer (bad : List (KsDev × Nat × Nat))
  /-- RD_SEQ_WRITE (R442): A write of SCB.RD_SEQ selects a ring record to show. -/
  | rdSeqWrite (o : Origin) (v : Nat)
  /-- DURABLE_FETCH (R443): A write of DUR_CTL.FETCH reads a durable-area record from the keep store. -/
  | durableFetch (o : Origin)
  /-- DURABLE_FETCH_DONE (R443): The durable fetch ends with DUR_REC and its valid and end flags. -/
  | durableFetchDone
  /-- MODE_REQ_SERVE (R447): MOD.CTL.REQ SERVE returns the hub from DRAIN or MAINTAIN, or is refused. -/
  | modeReqServe (o : Origin)
  /-- MODE_REQ_DRAIN (R447): MOD.CTL.REQ DRAIN enters DRAIN from SERVE outside BRACE, or is refused. -/
  | modeReqDrain (o : Origin)
  /-- MODE_REQ_MAINTAIN (R450): MOD.CTL.REQ MAINTAIN starts the MAINTAIN entry sequence when no granule is homed. -/
  | modeReqMaintain (o : Origin)
  /-- SERVE_OK_WRITE (R448): A write of MOD.CTL.SERVE_OK, with REQ 0, sets or clears SERVE_OK. -/
  | serveOkWrite (o : Origin) (v : Bool)
  /-- ENTER_SERVE (R447): Every condition holds in ASSEMBLE, so the hub enters SERVE and raises source 75. -/
  | enterServe
  /-- ENTER_MAINTAIN (R450): The RLC is empty, so the hub enters MAINTAIN. -/
  | enterMaintain
  /-- DOMAIN_REQ_ON (R459): DOMd_CTL.REQ ON returns a domain to ON, with power-up from OFF. -/
  | domainReqOn (o : Origin) (d : Domain)
  /-- DOMAIN_REQ_DRAINED (R459): DOMd_CTL.REQ DRAINED closes a domain, or is refused. -/
  | domainReqDrained (o : Origin) (d : Domain)
  /-- DOMAIN_REQ_OFF (R459): DOMd_CTL.REQ OFF closes and powers down a domain, or is refused. -/
  | domainReqOff (o : Origin) (d : Domain)
  /-- DOMAIN_DRAINED (R459): INFLIGHT reaches 0: the domain is DRAINED and its links are disabled or dropped. -/
  | domainDrained (d : Domain)
  /-- DOMAIN_OFF (R459): 2,000 hc after power-down begins, the domain reads OFF. -/
  | domainOff (d : Domain)
  /-- DOMAIN_POWER_UP (R459): After 20,000 hc of power-up, the domain is ON and its bays train. -/
  | domainPowerUp (d : Domain)
  /-- SEAL_PHASE_END (R461): A seal phase completes its work and the next phase starts. -/
  | sealPhaseEnd
  /-- SEAL_PHASE_DEADLINE (R461): A seal phase reaches its deadline, is cut off and voids the seal record. -/
  | sealPhaseDeadline
  /-- REFCLK_COUNT_DONE (R75): At the end of offsets 0 to 99 the REFCLK count against the on-die oscillator ends, and fuse sensing starts or the sequence holds at offset 0. -/
  | refclkCountDone (count : Nat)
  /-- RECOVERY_ENTRY (R39): A link enters Recovery and retrains without leaving DL_Active, counting RECOVERY_CNT and not counting as a link loss or media outage. -/
  | recoveryEntry (b : Bay)
  /-- FLIT_REPLAY (R39): The PCIe 6.x flit-mode link layer replays a flit, which is then delivered once and in order, and REPLAY_CNT counts. -/
  | flitReplay (r : FlitIn)
  /-- D2H_DATA (R192): A D-bay device sends the D2H Data of a write or DirtyEvict after GO_WritePull, and the hub writes it or discards it when the snoop answer already carried the data. -/
  | d2hData (b : Bay) (line : LineAddr) (d : LineData) (poison : Bool)
  /-- DYNAMIC_ADDRESS_ASSIGNMENT (R62): The I3C controller assigns the hub a dynamic address, which the hub takes as an I3C target. -/
  | dynamicAddressAssignment (addr : BitVec 7)
  /-- TEST_LOGIC_RESET (R66): TRST_N asserts, or TMS resets the TAP, and the test logic returns to reset. -/
  | testLogicReset
  /-- SPDM_CHUNK_SEND (R398): An SPDM CHUNK_SEND carrying part of a large request is received under the CHUNK capability. -/
  | spdmChunkSend (p : SpdmPort) (handle : Nat) (seq : Nat) (len : Nat) (last : Bool)
  /-- SPDM_CHUNK_GET (R398): An SPDM CHUNK_GET asks for the next part of a large response under the CHUNK capability. -/
  | spdmChunkGet (p : SpdmPort) (handle : Nat) (seq : Nat)
  /-- SPDM_GET_ENCAPSULATED_REQUEST (R398): An SPDM GET_ENCAPSULATED_REQUEST starts the encapsulated flow of mutual authentication. -/
  | spdmGetEncapsulatedRequest (p : SpdmPort)
  /-- SPDM_DELIVER_ENCAPSULATED_RESPONSE (R398): An SPDM DELIVER_ENCAPSULATED_RESPONSE carries the requester's answer in mutual authentication. -/
  | spdmDeliverEncapsulatedResponse (p : SpdmPort) (ok : Bool)
  deriving DecidableEq, Repr

end Sys2Proof
end

