-- ==== Sys2Proof/Config.lean ====
section
/-! DEFINITION. What the spec leaves open: free values, each an opaque constant that nothing can evaluate. -/

namespace Sys2Proof.Config

/-- A value of at most 64 bits the spec leaves open, drawn anew at each use by the counter of State (notes/assumptions). -/
opaque freeValue : Nat → BitVec 64

/-- The 64 bytes of a line whose content the spec leaves open. -/
opaque freeLine : Nat → LineData

/-- Set of the RLC that a line falls into (modulo 49,152). -/
opaque rlcSet : Nat → Nat

/-- Index of the ACN cache that a region falls into (modulo 2,048). -/
opaque acnIndex : Nat → Nat

/-- MAC of a keep store record, under a key derived from the sealing key (R421), from the record's bytes as a number. -/
opaque recordMac : Nat → BitVec 128

/-- The 32-bit identification register of the test access port (R66 gives no value). -/
opaque tapIdcode : BitVec 32

/-- What the boundary register captures: the levels of the sideband balls as the model holds them, in a cell order the spec
does not give, among balls whose levels no row gives, drawn anew at each use by the counter of State (R66). -/
opaque boundaryWord : List Bool → Nat → Nat

/-- SHA-384 of the ROM (Tables TRU-5, TRU-8). -/
opaque romDigest : BitVec 384

/-- SHA-384 of the alias public keys of a Zhozha image of a DIGEST and SVN (R396). -/
opaque aliasHash : Nat → Nat → BitVec 384

/-- A signature as a number, drawn anew at each use by the counter of State: under a key the spec does not give. -/
opaque signature : Nat → Nat

/-- The intermediate and DeviceID certificates of a part of a SERIAL (R397): their first byte, and the others. -/
opaque deviceCerts : Nat → BitVec 8 × List (BitVec 8)

/-- The alias certificate of a part of a SERIAL for a Zhozha image of a DIGEST and SVN (R396, R397). -/
opaque aliasCert : Nat → Nat → Nat → List (BitVec 8)

/-- The byte at an offset of the body of the firmware image of a DIGEST (R390, R394). -/
opaque imageByte : Nat → Nat → BitVec 8

/-- Bytes of the longest SPDM response that is not sent in chunks (R398 names CHUNK and no size). -/
opaque spdmTransfer : Nat

/-- CTExponent and MaxSPDMmsgSize of SPDM CAPABILITIES, which R398 does not give. -/
opaque spdmCtExponent : BitVec 8
opaque spdmMaxMsg : BitVec 32

/-- SHA-384 of the Quinsor root certificate (R397), which heads the chain that SPDM reports. -/
opaque rootHash : BitVec 384

end Sys2Proof.Config
end

