-- ==== Sys2Proof/Machine/Fields.lean ====
section
/-! DEFINITION. The register fields of every page, as the spec's register tables give them: byte offset of the
register (of the first of an array), lowest bit, width, access code, reset value and class, and for an array the
stride in bytes and the number of members. Fields whose table row says RSVD are left out: they read zero and take
no write (R7, R90). Where a table gives a reset value that is not a number (a pin, a fuse, a retained value), the
entry holds 0 (100 for WARN_C, the limit of KZ48-C, which fuse sensing sets to 105 for GRADE 1) and the register is
computed by Machine/Views.lean or set by the reset. -/

namespace Sys2Proof.Machine

/-- The access codes of Table SCP-3. -/
inductive Acc where
  | rw | ro | w1c | w1s | rc | wo
  deriving DecidableEq, Repr

/-- The classes of R9. -/
inductive Cls where
  | z | f | h | u
  deriving DecidableEq, Repr

/-- One field of a register (or of each member of an array of registers). -/
structure FieldDef where
  off    : Nat
  lo     : Nat
  width  : Nat
  acc    : Acc
  reset  : Nat
  cls    : Cls
  stride : Nat
  count  : Nat
  deriving DecidableEq, Repr

/-- Member i of an array field. -/
def FieldDef.nth (f : FieldDef) (i : Nat) : FieldDef :=
  { f with off := f.off + f.stride * i, stride := 0, count := 1 }

namespace Fld.GLB
def INFO_GRADE : FieldDef := ⟨0x100, 0, 2, .ro, 0, .h, 0, 1⟩
def SERIAL_LO : FieldDef := ⟨0x108, 0, 32, .ro, 0, .h, 0, 1⟩
def SERIAL_HI : FieldDef := ⟨0x10C, 0, 32, .ro, 0, .h, 0, 1⟩
end Fld.GLB

namespace Fld.BAY
def ROLECFG_ROLE : FieldDef := ⟨0x100, 0, 2, .rw, 0, .z, 0, 1⟩
def ROLECFG_QBOND : FieldDef := ⟨0x100, 2, 3, .rw, 0, .z, 0, 1⟩
def LINKCFG_LINK_EN : FieldDef := ⟨0x104, 0, 1, .rw, 1, .f, 0, 1⟩
def LINKCFG_LANE_MASK : FieldDef := ⟨0x104, 1, 4, .rw, 0, .f, 0, 1⟩
def LINKCFG_MIN_WIDTH : FieldDef := ⟨0x104, 5, 3, .rw, 0, .f, 0, 1⟩
def LINKCFG_MIN_RATE : FieldDef := ⟨0x104, 8, 4, .rw, 0, .f, 0, 1⟩
def LINKCFG_MAX_RATE : FieldDef := ⟨0x104, 12, 4, .rw, 5, .f, 0, 1⟩
def LINKCFG_FLAP_MAX : FieldDef := ⟨0x104, 16, 4, .rw, 8, .f, 0, 1⟩
def LSTAT_LSTATE : FieldDef := ⟨0x108, 0, 3, .ro, 0, .h, 0, 1⟩
def LSTAT_WIDTH : FieldDef := ⟨0x108, 3, 3, .ro, 7, .h, 0, 1⟩
def LSTAT_RATE : FieldDef := ⟨0x108, 6, 4, .ro, 0, .h, 0, 1⟩
def LSTAT_REVERSED : FieldDef := ⟨0x108, 10, 1, .ro, 0, .h, 0, 1⟩
def LSTAT_POL_INV : FieldDef := ⟨0x108, 11, 4, .ro, 0, .h, 0, 1⟩
def LSTAT_FLIT : FieldDef := ⟨0x108, 15, 1, .ro, 0, .h, 0, 1⟩
def LSTAT_CXL : FieldDef := ⟨0x108, 16, 1, .ro, 0, .h, 0, 1⟩
def LSTAT_TULLE : FieldDef := ⟨0x108, 17, 1, .ro, 0, .h, 0, 1⟩
def LSTAT_MEMBER : FieldDef := ⟨0x108, 18, 1, .ro, 0, .h, 0, 1⟩
def LSTAT_LEAD : FieldDef := ⟨0x108, 19, 6, .ro, 0, .h, 0, 1⟩
def CAUSE_CODE : FieldDef := ⟨0x10C, 0, 8, .ro, 0, .h, 0, 1⟩
def LANE_STATE : FieldDef := ⟨0x110, 0, 16, .ro, 0, .h, 0, 1⟩
def LANE_MAP : FieldDef := ⟨0x110, 16, 8, .ro, 0, .h, 0, 1⟩
def PEER_NODE : FieldDef := ⟨0x114, 0, 7, .ro, 0, .h, 0, 1⟩
def PEER_BAY : FieldDef := ⟨0x114, 7, 6, .ro, 0, .h, 0, 1⟩
def REPLAY_CNT : FieldDef := ⟨0x118, 0, 32, .rc, 0, .h, 0, 1⟩
def RECOVERY_CNT : FieldDef := ⟨0x11C, 0, 32, .rc, 0, .h, 0, 1⟩
def LINKDOWN_CNT : FieldDef := ⟨0x120, 0, 32, .rc, 0, .h, 0, 1⟩
def FEC_CORR_CNT : FieldDef := ⟨0x124, 0, 32, .rc, 0, .h, 0, 1⟩
def MODE_REJECT_CNT : FieldDef := ⟨0x128, 0, 32, .rc, 0, .h, 0, 1⟩
def DISCARD_CNT : FieldDef := ⟨0x12C, 0, 32, .rc, 0, .h, 0, 1⟩
def QRST_CNT : FieldDef := ⟨0x130, 0, 32, .rc, 0, .h, 0, 1⟩
end Fld.BAY

namespace Fld.CLK
def STAT_LOCKED : FieldDef := ⟨0x100, 0, 1, .ro, 0, .h, 0, 1⟩
def STAT_HOLDOVER : FieldDef := ⟨0x100, 1, 1, .ro, 0, .h, 0, 1⟩
def LOCK_RC : FieldDef := ⟨0x104, 0, 16, .ro, 0, .h, 0, 1⟩
def PREV_RESET_CAUSE : FieldDef := ⟨0x108, 0, 8, .ro, 0, .h, 0, 1⟩
def PREV_RESET_RAIL : FieldDef := ⟨0x108, 8, 3, .ro, 0, .h, 0, 1⟩
def LOSS_CNT : FieldDef := ⟨0x10C, 0, 32, .rc, 0, .h, 0, 1⟩
end Fld.CLK

namespace Fld.PIN
def IN_PFAIL_A_N : FieldDef := ⟨0x100, 0, 1, .ro, 0, .h, 0, 1⟩
def IN_PFAIL_B_N : FieldDef := ⟨0x100, 1, 1, .ro, 0, .h, 0, 1⟩
def IN_SYNC_IN : FieldDef := ⟨0x100, 2, 1, .ro, 0, .h, 0, 1⟩
def IN_BENCH_REQ_N : FieldDef := ⟨0x100, 3, 1, .ro, 0, .h, 0, 1⟩
def IN_QRST_N : FieldDef := ⟨0x100, 4, 12, .ro, 0, .h, 0, 1⟩
def IN_I3C_SCL : FieldDef := ⟨0x100, 16, 1, .ro, 0, .h, 0, 1⟩
def IN_I3C_SDA : FieldDef := ⟨0x100, 17, 1, .ro, 0, .h, 0, 1⟩
def MGMT_STATE : FieldDef := ⟨0x104, 0, 2, .ro, 0, .h, 0, 1⟩
def MGMT_RECOV_CNT : FieldDef := ⟨0x108, 0, 32, .rc, 0, .h, 0, 1⟩
def SYNC_OUT_EN : FieldDef := ⟨0x10C, 0, 1, .rw, 0, .f, 0, 1⟩
end Fld.PIN

namespace Fld.HDR
def ID_INDEX : FieldDef := ⟨0x000, 0, 9, .ro, 0, .h, 0, 1⟩
def ID_TYPE : FieldDef := ⟨0x000, 16, 8, .ro, 0, .h, 0, 1⟩
def ID_MAGIC : FieldDef := ⟨0x000, 24, 8, .ro, 0x51, .h, 0, 1⟩
def VERSION : FieldDef := ⟨0x004, 0, 32, .ro, 0x4b484b01, .h, 0, 1⟩
def CAP_LO : FieldDef := ⟨0x008, 0, 32, .ro, 0, .h, 0, 1⟩
def CAP_HI : FieldDef := ⟨0x00C, 0, 32, .ro, 0, .h, 0, 1⟩
def CTL_ROUTE_Z : FieldDef := ⟨0x010, 16, 1, .rw, 0, .z, 0, 1⟩
def CTL_ROUTE_F : FieldDef := ⟨0x010, 17, 1, .rw, 0, .f, 0, 1⟩
def CTL_ROUTE_ALERT : FieldDef := ⟨0x010, 18, 1, .rw, 0, .f, 0, 1⟩
def CTL_ROUTE_H : FieldDef := ⟨0x010, 19, 1, .rw, 0, .h, 0, 1⟩
def CTL_VECTOR : FieldDef := ⟨0x010, 21, 11, .rw, 0, .h, 0, 1⟩
def STAT_IRQ : FieldDef := ⟨0x014, 16, 1, .ro, 0, .h, 0, 1⟩
def STAT_ERR : FieldDef := ⟨0x014, 17, 1, .ro, 0, .h, 0, 1⟩
def ISTAT : FieldDef := ⟨0x018, 0, 32, .w1c, 0, .h, 0, 1⟩
def IEN : FieldDef := ⟨0x01C, 0, 32, .rw, 0, .h, 0, 1⟩
def IFORCE : FieldDef := ⟨0x020, 0, 32, .wo, 0, .h, 0, 1⟩
def LOCK_LEVEL : FieldDef := ⟨0x040, 0, 2, .rw, 0, .f, 0, 1⟩
def LOCK_STICKY : FieldDef := ⟨0x040, 2, 1, .w1s, 0, .f, 0, 1⟩
def OWNER_BAY : FieldDef := ⟨0x044, 0, 6, .rw, 0, .f, 0, 1⟩
def OWNER_VALID : FieldDef := ⟨0x044, 6, 1, .rw, 0, .f, 0, 1⟩
def OWNER_SHARED_RD : FieldDef := ⟨0x044, 7, 1, .rw, 1, .f, 0, 1⟩
def ERRLOG_A_VALID : FieldDef := ⟨0x024, 0, 1, .w1c, 0, .h, 0, 1⟩
def ERRLOG_A_MORE : FieldDef := ⟨0x024, 1, 1, .ro, 0, .h, 0, 1⟩
def ERRLOG_A_CODE : FieldDef := ⟨0x024, 8, 8, .ro, 0, .h, 0, 1⟩
def ERRLOG_A_CLASS : FieldDef := ⟨0x024, 16, 2, .ro, 0, .h, 0, 1⟩
def ERRLOG_A_ORIGIN : FieldDef := ⟨0x024, 18, 6, .ro, 0, .h, 0, 1⟩
def ERRLOG_B_COUNT : FieldDef := ⟨0x028, 0, 32, .ro, 0, .h, 0, 1⟩
def ERRLOG_C_ADDR_LO : FieldDef := ⟨0x02C, 0, 32, .ro, 0, .h, 0, 1⟩
def ERRLOG_D_TIME_LO : FieldDef := ⟨0x030, 0, 32, .ro, 0, .h, 0, 1⟩
def ERRLOG_E_TIME_HI : FieldDef := ⟨0x034, 0, 32, .ro, 0, .h, 0, 1⟩
def ERRLOG_F_ADDR_HI : FieldDef := ⟨0x038, 0, 20, .ro, 0, .h, 0, 1⟩
def ERRLOG_G_DETAIL : FieldDef := ⟨0x03C, 0, 32, .ro, 0, .h, 0, 1⟩
def CSEL_EVENT : FieldDef := ⟨0x080, 0, 10, .rw, 0, .h, 4, 8⟩
def CSEL_MODE : FieldDef := ⟨0x080, 10, 2, .rw, 0, .h, 4, 8⟩
def CSEL_OVF_IRQ : FieldDef := ⟨0x080, 12, 1, .rw, 0, .h, 4, 8⟩
def CSEL_OVF_FREEZE : FieldDef := ⟨0x080, 13, 1, .rw, 0, .h, 4, 8⟩
def CVAL_LO : FieldDef := ⟨0x0A0, 0, 32, .rw, 0, .h, 8, 8⟩
def CVAL_HI : FieldDef := ⟨0x0A4, 0, 16, .rw, 0, .h, 8, 8⟩
def CCTL_FREEZE : FieldDef := ⟨0x0E0, 0, 1, .rw, 0, .h, 0, 1⟩
def CCTL_CLEAR : FieldDef := ⟨0x0E0, 1, 1, .wo, 0, .h, 0, 1⟩
def CCTL_USER_EN : FieldDef := ⟨0x0E0, 2, 1, .rw, 0, .h, 0, 1⟩
def CCTL_USER_DENY : FieldDef := ⟨0x0E0, 3, 1, .rw, 0, .f, 0, 1⟩
def COVF : FieldDef := ⟨0x0E4, 0, 8, .w1c, 0, .h, 0, 1⟩
def CSTAT_FROZEN : FieldDef := ⟨0x0E8, 0, 1, .ro, 0, .h, 0, 1⟩
def CSTAT_OVF_FROZEN : FieldDef := ⟨0x0E8, 1, 1, .w1c, 0, .h, 0, 1⟩
end Fld.HDR

namespace Fld.PAG
def ACCERR_PAGE : FieldDef := ⟨0x100, 0, 14, .ro, 0, .h, 0, 1⟩
def ACCERR_OFFSET : FieldDef := ⟨0x100, 14, 12, .ro, 0, .h, 0, 1⟩
def ACCERR_WIN : FieldDef := ⟨0x100, 26, 2, .ro, 0, .h, 0, 1⟩
def ACCERR_WRITE : FieldDef := ⟨0x100, 28, 1, .ro, 0, .h, 0, 1⟩
def ACCERR_KIND : FieldDef := ⟨0x104, 0, 4, .ro, 0, .h, 0, 1⟩
def ACCERR_CLASS : FieldDef := ⟨0x104, 4, 2, .ro, 0, .h, 0, 1⟩
def ACCERR_ORIGIN : FieldDef := ⟨0x104, 6, 6, .ro, 0, .h, 0, 1⟩
def ACCERR_BE : FieldDef := ⟨0x104, 12, 8, .ro, 0, .h, 0, 1⟩
def ACCERR_VALID : FieldDef := ⟨0x104, 20, 1, .w1c, 0, .h, 0, 1⟩
def ACCERR_MORE : FieldDef := ⟨0x104, 21, 1, .ro, 0, .h, 0, 1⟩
def ACCERR_TIME_LO : FieldDef := ⟨0x108, 0, 32, .ro, 0, .h, 0, 1⟩
def ACCERR_TIME_HI : FieldDef := ⟨0x10C, 0, 32, .ro, 0, .h, 0, 1⟩
def ACCERR_CNT_LO : FieldDef := ⟨0x110, 0, 32, .rc, 0, .h, 0, 1⟩
def ACCERR_CNT_HI : FieldDef := ⟨0x114, 0, 32, .rc, 0, .h, 0, 1⟩
def KIND_SEEN : FieldDef := ⟨0x118, 0, 16, .w1c, 0, .h, 0, 1⟩
def ALERT_MAP : FieldDef := ⟨0x140, 0, 32, .ro, 0, .f, 4, 16⟩
def IRQ_MAP : FieldDef := ⟨0x180, 0, 32, .ro, 0, .h, 4, 16⟩
end Fld.PAG

namespace Fld.TUL
def NODE_ID : FieldDef := ⟨0x100, 0, 7, .ro, 0, .h, 0, 1⟩
def NODE_VALID : FieldDef := ⟨0x100, 7, 1, .ro, 0, .h, 0, 1⟩
def QUORUM_NEEDED : FieldDef := ⟨0x104, 0, 8, .ro, 0, .h, 0, 1⟩
def QUORUM_PRESENT : FieldDef := ⟨0x104, 8, 8, .ro, 0, .h, 0, 1⟩
def QUORUM_HELD : FieldDef := ⟨0x104, 16, 1, .ro, 0, .h, 0, 1⟩
def DIGEST_LO : FieldDef := ⟨0x108, 0, 32, .ro, 0, .h, 0, 1⟩
def DIGEST_HI : FieldDef := ⟨0x10C, 0, 32, .ro, 0, .h, 0, 1⟩
def PRESENT : FieldDef := ⟨0x110, 0, 32, .ro, 0, .h, 4, 4⟩
def DISAGREE_CODE : FieldDef := ⟨0x120, 0, 8, .ro, 0, .h, 0, 1⟩
def DISAGREE_NODE : FieldDef := ⟨0x120, 8, 7, .ro, 0, .h, 0, 1⟩
def DISAGREE_BAY : FieldDef := ⟨0x120, 15, 6, .ro, 0, .h, 0, 1⟩
def LINK_SEL_BAY : FieldDef := ⟨0x124, 0, 6, .rw, 0, .h, 0, 1⟩
def LINK_LEVEL : FieldDef := ⟨0x128, 0, 4, .ro, 0, .h, 0, 1⟩
def LINK_ADMITTED : FieldDef := ⟨0x128, 4, 1, .ro, 0, .h, 0, 1⟩
def LINK_COST : FieldDef := ⟨0x128, 5, 9, .ro, 0, .h, 0, 1⟩
def CRED_VC_ADVERTISED : FieldDef := ⟨0x130, 0, 12, .ro, 0, .h, 4, 8⟩
def CRED_VC_AVAILABLE : FieldDef := ⟨0x130, 16, 12, .ro, 0, .h, 4, 8⟩
def DROP_CNT : FieldDef := ⟨0x150, 0, 32, .rc, 0, .h, 0, 1⟩
def DUP_CNT : FieldDef := ⟨0x154, 0, 32, .rc, 0, .h, 0, 1⟩
end Fld.TUL

namespace Fld.HMAP
def EPOCH_LO : FieldDef := ⟨0x100, 0, 32, .ro, 0, .h, 0, 1⟩
def EPOCH_HI : FieldDef := ⟨0x104, 0, 32, .ro, 0, .h, 0, 1⟩
def RD_INDEX : FieldDef := ⟨0x108, 0, 16, .rw, 0, .h, 0, 1⟩
def RD_ENTRY : FieldDef := ⟨0x10C, 0, 32, .ro, 0, .h, 0, 1⟩
def ST_INDEX : FieldDef := ⟨0x110, 0, 16, .rw, 0, .f, 0, 1⟩
def ST_ENTRY : FieldDef := ⟨0x114, 0, 32, .rw, 0, .f, 0, 1⟩
def ST_CTL_RESTAGE : FieldDef := ⟨0x118, 0, 1, .wo, 0, .f, 0, 1⟩
def ST_CTL_PROPOSE : FieldDef := ⟨0x118, 1, 1, .wo, 0, .f, 0, 1⟩
def PROP_STAT_STATE : FieldDef := ⟨0x11C, 0, 2, .ro, 0, .f, 0, 1⟩
def PROP_STAT_CAUSE : FieldDef := ⟨0x11C, 2, 8, .ro, 0, .f, 0, 1⟩
def LOCAL_COUNT : FieldDef := ⟨0x120, 0, 14, .ro, 0, .h, 0, 1⟩
def LATE_CNT : FieldDef := ⟨0x124, 0, 32, .rc, 0, .h, 0, 1⟩
end Fld.HMAP

namespace Fld.TIME
def FTIME_LO : FieldDef := ⟨0x100, 0, 32, .ro, 0, .h, 0, 1⟩
def FTIME_HI : FieldDef := ⟨0x104, 0, 32, .ro, 0, .h, 0, 1⟩
def OFFSET_LO : FieldDef := ⟨0x108, 0, 32, .ro, 0, .h, 0, 1⟩
def OFFSET_HI : FieldDef := ⟨0x10C, 0, 32, .ro, 0, .h, 0, 1⟩
def ROOT_NODE : FieldDef := ⟨0x110, 0, 7, .ro, 0, .h, 0, 1⟩
def ROOT_SELF : FieldDef := ⟨0x110, 7, 1, .ro, 0, .h, 0, 1⟩
def ROOT_PARENT : FieldDef := ⟨0x110, 8, 7, .ro, 0, .h, 0, 1⟩
def STAT_SYNCED : FieldDef := ⟨0x114, 0, 1, .ro, 0, .h, 0, 1⟩
def STAT_TIME_SUSPECT : FieldDef := ⟨0x114, 1, 1, .ro, 0, .h, 0, 1⟩
def STAT_FENCED : FieldDef := ⟨0x114, 2, 1, .ro, 0, .h, 0, 1⟩
def STAT_NO_ROOT : FieldDef := ⟨0x114, 3, 1, .ro, 0, .h, 0, 1⟩
def THETA : FieldDef := ⟨0x118, 0, 32, .ro, 0, .h, 0, 1⟩
end Fld.TIME

namespace Fld.COH
def CFG_STASH_EN : FieldDef := ⟨0x100, 0, 1, .rw, 1, .f, 0, 1⟩
def CFG_FWD_DISABLE : FieldDef := ⟨0x100, 1, 1, .rw, 0, .f, 0, 1⟩
def CFG_ATOM_FORCE : FieldDef := ⟨0x100, 2, 2, .rw, 0, .f, 0, 1⟩
def CFG_PRED_CLEAR : FieldDef := ⟨0x100, 4, 1, .wo, 0, .f, 0, 1⟩
def SNP_SENT : FieldDef := ⟨0x104, 0, 32, .rc, 0, .h, 0, 1⟩
def SNP_STALE : FieldDef := ⟨0x108, 0, 32, .rc, 0, .h, 0, 1⟩
def BCAST_CNT : FieldDef := ⟨0x10C, 0, 32, .rc, 0, .h, 0, 1⟩
def FWD_CNT : FieldDef := ⟨0x110, 0, 32, .rc, 0, .h, 0, 1⟩
def STASH_PUSH_CNT : FieldDef := ⟨0x114, 0, 32, .rc, 0, .h, 0, 1⟩
def STASH_DECLINE_CNT : FieldDef := ⟨0x118, 0, 32, .rc, 0, .h, 0, 1⟩
def STASH_SKIP_CNT : FieldDef := ⟨0x11C, 0, 32, .rc, 0, .h, 0, 1⟩
def ATOM_NEAR_CNT : FieldDef := ⟨0x120, 0, 32, .rc, 0, .h, 0, 1⟩
def ATOM_FAR_CNT : FieldDef := ⟨0x124, 0, 32, .rc, 0, .h, 0, 1⟩
def PRED_FLIP_CNT : FieldDef := ⟨0x128, 0, 32, .rc, 0, .h, 0, 1⟩
def PROTO_ERR_CNT : FieldDef := ⟨0x12C, 0, 32, .rc, 0, .h, 0, 1⟩
end Fld.COH

namespace Fld.PRK
def CFG_SPEC_EN : FieldDef := ⟨0x100, 0, 1, .rw, 1, .f, 0, 1⟩
def CFG_SCRUB_EN : FieldDef := ⟨0x100, 1, 1, .rw, 0, .f, 0, 1⟩
def CFG_SPEC_CREDIT_MIN : FieldDef := ⟨0x100, 2, 4, .rw, 4, .f, 0, 1⟩
def CTL_FORMAT : FieldDef := ⟨0x104, 0, 1, .wo, 0, .z, 0, 1⟩
def CTL_FLUSH : FieldDef := ⟨0x104, 1, 1, .wo, 0, .f, 0, 1⟩
def STAT_FORMAT_BUSY : FieldDef := ⟨0x108, 0, 1, .ro, 0, .h, 0, 1⟩
def STAT_FLUSH_BUSY : FieldDef := ⟨0x108, 1, 1, .ro, 0, .h, 0, 1⟩
def BGEN : FieldDef := ⟨0x10C, 0, 12, .rw, 0, .z, 0, 1⟩
def LOCAL_PROV : FieldDef := ⟨0x110, 0, 14, .rw, 0, .z, 0, 1⟩
def MEDIA_WAYS : FieldDef := ⟨0x114, 0, 3, .rw, 0, .z, 0, 1⟩
def MEDIA_GRAN : FieldDef := ⟨0x114, 3, 3, .rw, 0, .z, 0, 1⟩
def MEDIA_WAY : FieldDef := ⟨0x118, 0, 6, .rw, 0, .z, 4, 16⟩
def SCRUB_BATCH : FieldDef := ⟨0x158, 0, 8, .rw, 0x40, .f, 0, 1⟩
def SPEC_INFLIGHT : FieldDef := ⟨0x160, 0, 11, .ro, 0, .h, 0, 1⟩
def LOOKUP_HIT_CNT : FieldDef := ⟨0x164, 0, 32, .rc, 0, .h, 0, 1⟩
def LOOKUP_MISS_CNT : FieldDef := ⟨0x168, 0, 32, .rc, 0, .h, 0, 1⟩
def SPEC_ISSUE_CNT : FieldDef := ⟨0x16C, 0, 32, .rc, 0, .h, 0, 1⟩
def SPEC_USE_CNT : FieldDef := ⟨0x170, 0, 32, .rc, 0, .h, 0, 1⟩
def SPEC_DISCARD_CNT : FieldDef := ⟨0x174, 0, 32, .rc, 0, .h, 0, 1⟩
def SPEC_POISON_DROP_CNT : FieldDef := ⟨0x178, 0, 32, .rc, 0, .h, 0, 1⟩
def SPEC_SUPPRESS_CNT : FieldDef := ⟨0x17C, 0, 32, .rc, 0, .h, 0, 1⟩
def SPEC_FULL_HC_LO : FieldDef := ⟨0x180, 0, 32, .rc, 0, .h, 0, 1⟩
def SPEC_FULL_HC_HI : FieldDef := ⟨0x184, 0, 32, .rc, 0, .h, 0, 1⟩
def ENTRY_WB_CNT : FieldDef := ⟨0x188, 0, 32, .rc, 0, .h, 0, 1⟩
def WAY_STALL_CNT : FieldDef := ⟨0x18C, 0, 32, .rc, 0, .h, 0, 1⟩
def OVF_ENTER_CNT : FieldDef := ⟨0x190, 0, 32, .rc, 0, .h, 0, 1⟩
def REBUILD_CNT : FieldDef := ⟨0x194, 0, 32, .rc, 0, .h, 0, 1⟩
def SCRUB_POS_LO : FieldDef := ⟨0x198, 0, 32, .ro, 0, .h, 0, 1⟩
def SCRUB_POS_HI : FieldDef := ⟨0x19C, 0, 32, .ro, 0, .h, 0, 1⟩
end Fld.PRK

namespace Fld.BOB
def CFG_AGE_SHIFT : FieldDef := ⟨0x100, 0, 5, .rw, 0xb, .f, 0, 1⟩
def CFG_STARVE_US : FieldDef := ⟨0x100, 5, 12, .rw, 0x40, .f, 0, 1⟩
def CFG_AUDIT_EN : FieldDef := ⟨0x100, 17, 1, .rw, 1, .f, 0, 1⟩
def PRI_H : FieldDef := ⟨0x104, 0, 3, .rw, 3, .f, 0, 1⟩
def PRI_D : FieldDef := ⟨0x104, 3, 3, .rw, 3, .f, 0, 1⟩
def PRI_WB : FieldDef := ⟨0x104, 6, 3, .rw, 7, .f, 0, 1⟩
def PRI_SNP : FieldDef := ⟨0x104, 9, 3, .rw, 7, .f, 0, 1⟩
def PRI_MGT : FieldDef := ⟨0x104, 12, 3, .rw, 6, .f, 0, 1⟩
def OUT_MAX : FieldDef := ⟨0x108, 0, 9, .rw, 0x100, .f, 0, 1⟩
def SLICE_SEL : FieldDef := ⟨0x10C, 0, 3, .rw, 0, .h, 0, 1⟩
def SLICE_STAT_FREE_GEN : FieldDef := ⟨0x110, 0, 9, .ro, 0x1c0, .h, 0, 1⟩
def SLICE_STAT_FREE_WB : FieldDef := ⟨0x110, 9, 6, .ro, 0x20, .h, 0, 1⟩
def SLICE_STAT_FREE_SNP : FieldDef := ⟨0x110, 15, 5, .ro, 0x10, .h, 0, 1⟩
def SLICE_STAT_FREE_MGT : FieldDef := ⟨0x110, 20, 5, .ro, 0x10, .h, 0, 1⟩
def SLICE_STAT_AT_BOUND : FieldDef := ⟨0x110, 25, 1, .ro, 0, .h, 0, 1⟩
def SLICE_OUT_HELD : FieldDef := ⟨0x114, 0, 9, .ro, 0, .h, 0, 1⟩
def SLICE_OUT_LANE : FieldDef := ⟨0x114, 9, 10, .ro, 0, .h, 0, 1⟩
def BOUND_HC_LO : FieldDef := ⟨0x118, 0, 32, .rc, 0, .h, 0, 1⟩
def BOUND_HC_HI : FieldDef := ⟨0x11C, 0, 32, .rc, 0, .h, 0, 1⟩
def WBP_FULL_HC : FieldDef := ⟨0x120, 0, 32, .rc, 0, .h, 0, 1⟩
def SNP_FULL_HC : FieldDef := ⟨0x124, 0, 32, .rc, 0, .h, 0, 1⟩
def MGT_FULL_HC : FieldDef := ⟨0x128, 0, 32, .rc, 0, .h, 0, 1⟩
def OUT_CAP_HC : FieldDef := ⟨0x12C, 0, 32, .rc, 0, .h, 0, 1⟩
def STARVE_CNT : FieldDef := ⟨0x130, 0, 32, .rc, 0, .h, 0, 1⟩
def AGE_SAT_CNT : FieldDef := ⟨0x134, 0, 32, .rc, 0, .h, 0, 1⟩
def AUDIT_STAT : FieldDef := ⟨0x138, 0, 7, .w1c, 0, .h, 0, 1⟩
def AUDIT_FIRST_QTY : FieldDef := ⟨0x13C, 0, 4, .ro, 0, .h, 0, 1⟩
def AUDIT_FIRST_INDEX : FieldDef := ⟨0x13C, 4, 20, .ro, 0, .h, 0, 1⟩
def AUDIT_TIME_LO : FieldDef := ⟨0x140, 0, 32, .ro, 0, .h, 0, 1⟩
def AUDIT_TIME_HI : FieldDef := ⟨0x144, 0, 32, .ro, 0, .h, 0, 1⟩
def PEEK_SEL : FieldDef := ⟨0x148, 0, 12, .rw, 0, .h, 0, 1⟩
def PEEK_PHASE : FieldDef := ⟨0x14C, 0, 2, .ro, 0, .h, 0, 1⟩
def PEEK_HEAD : FieldDef := ⟨0x14C, 2, 1, .ro, 0, .h, 0, 1⟩
def PEEK_PRIO : FieldDef := ⟨0x14C, 3, 3, .ro, 0, .h, 0, 1⟩
def PEEK_REMOTE : FieldDef := ⟨0x14C, 6, 1, .ro, 0, .h, 0, 1⟩
def PEEK_ADDR_LO : FieldDef := ⟨0x150, 0, 32, .ro, 0, .h, 0, 1⟩
def PEEK_ADDR_HI : FieldDef := ⟨0x154, 0, 20, .ro, 0, .h, 0, 1⟩
end Fld.BOB

namespace Fld.DED
def CFG_SNP_TO_MS : FieldDef := ⟨0x100, 0, 8, .rw, 4, .f, 0, 1⟩
def CFG_LINK_TO_MS : FieldDef := ⟨0x100, 8, 8, .rw, 0xa, .f, 0, 1⟩
def CFG_TXN_TO_MS : FieldDef := ⟨0x100, 16, 8, .rw, 0x10, .f, 0, 1⟩
def CFG_RECLAIM_BATCH : FieldDef := ⟨0x100, 24, 8, .rw, 0xff, .f, 0, 1⟩
def OPEN : FieldDef := ⟨0x104, 0, 9, .ro, 0, .h, 0, 1⟩
def REC_SEL : FieldDef := ⟨0x108, 0, 8, .rw, 0, .h, 0, 1⟩
def REC_AGENT : FieldDef := ⟨0x10C, 0, 13, .ro, 0, .h, 0, 1⟩
def REC_CAUSE : FieldDef := ⟨0x10C, 13, 4, .ro, 0, .h, 0, 1⟩
def REC_STATE : FieldDef := ⟨0x10C, 17, 2, .ro, 0, .h, 0, 1⟩
def REC_EPOCH_LO : FieldDef := ⟨0x110, 0, 32, .ro, 0, .h, 0, 1⟩
def REC_EPOCH_HI : FieldDef := ⟨0x114, 0, 32, .ro, 0, .h, 0, 1⟩
def REC_TIME_LO : FieldDef := ⟨0x118, 0, 32, .ro, 0, .h, 0, 1⟩
def REC_TIME_HI : FieldDef := ⟨0x11C, 0, 32, .ro, 0, .h, 0, 1⟩
def DEAD_CNT : FieldDef := ⟨0x124, 0, 32, .rc, 0, .h, 0, 1⟩
def DROP_CNT : FieldDef := ⟨0x128, 0, 32, .rc, 0, .h, 0, 1⟩
def POISON_CNT : FieldDef := ⟨0x12C, 0, 32, .rc, 0, .h, 0, 1⟩
def LATE_MSG_CNT : FieldDef := ⟨0x130, 0, 32, .rc, 0, .h, 0, 1⟩
def TXN_TO_CNT : FieldDef := ⟨0x134, 0, 32, .rc, 0, .h, 0, 1⟩
def REC_WALK_START_LO : FieldDef := ⟨0x138, 0, 32, .ro, 0, .h, 0, 1⟩
def REC_WALK_START_HI : FieldDef := ⟨0x13C, 0, 32, .ro, 0, .h, 0, 1⟩
end Fld.DED

namespace Fld.PSN
def STAT_ENTRIES : FieldDef := ⟨0x100, 0, 17, .ro, 0, .h, 0, 1⟩
def STAT_PENDING : FieldDef := ⟨0x100, 17, 8, .ro, 0, .h, 0, 1⟩
def MARKS : FieldDef := ⟨0x104, 0, 17, .ro, 0, .h, 0, 1⟩
def RD_INDEX : FieldDef := ⟨0x108, 0, 16, .rw, 0, .h, 0, 1⟩
def RD_ENTRY : FieldDef := ⟨0x10C, 0, 32, .ro, 0, .h, 4, 4⟩
def NEW_CNT : FieldDef := ⟨0x11C, 0, 32, .rc, 0, .h, 0, 1⟩
def CLEAR_CNT : FieldDef := ⟨0x120, 0, 32, .rc, 0, .h, 0, 1⟩
def MARK_CNT : FieldDef := ⟨0x124, 0, 32, .rc, 0, .h, 0, 1⟩
def CONSUME_CNT : FieldDef := ⟨0x128, 0, 32, .rc, 0, .h, 0, 1⟩
end Fld.PSN

namespace Fld.QCTL
def QSEL : FieldDef := ⟨0x100, 0, 14, .rw, 0, .h, 0, 1⟩
def QASSIGN_OWNER_BAY : FieldDef := ⟨0x104, 0, 6, .rw, 0, .f, 0, 1⟩
def QASSIGN_OWNER_INT : FieldDef := ⟨0x104, 6, 1, .rw, 0, .f, 0, 1⟩
def QASSIGN_ASSIGNED : FieldDef := ⟨0x104, 7, 1, .rw, 0, .f, 0, 1⟩
def QSTATE_STATE : FieldDef := ⟨0x108, 0, 3, .ro, 0, .h, 0, 1⟩
def QSTATE_CAUSE : FieldDef := ⟨0x108, 3, 8, .ro, 0, .h, 0, 1⟩
def QSTATE_PRIO : FieldDef := ⟨0x108, 11, 3, .ro, 0, .h, 0, 1⟩
def QSTATE_XLT : FieldDef := ⟨0x108, 14, 1, .ro, 0, .h, 0, 1⟩
def QSTATE_GROUP : FieldDef := ⟨0x108, 15, 2, .ro, 0, .h, 0, 1⟩
def QSTATE_SQ_LOG2 : FieldDef := ⟨0x108, 17, 5, .ro, 0, .h, 0, 1⟩
def QSTATE_CQ_LOG2 : FieldDef := ⟨0x108, 22, 5, .ro, 0, .h, 0, 1⟩
def QCTX : FieldDef := ⟨0x10C, 0, 16, .ro, 0, .f, 0, 1⟩
def QPASID : FieldDef := ⟨0x110, 0, 20, .ro, 0, .h, 0, 1⟩
def ACCEPT_IDX : FieldDef := ⟨0x114, 0, 32, .ro, 0, .h, 0, 1⟩
def COMPLETE_IDX : FieldDef := ⟨0x118, 0, 32, .ro, 0, .h, 0, 1⟩
def SQ_TAIL : FieldDef := ⟨0x11C, 0, 32, .ro, 0, .h, 0, 1⟩
def CQ_HEAD : FieldDef := ⟨0x120, 0, 32, .ro, 0, .h, 0, 1⟩
def PUSHED : FieldDef := ⟨0x124, 0, 3, .ro, 0, .h, 0, 1⟩
def TOKENS_HELD : FieldDef := ⟨0x128, 0, 11, .ro, 0, .h, 0, 1⟩
def TOKEN_FULL_HC_LO : FieldDef := ⟨0x12C, 0, 32, .rc, 0, .h, 0, 1⟩
def TOKEN_FULL_HC_HI : FieldDef := ⟨0x130, 0, 32, .rc, 0, .h, 0, 1⟩
def ACCEPT_CNT : FieldDef := ⟨0x134, 0, 32, .rc, 0, .h, 0, 1⟩
def ERR_CPL_CNT : FieldDef := ⟨0x138, 0, 32, .rc, 0, .h, 0, 1⟩
def DB_ERR_CNT : FieldDef := ⟨0x13C, 0, 32, .rc, 0, .h, 0, 1⟩
def REACH_USED : FieldDef := ⟨0x140, 0, 17, .ro, 0, .h, 0, 1⟩
def REACH_SEL : FieldDef := ⟨0x144, 0, 16, .rw, 0, .f, 0, 1⟩
def REACH_ENTRY : FieldDef := ⟨0x148, 0, 32, .ro, 0, .f, 4, 4⟩
end Fld.QCTL

namespace Fld.MOV
def CTL_EN : FieldDef := ⟨0x100, 0, 1, .rw, 1, .f, 0, 1⟩
def STAT_GROUP : FieldDef := ⟨0x104, 0, 2, .ro, 0, .h, 0, 1⟩
def STAT_BUSY : FieldDef := ⟨0x104, 2, 8, .ro, 0, .h, 0, 1⟩
def STAT_STALL : FieldDef := ⟨0x104, 10, 8, .ro, 0, .h, 0, 1⟩
def STREAM_SEL : FieldDef := ⟨0x108, 0, 3, .rw, 0, .h, 0, 1⟩
def STREAM_Q : FieldDef := ⟨0x10C, 0, 14, .ro, 0, .h, 0, 1⟩
def STREAM_IDX : FieldDef := ⟨0x110, 0, 32, .ro, 0, .h, 0, 1⟩
def STREAM_DONE : FieldDef := ⟨0x114, 0, 32, .ro, 0, .h, 0, 1⟩
def OPS_CNT : FieldDef := ⟨0x118, 0, 32, .rc, 0, .h, 0, 1⟩
def BYTES_LO : FieldDef := ⟨0x11C, 0, 32, .rc, 0, .h, 0, 1⟩
def BYTES_HI : FieldDef := ⟨0x120, 0, 32, .rc, 0, .h, 0, 1⟩
def TILE_CNT : FieldDef := ⟨0x124, 0, 32, .rc, 0, .h, 0, 1⟩
def ERR_CNT : FieldDef := ⟨0x128, 0, 32, .rc, 0, .h, 0, 1⟩
end Fld.MOV

namespace Fld.XLT
def CFG_PF_EN : FieldDef := ⟨0x100, 0, 1, .rw, 1, .f, 0, 1⟩
def CFG_PF_DEPTH : FieldDef := ⟨0x100, 1, 3, .rw, 4, .f, 0, 1⟩
def CFG_FAULT_TO_MS : FieldDef := ⟨0x100, 4, 8, .rw, 0x64, .f, 0, 1⟩
def CFG_MIG_HOLD_MS : FieldDef := ⟨0x100, 12, 8, .rw, 0xa, .f, 0, 1⟩
def INV_EPOCH : FieldDef := ⟨0x104, 0, 32, .ro, 0, .h, 0, 1⟩
def STAT_FAULT_OUT : FieldDef := ⟨0x108, 0, 9, .ro, 0, .h, 0, 1⟩
def STAT_XLT_INFLIGHT : FieldDef := ⟨0x108, 9, 9, .ro, 0, .h, 0, 1⟩
def STAT_HOLDS : FieldDef := ⟨0x108, 18, 5, .ro, 0, .h, 0, 1⟩
def STAT_INV_BUSY : FieldDef := ⟨0x108, 23, 1, .ro, 0, .h, 0, 1⟩
def UTLB_MISS_CNT : FieldDef := ⟨0x10C, 0, 32, .rc, 0, .h, 0, 1⟩
def L2_HIT_CNT : FieldDef := ⟨0x110, 0, 32, .rc, 0, .h, 0, 1⟩
def L2_MISS_CNT : FieldDef := ⟨0x114, 0, 32, .rc, 0, .h, 0, 1⟩
def ATS_REQ_CNT : FieldDef := ⟨0x118, 0, 32, .rc, 0, .h, 0, 1⟩
def WALK_CNT : FieldDef := ⟨0x11C, 0, 32, .rc, 0, .h, 0, 1⟩
def PF_ISSUE_CNT : FieldDef := ⟨0x120, 0, 32, .rc, 0, .h, 0, 1⟩
def PF_USE_CNT : FieldDef := ⟨0x124, 0, 32, .rc, 0, .h, 0, 1⟩
def PF_CANCEL_CNT : FieldDef := ⟨0x128, 0, 32, .rc, 0, .h, 0, 1⟩
def FAULT_CNT : FieldDef := ⟨0x12C, 0, 32, .rc, 0, .h, 0, 1⟩
def FAULT_FAIL_CNT : FieldDef := ⟨0x130, 0, 32, .rc, 0, .h, 0, 1⟩
def LATE_RSP_CNT : FieldDef := ⟨0x134, 0, 32, .rc, 0, .h, 0, 1⟩
def INV_CNT : FieldDef := ⟨0x138, 0, 32, .rc, 0, .h, 0, 1⟩
def MIG_EXPIRE_CNT : FieldDef := ⟨0x13C, 0, 32, .rc, 0, .h, 0, 1⟩
def FAULT_FULL_HC_LO : FieldDef := ⟨0x140, 0, 32, .rc, 0, .h, 0, 1⟩
def FAULT_FULL_HC_HI : FieldDef := ⟨0x144, 0, 32, .rc, 0, .h, 0, 1⟩
def FSEL : FieldDef := ⟨0x148, 0, 8, .rw, 0, .h, 0, 1⟩
def FAULT_STATE : FieldDef := ⟨0x14C, 0, 2, .ro, 0, .h, 0, 1⟩
def FAULT_BAY : FieldDef := ⟨0x14C, 2, 6, .ro, 0, .h, 0, 1⟩
def FAULT_WRITE : FieldDef := ⟨0x14C, 8, 1, .ro, 0, .h, 0, 1⟩
def FAULT_PASID : FieldDef := ⟨0x150, 0, 20, .ro, 0, .h, 0, 1⟩
def FAULT_VA_LO : FieldDef := ⟨0x154, 0, 32, .ro, 0, .h, 0, 1⟩
def FAULT_VA_HI : FieldDef := ⟨0x158, 0, 32, .ro, 0, .h, 0, 1⟩
end Fld.XLT

namespace Fld.ACN
def CFG_EN : FieldDef := ⟨0x100, 0, 1, .rw, 0, .f, 0, 1⟩
def CFG_LOCAL : FieldDef := ⟨0x100, 1, 1, .rw, 0, .f, 0, 1⟩
def CFG_RING_INT : FieldDef := ⟨0x100, 2, 1, .rw, 0, .f, 0, 1⟩
def CFG_THRESH : FieldDef := ⟨0x100, 3, 8, .rw, 0xc0, .f, 0, 1⟩
def CFG_DECAY_LOG2 : FieldDef := ⟨0x100, 11, 5, .rw, 0xa, .f, 0, 1⟩
def CFG_RING_LOG2 : FieldDef := ⟨0x100, 16, 5, .rw, 0xa, .f, 0, 1⟩
def RING_BASE_LO : FieldDef := ⟨0x104, 0, 32, .rw, 0, .f, 0, 1⟩
def RING_BASE_HI : FieldDef := ⟨0x108, 0, 32, .rw, 0, .f, 0, 1⟩
def RING_TAIL : FieldDef := ⟨0x10C, 0, 32, .ro, 0, .h, 0, 1⟩
def RING_HEAD : FieldDef := ⟨0x110, 0, 32, .rw, 0, .h, 0, 1⟩
def HOT_CNT : FieldDef := ⟨0x114, 0, 32, .rc, 0, .h, 0, 1⟩
def EVICT_CNT : FieldDef := ⟨0x118, 0, 32, .rc, 0, .h, 0, 1⟩
def RING_DROP_CNT : FieldDef := ⟨0x11C, 0, 32, .rc, 0, .h, 0, 1⟩
def SETS_USED : FieldDef := ⟨0x120, 0, 15, .ro, 0, .h, 0, 1⟩
end Fld.ACN

namespace Fld.PIC
def HTIME_LO : FieldDef := ⟨0x100, 0, 32, .ro, 0, .h, 0, 1⟩
def HTIME_HI : FieldDef := ⟨0x104, 0, 32, .ro, 0, .h, 0, 1⟩
def STALE_US : FieldDef := ⟨0x108, 0, 32, .rw, 0xf4240, .f, 0, 1⟩
def SYNC_WIDTH : FieldDef := ⟨0x10C, 0, 32, .rw, 0x30d40, .f, 0, 1⟩
def LATE_CNT : FieldDef := ⟨0x110, 0, 32, .rc, 0, .h, 0, 1⟩
def STALE_CNT : FieldDef := ⟨0x114, 0, 32, .rc, 0, .h, 0, 1⟩
def SKIP_CNT : FieldDef := ⟨0x118, 0, 32, .rc, 0, .h, 0, 1⟩
def CAP_OVR_CNT : FieldDef := ⟨0x11C, 0, 32, .rc, 0, .h, 0, 1⟩
def CAP_LO : FieldDef := ⟨0x200, 0, 32, .ro, 0, .h, 16, 8⟩
def CAP_HI : FieldDef := ⟨0x204, 0, 32, .ro, 0, .h, 16, 8⟩
def CAP_CFG_SRC : FieldDef := ⟨0x208, 0, 8, .rw, 0, .f, 16, 8⟩
def CAP_CFG_EN : FieldDef := ⟨0x208, 8, 1, .rw, 0, .f, 16, 8⟩
def CAP_STAT_VALID : FieldDef := ⟨0x20C, 0, 1, .w1c, 0, .h, 16, 8⟩
def CAP_STAT_OVERRUN : FieldDef := ⟨0x20C, 1, 1, .w1c, 0, .h, 16, 8⟩
def CH_CMP_LO : FieldDef := ⟨0x400, 0, 32, .rw, 0, .f, 32, 64⟩
def CH_CMP_HI : FieldDef := ⟨0x404, 0, 32, .rw, 0, .f, 32, 64⟩
def CH_INTERVAL : FieldDef := ⟨0x408, 0, 32, .rw, 0, .f, 32, 64⟩
def CH_PHASE : FieldDef := ⟨0x40C, 0, 32, .rw, 0, .f, 32, 64⟩
def CH_CTL_MODE : FieldDef := ⟨0x410, 0, 2, .rw, 0, .f, 32, 64⟩
def CH_CTL_TB : FieldDef := ⟨0x410, 2, 1, .rw, 0, .f, 32, 64⟩
def CH_CTL_SKIP : FieldDef := ⟨0x410, 3, 1, .rw, 0, .f, 32, 64⟩
def CH_CTL_STALE_CHK : FieldDef := ⟨0x410, 4, 1, .rw, 0, .f, 32, 64⟩
def CH_CTL_START : FieldDef := ⟨0x410, 5, 1, .wo, 0, .f, 32, 64⟩
def CH_STAT_ARMED : FieldDef := ⟨0x414, 0, 1, .ro, 0, .h, 32, 64⟩
def CH_STAT_FIRED : FieldDef := ⟨0x414, 1, 1, .w1c, 0, .h, 32, 64⟩
def CH_STAT_LATE : FieldDef := ⟨0x414, 2, 1, .w1c, 0, .h, 32, 64⟩
def CH_STAT_WRAPLATE : FieldDef := ⟨0x414, 3, 1, .w1c, 0, .h, 32, 64⟩
def CH_STAT_STALE : FieldDef := ⟨0x414, 4, 1, .w1c, 0, .h, 32, 64⟩
def CH_COUNT : FieldDef := ⟨0x418, 0, 32, .ro, 0, .h, 32, 64⟩
def CH_FIRE_CNT : FieldDef := ⟨0x41C, 0, 32, .rc, 0, .h, 32, 64⟩
end Fld.PIC

namespace Fld.EVT
def TASK_IRQ_LO : FieldDef := ⟨0x100, 0, 32, .w1c, 0, .f, 0, 1⟩
def TASK_IRQ_HI : FieldDef := ⟨0x104, 0, 32, .w1c, 0, .f, 0, 1⟩
def SWFIRE : FieldDef := ⟨0x108, 0, 8, .wo, 0, .f, 0, 1⟩
def COALESCE_CNT : FieldDef := ⟨0x10C, 0, 32, .rc, 0, .h, 0, 1⟩
def OVERRUN_CNT : FieldDef := ⟨0x110, 0, 32, .rc, 0, .h, 0, 1⟩
def T_SRCMASK0 : FieldDef := ⟨0x200, 0, 32, .rw, 0, .f, 32, 64⟩
def T_SRCMASK1 : FieldDef := ⟨0x204, 0, 32, .rw, 0, .f, 32, 64⟩
def T_SRCMASK2 : FieldDef := ⟨0x208, 0, 32, .rw, 0, .f, 32, 64⟩
def T_SRCMASK3 : FieldDef := ⟨0x20C, 0, 32, .rw, 0, .f, 32, 64⟩
def T_TASK_KIND : FieldDef := ⟨0x210, 0, 4, .rw, 0, .f, 32, 64⟩
def T_TASK_ARG : FieldDef := ⟨0x210, 4, 4, .rw, 0, .f, 32, 64⟩
def T_TASK_EN : FieldDef := ⟨0x210, 8, 1, .rw, 0, .f, 32, 64⟩
def T_TSTAT_RUNNING : FieldDef := ⟨0x214, 0, 1, .ro, 0, .h, 32, 64⟩
def T_TSTAT_PENDING : FieldDef := ⟨0x214, 1, 1, .ro, 0, .h, 32, 64⟩
def T_TSTAT_COALESCED : FieldDef := ⟨0x214, 2, 1, .w1c, 0, .h, 32, 64⟩
def T_TSTAT_OVERRUN : FieldDef := ⟨0x214, 3, 1, .w1c, 0, .h, 32, 64⟩
def T_HITS : FieldDef := ⟨0x218, 0, 32, .rc, 0, .h, 32, 64⟩
def T_RUNS : FieldDef := ⟨0x21C, 0, 32, .rc, 0, .h, 32, 64⟩
end Fld.EVT

namespace Fld.CNT
def CTL_FREEZE_ALL : FieldDef := ⟨0x100, 0, 1, .rw, 0, .f, 0, 1⟩
def DUMP_CFG_EN : FieldDef := ⟨0x104, 0, 1, .rw, 0, .f, 0, 1⟩
def DUMP_CFG_K : FieldDef := ⟨0x104, 1, 5, .rw, 0xa, .f, 0, 1⟩
def DUMP_CFG_CLEAR : FieldDef := ⟨0x104, 6, 1, .rw, 0, .f, 0, 1⟩
def DUMP_CFG_RING_INT : FieldDef := ⟨0x104, 7, 1, .rw, 0, .f, 0, 1⟩
def DUMP_CFG_RING_LOG2 : FieldDef := ⟨0x104, 8, 5, .rw, 0xa, .f, 0, 1⟩
def DUMP_BASE_LO : FieldDef := ⟨0x108, 0, 32, .rw, 0, .f, 0, 1⟩
def DUMP_BASE_HI : FieldDef := ⟨0x10C, 0, 32, .rw, 0, .f, 0, 1⟩
def DUMP_TAIL : FieldDef := ⟨0x110, 0, 32, .ro, 0, .h, 0, 1⟩
def DUMP_HEAD : FieldDef := ⟨0x114, 0, 32, .rw, 0, .h, 0, 1⟩
def DUMP_SEQ : FieldDef := ⟨0x118, 0, 32, .ro, 0, .h, 0, 1⟩
def DUMP_DROP_CNT : FieldDef := ⟨0x11C, 0, 32, .rc, 0, .h, 0, 1⟩
def DUMP_NOTASK_CNT : FieldDef := ⟨0x120, 0, 32, .rc, 0, .h, 0, 1⟩
def OVF_TIME_LO : FieldDef := ⟨0x124, 0, 32, .ro, 0, .h, 0, 1⟩
def OVF_TIME_HI : FieldDef := ⟨0x128, 0, 32, .ro, 0, .h, 0, 1⟩
def DMASK : FieldDef := ⟨0x140, 0, 32, .rw, 0, .f, 4, 16⟩
def OVF_MAP : FieldDef := ⟨0x180, 0, 32, .w1c, 0, .h, 4, 16⟩
end Fld.CNT

namespace Fld.SMP
def CFG_EN : FieldDef := ⟨0x100, 0, 1, .rw, 0, .f, 0, 1⟩
def CFG_N : FieldDef := ⟨0x100, 1, 5, .rw, 0x10, .f, 0, 1⟩
def CFG_RING_INT : FieldDef := ⟨0x100, 6, 1, .rw, 0, .f, 0, 1⟩
def CFG_RING_LOG2 : FieldDef := ⟨0x100, 7, 5, .rw, 0xa, .f, 0, 1⟩
def CFG_REMOTE_EN : FieldDef := ⟨0x100, 12, 1, .rw, 1, .f, 0, 1⟩
def SEED : FieldDef := ⟨0x104, 0, 24, .rw, 1, .f, 0, 1⟩
def RING_BASE_LO : FieldDef := ⟨0x108, 0, 32, .rw, 0, .f, 0, 1⟩
def RING_BASE_HI : FieldDef := ⟨0x10C, 0, 32, .rw, 0, .f, 0, 1⟩
def RING_TAIL : FieldDef := ⟨0x110, 0, 32, .ro, 0, .h, 0, 1⟩
def RING_HEAD : FieldDef := ⟨0x114, 0, 32, .rw, 0, .h, 0, 1⟩
def TAG_CNT : FieldDef := ⟨0x118, 0, 32, .rc, 0, .h, 0, 1⟩
def DROP_CNT : FieldDef := ⟨0x11C, 0, 32, .rc, 0, .h, 0, 1⟩
def TRUNC_CNT : FieldDef := ⟨0x120, 0, 32, .rc, 0, .h, 0, 1⟩
def INFLIGHT : FieldDef := ⟨0x124, 0, 12, .ro, 0, .h, 0, 1⟩
end Fld.SMP

namespace Fld.TRU
def MB_CMD_CODE : FieldDef := ⟨0x100, 0, 8, .rw, 0, .f, 0, 1⟩
def MB_CMD_REQ_LEN : FieldDef := ⟨0x100, 16, 10, .rw, 0, .f, 0, 1⟩
def MB_GO : FieldDef := ⟨0x104, 0, 1, .wo, 0, .f, 0, 1⟩
def MB_STAT_BUSY : FieldDef := ⟨0x108, 0, 1, .ro, 0, .f, 0, 1⟩
def MB_STAT_STATUS : FieldDef := ⟨0x108, 1, 8, .ro, 0, .f, 0, 1⟩
def MB_STAT_RSP_LEN : FieldDef := ⟨0x108, 9, 10, .ro, 0, .f, 0, 1⟩
def MB_BUF_OFF : FieldDef := ⟨0x10C, 0, 24, .rw, 0, .f, 0, 1⟩
def MB_BUF_LEN : FieldDef := ⟨0x110, 0, 25, .rw, 0, .f, 0, 1⟩
def WDOG_LEFT : FieldDef := ⟨0x114, 0, 16, .ro, 0xffff, .h, 0, 1⟩
def MB_REQ : FieldDef := ⟨0x200, 0, 32, .rw, 0, .f, 4, 128⟩
def MB_RSP : FieldDef := ⟨0x400, 0, 32, .ro, 0, .f, 4, 128⟩
end Fld.TRU

namespace Fld.LDG
def LSEQ_LO : FieldDef := ⟨0x100, 0, 32, .ro, 0, .h, 0, 1⟩
def LSEQ_HI : FieldDef := ⟨0x104, 0, 32, .ro, 0, .h, 0, 1⟩
def EXPORTED_LO : FieldDef := ⟨0x108, 0, 32, .ro, 0, .h, 0, 1⟩
def EXPORTED_HI : FieldDef := ⟨0x10C, 0, 32, .ro, 0, .h, 0, 1⟩
def CP_LSEQ_LO : FieldDef := ⟨0x110, 0, 32, .ro, 0, .h, 0, 1⟩
def CP_LSEQ_HI : FieldDef := ⟨0x114, 0, 32, .ro, 0, .h, 0, 1⟩
def STAT_STRICT : FieldDef := ⟨0x118, 0, 1, .ro, 0, .h, 0, 1⟩
def STAT_NEAR_FULL : FieldDef := ⟨0x118, 1, 1, .ro, 0, .h, 0, 1⟩
def STAT_HELD : FieldDef := ⟨0x118, 2, 1, .ro, 0, .h, 0, 1⟩
def UNEXPORTED : FieldDef := ⟨0x11C, 0, 13, .ro, 0, .h, 0, 1⟩
def BOOT_TRIES : FieldDef := ⟨0x120, 0, 4, .ro, 0, .h, 0, 1⟩
def BOOT_LIMIT : FieldDef := ⟨0x120, 4, 3, .ro, 0, .h, 0, 1⟩
def BOOT_REASON : FieldDef := ⟨0x120, 7, 8, .ro, 0, .h, 0, 1⟩
def BOOT_ZH_SLOT : FieldDef := ⟨0x120, 15, 1, .ro, 0, .h, 0, 1⟩
def BOOT_CK_SLOT : FieldDef := ⟨0x120, 16, 1, .ro, 0, .h, 0, 1⟩
def BOOT_ZH_TRIAL : FieldDef := ⟨0x120, 17, 1, .ro, 0, .h, 0, 1⟩
def BOOT_CK_TRIAL : FieldDef := ⟨0x120, 18, 1, .ro, 0, .h, 0, 1⟩
def BOOT_HEALTH : FieldDef := ⟨0x120, 19, 1, .ro, 0, .h, 0, 1⟩
def ZH_SVN : FieldDef := ⟨0x124, 0, 32, .ro, 0, .h, 0, 1⟩
def CK_SVN : FieldDef := ⟨0x128, 0, 32, .ro, 0, .h, 0, 1⟩
def FLOOR : FieldDef := ⟨0x12C, 0, 7, .ro, 0, .h, 0, 1⟩
def OVERWRITE_CNT : FieldDef := ⟨0x130, 0, 32, .rc, 0, .h, 0, 1⟩
def HEAD : FieldDef := ⟨0x140, 0, 32, .ro, 0, .h, 4, 12⟩
end Fld.LDG

namespace Fld.KEP
def CTL_PROBE : FieldDef := ⟨0x100, 0, 1, .wo, 0, .z, 0, 1⟩
def DEV_STATE : FieldDef := ⟨0x104, 0, 2, .ro, 0, .h, 4, 2⟩
def DEV_CAUSE : FieldDef := ⟨0x104, 2, 8, .ro, 0, .h, 4, 2⟩
def DEV_SPARES : FieldDef := ⟨0x104, 10, 8, .ro, 0x86, .h, 4, 2⟩
def DEV_REBUILD_POS : FieldDef := ⟨0x104, 18, 10, .ro, 0, .h, 4, 2⟩
def PSEL : FieldDef := ⟨0x10C, 0, 3, .rw, 0, .h, 0, 1⟩
def ERASE_MAX : FieldDef := ⟨0x110, 0, 17, .ro, 0, .h, 0, 1⟩
def ERASE_MIN : FieldDef := ⟨0x114, 0, 17, .ro, 0, .h, 0, 1⟩
def FREE_SECT : FieldDef := ⟨0x118, 0, 8, .ro, 0, .h, 0, 1⟩
def ERASE_CNT : FieldDef := ⟨0x11C, 0, 32, .rc, 0, .h, 0, 1⟩
def PROG_RETRY_CNT : FieldDef := ⟨0x120, 0, 32, .rc, 0, .h, 0, 1⟩
def READ_ERR_CNT : FieldDef := ⟨0x124, 0, 32, .rc, 0, .h, 0, 1⟩
def MIRROR_FIX_CNT : FieldDef := ⟨0x128, 0, 32, .rc, 0, .h, 0, 1⟩
def BATCH_CNT : FieldDef := ⟨0x12C, 0, 32, .rc, 0, .h, 0, 1⟩
end Fld.KEP

namespace Fld.SCB
def NEXT_SEQ_LO : FieldDef := ⟨0x100, 0, 32, .ro, 1, .h, 0, 1⟩
def NEXT_SEQ_HI : FieldDef := ⟨0x104, 0, 32, .ro, 0, .h, 0, 1⟩
def OLDEST_SEQ_LO : FieldDef := ⟨0x108, 0, 32, .ro, 1, .h, 0, 1⟩
def OLDEST_SEQ_HI : FieldDef := ⟨0x10C, 0, 32, .ro, 0, .h, 0, 1⟩
def TAIL_SEQ_LO : FieldDef := ⟨0x110, 0, 32, .ro, 0, .h, 0, 1⟩
def TAIL_SEQ_HI : FieldDef := ⟨0x114, 0, 32, .ro, 0, .h, 0, 1⟩
def STAT_PEND_ACCEPT : FieldDef := ⟨0x118, 0, 3, .ro, 0, .h, 0, 1⟩
def STAT_PEND_DONE : FieldDef := ⟨0x118, 3, 9, .ro, 0, .h, 0, 1⟩
def STAT_RD_HIT : FieldDef := ⟨0x118, 12, 1, .ro, 0, .h, 0, 1⟩
def STAT_DUR_BUSY : FieldDef := ⟨0x118, 13, 1, .ro, 0, .h, 0, 1⟩
def STAT_DUR_VALID : FieldDef := ⟨0x118, 14, 1, .ro, 0, .h, 0, 1⟩
def STAT_DUR_END : FieldDef := ⟨0x118, 15, 1, .ro, 0, .h, 0, 1⟩
def RD_SEQ_LO : FieldDef := ⟨0x11C, 0, 32, .rw, 0, .h, 0, 1⟩
def RD_SEQ_HI : FieldDef := ⟨0x120, 0, 32, .rw, 0, .h, 0, 1⟩
def RD_REC : FieldDef := ⟨0x124, 0, 32, .ro, 0, .h, 4, 8⟩
def DUR_SEL : FieldDef := ⟨0x144, 0, 32, .rw, 0, .h, 0, 1⟩
def DUR_CTL_FETCH : FieldDef := ⟨0x148, 0, 1, .wo, 0, .h, 0, 1⟩
def DUR_COUNT : FieldDef := ⟨0x14C, 0, 32, .ro, 0, .h, 0, 1⟩
def TAIL_CNT : FieldDef := ⟨0x150, 0, 32, .rc, 0, .h, 0, 1⟩
def DUR_COMMIT_CNT : FieldDef := ⟨0x154, 0, 32, .rc, 0, .h, 0, 1⟩
def DUR_WAIT_HC_LO : FieldDef := ⟨0x158, 0, 32, .rc, 0, .h, 0, 1⟩
def DUR_WAIT_HC_HI : FieldDef := ⟨0x15C, 0, 32, .rc, 0, .h, 0, 1⟩
def DUR_REC : FieldDef := ⟨0x180, 0, 32, .ro, 0, .h, 4, 16⟩
end Fld.SCB

namespace Fld.MOD
def STAT_MODE : FieldDef := ⟨0x100, 0, 4, .ro, 1, .h, 0, 1⟩
def STAT_BRACE : FieldDef := ⟨0x100, 4, 1, .ro, 0, .h, 0, 1⟩
def STAT_BENCH_TIER : FieldDef := ⟨0x100, 5, 1, .ro, 0, .h, 0, 1⟩
def STAT_REASON : FieldDef := ⟨0x100, 6, 8, .ro, 0, .h, 0, 1⟩
def STAT_SEAL_CAUSE : FieldDef := ⟨0x100, 14, 2, .ro, 0, .h, 0, 1⟩
def STAT_SEAL_PHASE : FieldDef := ⟨0x100, 16, 3, .ro, 0, .h, 0, 1⟩
def STAT_DRAINED : FieldDef := ⟨0x100, 19, 1, .ro, 0, .h, 0, 1⟩
def CTL_REQ : FieldDef := ⟨0x104, 0, 3, .wo, 0, .f, 0, 1⟩
def CTL_SERVE_OK : FieldDef := ⟨0x104, 3, 1, .rw, 0, .f, 0, 1⟩
def REQ_STAT_OUTCOME : FieldDef := ⟨0x108, 0, 2, .ro, 0, .f, 0, 1⟩
def HO_GRAN : FieldDef := ⟨0x10C, 0, 16, .rw, 0, .f, 0, 1⟩
def HO_TARGET_NODE : FieldDef := ⟨0x110, 0, 7, .rw, 0, .f, 0, 1⟩
def HO_TARGET_LOCAL : FieldDef := ⟨0x110, 7, 13, .rw, 0, .f, 0, 1⟩
def HO_CTL_START : FieldDef := ⟨0x114, 0, 1, .wo, 0, .f, 0, 1⟩
def HO_CTL_FREEZE_MAX_US : FieldDef := ⟨0x114, 1, 12, .rw, 0x7d0, .f, 0, 1⟩
def HO_STAT_STATE : FieldDef := ⟨0x118, 0, 3, .ro, 0, .f, 0, 1⟩
def HO_STAT_CAUSE : FieldDef := ⟨0x118, 3, 8, .ro, 0, .f, 0, 1⟩
def HO_DONE_CNT : FieldDef := ⟨0x11C, 0, 32, .rc, 0, .h, 0, 1⟩
def HO_ABORT_CNT : FieldDef := ⟨0x120, 0, 32, .rc, 0, .h, 0, 1⟩
end Fld.MOD

namespace Fld.PWR
def RAIL_WARN : FieldDef := ⟨0x100, 0, 6, .ro, 0, .h, 0, 1⟩
def PFAIL_CFG_DISC_US : FieldDef := ⟨0x104, 0, 13, .rw, 0x32, .f, 0, 1⟩
def PFAIL_CFG_REINCLUDE_A : FieldDef := ⟨0x104, 13, 1, .wo, 0, .f, 0, 1⟩
def PFAIL_CFG_REINCLUDE_B : FieldDef := ⟨0x104, 14, 1, .wo, 0, .f, 0, 1⟩
def PFAIL_STAT_A : FieldDef := ⟨0x108, 0, 2, .ro, 0, .h, 0, 1⟩
def PFAIL_STAT_B : FieldDef := ⟨0x108, 2, 2, .ro, 0, .h, 0, 1⟩
def PFAIL_STAT_BOOT_EXCL : FieldDef := ⟨0x108, 4, 1, .ro, 0, .h, 0, 1⟩
def BRACE_LAST : FieldDef := ⟨0x10C, 0, 3, .ro, 0, .h, 0, 1⟩
def BRACE_CNT : FieldDef := ⟨0x110, 0, 32, .rc, 0, .h, 0, 1⟩
def BRACE_HC_LO : FieldDef := ⟨0x114, 0, 32, .rc, 0, .h, 0, 1⟩
def BRACE_HC_HI : FieldDef := ⟨0x118, 0, 32, .rc, 0, .h, 0, 1⟩
def PFAIL_GLITCH_CNT : FieldDef := ⟨0x11C, 0, 32, .rc, 0, .h, 0, 1⟩
def OFF_DROP_CNT : FieldDef := ⟨0x120, 0, 32, .rc, 0, .h, 0, 1⟩
def THERM_TEMP_MAX : FieldDef := ⟨0x124, 0, 8, .ro, 0, .h, 0, 1⟩
def THERM_WARN_C : FieldDef := ⟨0x124, 8, 8, .rw, 0x64, .f, 0, 1⟩
def THERM_THROTTLE : FieldDef := ⟨0x124, 16, 1, .ro, 0, .h, 0, 1⟩
def DOM_CTL_REQ : FieldDef := ⟨0x140, 0, 2, .rw, 0, .f, 4, 16⟩
def DOM_STAT_STATE : FieldDef := ⟨0x180, 0, 2, .ro, 0, .h, 4, 16⟩
def DOM_STAT_INFLIGHT : FieldDef := ⟨0x180, 2, 16, .ro, 0, .h, 4, 16⟩
end Fld.PWR

def fieldsHdr : List FieldDef :=
  [Fld.HDR.ID_INDEX, Fld.HDR.ID_TYPE, Fld.HDR.ID_MAGIC, Fld.HDR.VERSION, Fld.HDR.CAP_LO, Fld.HDR.CAP_HI,
   Fld.HDR.CTL_ROUTE_Z, Fld.HDR.CTL_ROUTE_F, Fld.HDR.CTL_ROUTE_ALERT, Fld.HDR.CTL_ROUTE_H,
   Fld.HDR.CTL_VECTOR, Fld.HDR.STAT_IRQ, Fld.HDR.STAT_ERR, Fld.HDR.ISTAT, Fld.HDR.IEN, Fld.HDR.IFORCE,
   Fld.HDR.LOCK_LEVEL, Fld.HDR.LOCK_STICKY, Fld.HDR.OWNER_BAY, Fld.HDR.OWNER_VALID, Fld.HDR.OWNER_SHARED_RD,
   Fld.HDR.ERRLOG_A_VALID, Fld.HDR.ERRLOG_A_MORE, Fld.HDR.ERRLOG_A_CODE, Fld.HDR.ERRLOG_A_CLASS,
   Fld.HDR.ERRLOG_A_ORIGIN, Fld.HDR.ERRLOG_B_COUNT, Fld.HDR.ERRLOG_C_ADDR_LO, Fld.HDR.ERRLOG_D_TIME_LO,
   Fld.HDR.ERRLOG_E_TIME_HI, Fld.HDR.ERRLOG_F_ADDR_HI, Fld.HDR.ERRLOG_G_DETAIL, Fld.HDR.CSEL_EVENT,
   Fld.HDR.CSEL_MODE, Fld.HDR.CSEL_OVF_IRQ, Fld.HDR.CSEL_OVF_FREEZE, Fld.HDR.CVAL_LO, Fld.HDR.CVAL_HI,
   Fld.HDR.CCTL_FREEZE, Fld.HDR.CCTL_CLEAR, Fld.HDR.CCTL_USER_EN, Fld.HDR.CCTL_USER_DENY, Fld.HDR.COVF,
   Fld.HDR.CSTAT_FROZEN, Fld.HDR.CSTAT_OVF_FROZEN]

def fieldsGlb : List FieldDef :=
  [Fld.GLB.INFO_GRADE, Fld.GLB.SERIAL_LO, Fld.GLB.SERIAL_HI]

def fieldsPag : List FieldDef :=
  [Fld.PAG.ACCERR_PAGE, Fld.PAG.ACCERR_OFFSET, Fld.PAG.ACCERR_WIN, Fld.PAG.ACCERR_WRITE, Fld.PAG.ACCERR_KIND,
   Fld.PAG.ACCERR_CLASS, Fld.PAG.ACCERR_ORIGIN, Fld.PAG.ACCERR_BE, Fld.PAG.ACCERR_VALID, Fld.PAG.ACCERR_MORE,
   Fld.PAG.ACCERR_TIME_LO, Fld.PAG.ACCERR_TIME_HI, Fld.PAG.ACCERR_CNT_LO, Fld.PAG.ACCERR_CNT_HI,
   Fld.PAG.KIND_SEEN, Fld.PAG.ALERT_MAP, Fld.PAG.IRQ_MAP]

def fieldsClk : List FieldDef :=
  [Fld.CLK.STAT_LOCKED, Fld.CLK.STAT_HOLDOVER, Fld.CLK.LOCK_RC, Fld.CLK.PREV_RESET_CAUSE,
   Fld.CLK.PREV_RESET_RAIL, Fld.CLK.LOSS_CNT]

def fieldsPwr : List FieldDef :=
  [Fld.PWR.RAIL_WARN, Fld.PWR.PFAIL_CFG_DISC_US, Fld.PWR.PFAIL_CFG_REINCLUDE_A,
   Fld.PWR.PFAIL_CFG_REINCLUDE_B, Fld.PWR.PFAIL_STAT_A, Fld.PWR.PFAIL_STAT_B, Fld.PWR.PFAIL_STAT_BOOT_EXCL,
   Fld.PWR.BRACE_LAST, Fld.PWR.BRACE_CNT, Fld.PWR.BRACE_HC_LO, Fld.PWR.BRACE_HC_HI, Fld.PWR.PFAIL_GLITCH_CNT,
   Fld.PWR.OFF_DROP_CNT, Fld.PWR.THERM_TEMP_MAX, Fld.PWR.THERM_WARN_C, Fld.PWR.THERM_THROTTLE,
   Fld.PWR.DOM_CTL_REQ, Fld.PWR.DOM_STAT_STATE, Fld.PWR.DOM_STAT_INFLIGHT]

def fieldsPin : List FieldDef :=
  [Fld.PIN.IN_PFAIL_A_N, Fld.PIN.IN_PFAIL_B_N, Fld.PIN.IN_SYNC_IN, Fld.PIN.IN_BENCH_REQ_N, Fld.PIN.IN_QRST_N,
   Fld.PIN.IN_I3C_SCL, Fld.PIN.IN_I3C_SDA, Fld.PIN.MGMT_STATE, Fld.PIN.MGMT_RECOV_CNT, Fld.PIN.SYNC_OUT_EN]

def fieldsMod : List FieldDef :=
  [Fld.MOD.STAT_MODE, Fld.MOD.STAT_BRACE, Fld.MOD.STAT_BENCH_TIER, Fld.MOD.STAT_REASON,
   Fld.MOD.STAT_SEAL_CAUSE, Fld.MOD.STAT_SEAL_PHASE, Fld.MOD.STAT_DRAINED, Fld.MOD.CTL_REQ,
   Fld.MOD.CTL_SERVE_OK, Fld.MOD.REQ_STAT_OUTCOME, Fld.MOD.HO_GRAN, Fld.MOD.HO_TARGET_NODE,
   Fld.MOD.HO_TARGET_LOCAL, Fld.MOD.HO_CTL_START, Fld.MOD.HO_CTL_FREEZE_MAX_US, Fld.MOD.HO_STAT_STATE,
   Fld.MOD.HO_STAT_CAUSE, Fld.MOD.HO_DONE_CNT, Fld.MOD.HO_ABORT_CNT]

def fieldsTul : List FieldDef :=
  [Fld.TUL.NODE_ID, Fld.TUL.NODE_VALID, Fld.TUL.QUORUM_NEEDED, Fld.TUL.QUORUM_PRESENT, Fld.TUL.QUORUM_HELD,
   Fld.TUL.DIGEST_LO, Fld.TUL.DIGEST_HI, Fld.TUL.PRESENT, Fld.TUL.DISAGREE_CODE, Fld.TUL.DISAGREE_NODE,
   Fld.TUL.DISAGREE_BAY, Fld.TUL.LINK_SEL_BAY, Fld.TUL.LINK_LEVEL, Fld.TUL.LINK_ADMITTED, Fld.TUL.LINK_COST,
   Fld.TUL.CRED_VC_ADVERTISED, Fld.TUL.CRED_VC_AVAILABLE, Fld.TUL.DROP_CNT, Fld.TUL.DUP_CNT]

def fieldsHmap : List FieldDef :=
  [Fld.HMAP.EPOCH_LO, Fld.HMAP.EPOCH_HI, Fld.HMAP.RD_INDEX, Fld.HMAP.RD_ENTRY, Fld.HMAP.ST_INDEX,
   Fld.HMAP.ST_ENTRY, Fld.HMAP.ST_CTL_RESTAGE, Fld.HMAP.ST_CTL_PROPOSE, Fld.HMAP.PROP_STAT_STATE,
   Fld.HMAP.PROP_STAT_CAUSE, Fld.HMAP.LOCAL_COUNT, Fld.HMAP.LATE_CNT]

def fieldsTime : List FieldDef :=
  [Fld.TIME.FTIME_LO, Fld.TIME.FTIME_HI, Fld.TIME.OFFSET_LO, Fld.TIME.OFFSET_HI, Fld.TIME.ROOT_NODE,
   Fld.TIME.ROOT_SELF, Fld.TIME.ROOT_PARENT, Fld.TIME.STAT_SYNCED, Fld.TIME.STAT_TIME_SUSPECT,
   Fld.TIME.STAT_FENCED, Fld.TIME.STAT_NO_ROOT, Fld.TIME.THETA]

def fieldsPrk : List FieldDef :=
  [Fld.PRK.CFG_SPEC_EN, Fld.PRK.CFG_SCRUB_EN, Fld.PRK.CFG_SPEC_CREDIT_MIN, Fld.PRK.CTL_FORMAT,
   Fld.PRK.CTL_FLUSH, Fld.PRK.STAT_FORMAT_BUSY, Fld.PRK.STAT_FLUSH_BUSY, Fld.PRK.BGEN, Fld.PRK.LOCAL_PROV,
   Fld.PRK.MEDIA_WAYS, Fld.PRK.MEDIA_GRAN, Fld.PRK.MEDIA_WAY, Fld.PRK.SCRUB_BATCH, Fld.PRK.SPEC_INFLIGHT,
   Fld.PRK.LOOKUP_HIT_CNT, Fld.PRK.LOOKUP_MISS_CNT, Fld.PRK.SPEC_ISSUE_CNT, Fld.PRK.SPEC_USE_CNT,
   Fld.PRK.SPEC_DISCARD_CNT, Fld.PRK.SPEC_POISON_DROP_CNT, Fld.PRK.SPEC_SUPPRESS_CNT,
   Fld.PRK.SPEC_FULL_HC_LO, Fld.PRK.SPEC_FULL_HC_HI, Fld.PRK.ENTRY_WB_CNT, Fld.PRK.WAY_STALL_CNT,
   Fld.PRK.OVF_ENTER_CNT, Fld.PRK.REBUILD_CNT, Fld.PRK.SCRUB_POS_LO, Fld.PRK.SCRUB_POS_HI]

def fieldsCoh : List FieldDef :=
  [Fld.COH.CFG_STASH_EN, Fld.COH.CFG_FWD_DISABLE, Fld.COH.CFG_ATOM_FORCE, Fld.COH.CFG_PRED_CLEAR,
   Fld.COH.SNP_SENT, Fld.COH.SNP_STALE, Fld.COH.BCAST_CNT, Fld.COH.FWD_CNT, Fld.COH.STASH_PUSH_CNT,
   Fld.COH.STASH_DECLINE_CNT, Fld.COH.STASH_SKIP_CNT, Fld.COH.ATOM_NEAR_CNT, Fld.COH.ATOM_FAR_CNT,
   Fld.COH.PRED_FLIP_CNT, Fld.COH.PROTO_ERR_CNT]

def fieldsBob : List FieldDef :=
  [Fld.BOB.CFG_AGE_SHIFT, Fld.BOB.CFG_STARVE_US, Fld.BOB.CFG_AUDIT_EN, Fld.BOB.PRI_H, Fld.BOB.PRI_D,
   Fld.BOB.PRI_WB, Fld.BOB.PRI_SNP, Fld.BOB.PRI_MGT, Fld.BOB.OUT_MAX, Fld.BOB.SLICE_SEL,
   Fld.BOB.SLICE_STAT_FREE_GEN, Fld.BOB.SLICE_STAT_FREE_WB, Fld.BOB.SLICE_STAT_FREE_SNP,
   Fld.BOB.SLICE_STAT_FREE_MGT, Fld.BOB.SLICE_STAT_AT_BOUND, Fld.BOB.SLICE_OUT_HELD, Fld.BOB.SLICE_OUT_LANE,
   Fld.BOB.BOUND_HC_LO, Fld.BOB.BOUND_HC_HI, Fld.BOB.WBP_FULL_HC, Fld.BOB.SNP_FULL_HC, Fld.BOB.MGT_FULL_HC,
   Fld.BOB.OUT_CAP_HC, Fld.BOB.STARVE_CNT, Fld.BOB.AGE_SAT_CNT, Fld.BOB.AUDIT_STAT, Fld.BOB.AUDIT_FIRST_QTY,
   Fld.BOB.AUDIT_FIRST_INDEX, Fld.BOB.AUDIT_TIME_LO, Fld.BOB.AUDIT_TIME_HI, Fld.BOB.PEEK_SEL,
   Fld.BOB.PEEK_PHASE, Fld.BOB.PEEK_HEAD, Fld.BOB.PEEK_PRIO, Fld.BOB.PEEK_REMOTE, Fld.BOB.PEEK_ADDR_LO,
   Fld.BOB.PEEK_ADDR_HI]

def fieldsDed : List FieldDef :=
  [Fld.DED.CFG_SNP_TO_MS, Fld.DED.CFG_LINK_TO_MS, Fld.DED.CFG_TXN_TO_MS, Fld.DED.CFG_RECLAIM_BATCH,
   Fld.DED.OPEN, Fld.DED.REC_SEL, Fld.DED.REC_AGENT, Fld.DED.REC_CAUSE, Fld.DED.REC_STATE,
   Fld.DED.REC_EPOCH_LO, Fld.DED.REC_EPOCH_HI, Fld.DED.REC_TIME_LO, Fld.DED.REC_TIME_HI, Fld.DED.DEAD_CNT,
   Fld.DED.DROP_CNT, Fld.DED.POISON_CNT, Fld.DED.LATE_MSG_CNT, Fld.DED.TXN_TO_CNT, Fld.DED.REC_WALK_START_LO,
   Fld.DED.REC_WALK_START_HI]

def fieldsPsn : List FieldDef :=
  [Fld.PSN.STAT_ENTRIES, Fld.PSN.STAT_PENDING, Fld.PSN.MARKS, Fld.PSN.RD_INDEX, Fld.PSN.RD_ENTRY,
   Fld.PSN.NEW_CNT, Fld.PSN.CLEAR_CNT, Fld.PSN.MARK_CNT, Fld.PSN.CONSUME_CNT]

def fieldsQctl : List FieldDef :=
  [Fld.QCTL.QSEL, Fld.QCTL.QASSIGN_OWNER_BAY, Fld.QCTL.QASSIGN_OWNER_INT, Fld.QCTL.QASSIGN_ASSIGNED,
   Fld.QCTL.QSTATE_STATE, Fld.QCTL.QSTATE_CAUSE, Fld.QCTL.QSTATE_PRIO, Fld.QCTL.QSTATE_XLT,
   Fld.QCTL.QSTATE_GROUP, Fld.QCTL.QSTATE_SQ_LOG2, Fld.QCTL.QSTATE_CQ_LOG2, Fld.QCTL.QCTX, Fld.QCTL.QPASID,
   Fld.QCTL.ACCEPT_IDX, Fld.QCTL.COMPLETE_IDX, Fld.QCTL.SQ_TAIL, Fld.QCTL.CQ_HEAD, Fld.QCTL.PUSHED,
   Fld.QCTL.TOKENS_HELD, Fld.QCTL.TOKEN_FULL_HC_LO, Fld.QCTL.TOKEN_FULL_HC_HI, Fld.QCTL.ACCEPT_CNT,
   Fld.QCTL.ERR_CPL_CNT, Fld.QCTL.DB_ERR_CNT, Fld.QCTL.REACH_USED, Fld.QCTL.REACH_SEL, Fld.QCTL.REACH_ENTRY]

def fieldsXlt : List FieldDef :=
  [Fld.XLT.CFG_PF_EN, Fld.XLT.CFG_PF_DEPTH, Fld.XLT.CFG_FAULT_TO_MS, Fld.XLT.CFG_MIG_HOLD_MS,
   Fld.XLT.INV_EPOCH, Fld.XLT.STAT_FAULT_OUT, Fld.XLT.STAT_XLT_INFLIGHT, Fld.XLT.STAT_HOLDS,
   Fld.XLT.STAT_INV_BUSY, Fld.XLT.UTLB_MISS_CNT, Fld.XLT.L2_HIT_CNT, Fld.XLT.L2_MISS_CNT,
   Fld.XLT.ATS_REQ_CNT, Fld.XLT.WALK_CNT, Fld.XLT.PF_ISSUE_CNT, Fld.XLT.PF_USE_CNT, Fld.XLT.PF_CANCEL_CNT,
   Fld.XLT.FAULT_CNT, Fld.XLT.FAULT_FAIL_CNT, Fld.XLT.LATE_RSP_CNT, Fld.XLT.INV_CNT, Fld.XLT.MIG_EXPIRE_CNT,
   Fld.XLT.FAULT_FULL_HC_LO, Fld.XLT.FAULT_FULL_HC_HI, Fld.XLT.FSEL, Fld.XLT.FAULT_STATE, Fld.XLT.FAULT_BAY,
   Fld.XLT.FAULT_WRITE, Fld.XLT.FAULT_PASID, Fld.XLT.FAULT_VA_LO, Fld.XLT.FAULT_VA_HI]

def fieldsAcn : List FieldDef :=
  [Fld.ACN.CFG_EN, Fld.ACN.CFG_LOCAL, Fld.ACN.CFG_RING_INT, Fld.ACN.CFG_THRESH, Fld.ACN.CFG_DECAY_LOG2,
   Fld.ACN.CFG_RING_LOG2, Fld.ACN.RING_BASE_LO, Fld.ACN.RING_BASE_HI, Fld.ACN.RING_TAIL, Fld.ACN.RING_HEAD,
   Fld.ACN.HOT_CNT, Fld.ACN.EVICT_CNT, Fld.ACN.RING_DROP_CNT, Fld.ACN.SETS_USED]

def fieldsPic : List FieldDef :=
  [Fld.PIC.HTIME_LO, Fld.PIC.HTIME_HI, Fld.PIC.STALE_US, Fld.PIC.SYNC_WIDTH, Fld.PIC.LATE_CNT,
   Fld.PIC.STALE_CNT, Fld.PIC.SKIP_CNT, Fld.PIC.CAP_OVR_CNT, Fld.PIC.CAP_LO, Fld.PIC.CAP_HI,
   Fld.PIC.CAP_CFG_SRC, Fld.PIC.CAP_CFG_EN, Fld.PIC.CAP_STAT_VALID, Fld.PIC.CAP_STAT_OVERRUN,
   Fld.PIC.CH_CMP_LO, Fld.PIC.CH_CMP_HI, Fld.PIC.CH_INTERVAL, Fld.PIC.CH_PHASE, Fld.PIC.CH_CTL_MODE,
   Fld.PIC.CH_CTL_TB, Fld.PIC.CH_CTL_SKIP, Fld.PIC.CH_CTL_STALE_CHK, Fld.PIC.CH_CTL_START,
   Fld.PIC.CH_STAT_ARMED, Fld.PIC.CH_STAT_FIRED, Fld.PIC.CH_STAT_LATE, Fld.PIC.CH_STAT_WRAPLATE,
   Fld.PIC.CH_STAT_STALE, Fld.PIC.CH_COUNT, Fld.PIC.CH_FIRE_CNT]

def fieldsEvt : List FieldDef :=
  [Fld.EVT.TASK_IRQ_LO, Fld.EVT.TASK_IRQ_HI, Fld.EVT.SWFIRE, Fld.EVT.COALESCE_CNT, Fld.EVT.OVERRUN_CNT,
   Fld.EVT.T_SRCMASK0, Fld.EVT.T_SRCMASK1, Fld.EVT.T_SRCMASK2, Fld.EVT.T_SRCMASK3, Fld.EVT.T_TASK_KIND,
   Fld.EVT.T_TASK_ARG, Fld.EVT.T_TASK_EN, Fld.EVT.T_TSTAT_RUNNING, Fld.EVT.T_TSTAT_PENDING,
   Fld.EVT.T_TSTAT_COALESCED, Fld.EVT.T_TSTAT_OVERRUN, Fld.EVT.T_HITS, Fld.EVT.T_RUNS]

def fieldsCnt : List FieldDef :=
  [Fld.CNT.CTL_FREEZE_ALL, Fld.CNT.DUMP_CFG_EN, Fld.CNT.DUMP_CFG_K, Fld.CNT.DUMP_CFG_CLEAR,
   Fld.CNT.DUMP_CFG_RING_INT, Fld.CNT.DUMP_CFG_RING_LOG2, Fld.CNT.DUMP_BASE_LO, Fld.CNT.DUMP_BASE_HI,
   Fld.CNT.DUMP_TAIL, Fld.CNT.DUMP_HEAD, Fld.CNT.DUMP_SEQ, Fld.CNT.DUMP_DROP_CNT, Fld.CNT.DUMP_NOTASK_CNT,
   Fld.CNT.OVF_TIME_LO, Fld.CNT.OVF_TIME_HI, Fld.CNT.DMASK, Fld.CNT.OVF_MAP]

def fieldsSmp : List FieldDef :=
  [Fld.SMP.CFG_EN, Fld.SMP.CFG_N, Fld.SMP.CFG_RING_INT, Fld.SMP.CFG_RING_LOG2, Fld.SMP.CFG_REMOTE_EN,
   Fld.SMP.SEED, Fld.SMP.RING_BASE_LO, Fld.SMP.RING_BASE_HI, Fld.SMP.RING_TAIL, Fld.SMP.RING_HEAD,
   Fld.SMP.TAG_CNT, Fld.SMP.DROP_CNT, Fld.SMP.TRUNC_CNT, Fld.SMP.INFLIGHT]

def fieldsTru : List FieldDef :=
  [Fld.TRU.MB_CMD_CODE, Fld.TRU.MB_CMD_REQ_LEN, Fld.TRU.MB_GO, Fld.TRU.MB_STAT_BUSY, Fld.TRU.MB_STAT_STATUS,
   Fld.TRU.MB_STAT_RSP_LEN, Fld.TRU.MB_BUF_OFF, Fld.TRU.MB_BUF_LEN, Fld.TRU.WDOG_LEFT, Fld.TRU.MB_REQ,
   Fld.TRU.MB_RSP]

def fieldsLdg : List FieldDef :=
  [Fld.LDG.LSEQ_LO, Fld.LDG.LSEQ_HI, Fld.LDG.EXPORTED_LO, Fld.LDG.EXPORTED_HI, Fld.LDG.CP_LSEQ_LO,
   Fld.LDG.CP_LSEQ_HI, Fld.LDG.STAT_STRICT, Fld.LDG.STAT_NEAR_FULL, Fld.LDG.STAT_HELD, Fld.LDG.UNEXPORTED,
   Fld.LDG.BOOT_TRIES, Fld.LDG.BOOT_LIMIT, Fld.LDG.BOOT_REASON, Fld.LDG.BOOT_ZH_SLOT, Fld.LDG.BOOT_CK_SLOT,
   Fld.LDG.BOOT_ZH_TRIAL, Fld.LDG.BOOT_CK_TRIAL, Fld.LDG.BOOT_HEALTH, Fld.LDG.ZH_SVN, Fld.LDG.CK_SVN,
   Fld.LDG.FLOOR, Fld.LDG.OVERWRITE_CNT, Fld.LDG.HEAD]

def fieldsKep : List FieldDef :=
  [Fld.KEP.CTL_PROBE, Fld.KEP.DEV_STATE, Fld.KEP.DEV_CAUSE, Fld.KEP.DEV_SPARES, Fld.KEP.DEV_REBUILD_POS,
   Fld.KEP.PSEL, Fld.KEP.ERASE_MAX, Fld.KEP.ERASE_MIN, Fld.KEP.FREE_SECT, Fld.KEP.ERASE_CNT,
   Fld.KEP.PROG_RETRY_CNT, Fld.KEP.READ_ERR_CNT, Fld.KEP.MIRROR_FIX_CNT, Fld.KEP.BATCH_CNT]

def fieldsScb : List FieldDef :=
  [Fld.SCB.NEXT_SEQ_LO, Fld.SCB.NEXT_SEQ_HI, Fld.SCB.OLDEST_SEQ_LO, Fld.SCB.OLDEST_SEQ_HI,
   Fld.SCB.TAIL_SEQ_LO, Fld.SCB.TAIL_SEQ_HI, Fld.SCB.STAT_PEND_ACCEPT, Fld.SCB.STAT_PEND_DONE,
   Fld.SCB.STAT_RD_HIT, Fld.SCB.STAT_DUR_BUSY, Fld.SCB.STAT_DUR_VALID, Fld.SCB.STAT_DUR_END,
   Fld.SCB.RD_SEQ_LO, Fld.SCB.RD_SEQ_HI, Fld.SCB.RD_REC, Fld.SCB.DUR_SEL, Fld.SCB.DUR_CTL_FETCH,
   Fld.SCB.DUR_COUNT, Fld.SCB.TAIL_CNT, Fld.SCB.DUR_COMMIT_CNT, Fld.SCB.DUR_WAIT_HC_LO,
   Fld.SCB.DUR_WAIT_HC_HI, Fld.SCB.DUR_REC]

def fieldsBay : List FieldDef :=
  [Fld.BAY.ROLECFG_ROLE, Fld.BAY.ROLECFG_QBOND, Fld.BAY.LINKCFG_LINK_EN, Fld.BAY.LINKCFG_LANE_MASK,
   Fld.BAY.LINKCFG_MIN_WIDTH, Fld.BAY.LINKCFG_MIN_RATE, Fld.BAY.LINKCFG_MAX_RATE, Fld.BAY.LINKCFG_FLAP_MAX,
   Fld.BAY.LSTAT_LSTATE, Fld.BAY.LSTAT_WIDTH, Fld.BAY.LSTAT_RATE, Fld.BAY.LSTAT_REVERSED,
   Fld.BAY.LSTAT_POL_INV, Fld.BAY.LSTAT_FLIT, Fld.BAY.LSTAT_CXL, Fld.BAY.LSTAT_TULLE, Fld.BAY.LSTAT_MEMBER,
   Fld.BAY.LSTAT_LEAD, Fld.BAY.CAUSE_CODE, Fld.BAY.LANE_STATE, Fld.BAY.LANE_MAP, Fld.BAY.PEER_NODE,
   Fld.BAY.PEER_BAY, Fld.BAY.REPLAY_CNT, Fld.BAY.RECOVERY_CNT, Fld.BAY.LINKDOWN_CNT, Fld.BAY.FEC_CORR_CNT,
   Fld.BAY.MODE_REJECT_CNT, Fld.BAY.DISCARD_CNT, Fld.BAY.QRST_CNT]

def fieldsMov : List FieldDef :=
  [Fld.MOV.CTL_EN, Fld.MOV.STAT_GROUP, Fld.MOV.STAT_BUSY, Fld.MOV.STAT_STALL, Fld.MOV.STREAM_SEL,
   Fld.MOV.STREAM_Q, Fld.MOV.STREAM_IDX, Fld.MOV.STREAM_DONE, Fld.MOV.OPS_CNT, Fld.MOV.BYTES_LO,
   Fld.MOV.BYTES_HI, Fld.MOV.TILE_CNT, Fld.MOV.ERR_CNT]

end Sys2Proof.Machine
end

