-- ==== Sys2Proof/Machine/State.lean ====
section
/-! DEFINITION. The state of the hub: plain data. `Hub` holds everything a hub reset acts on and the board-side levels;
`Fuses` and `Keep` hold what survives every reset (fuse array, keep store devices); `ram` is the management SRAM and
`pending` the queue of commands. Register fields live in `Hub.regs`, one entry per field that differs from its reset
value; a register that only shows other state is computed by Machine/Views.lean. -/

namespace Sys2Proof.Machine

/-- Why a command stops with a fault. Safe. -/
inductive Fault where
  /-- Raised by no command: the spec gives every row of its table an effect. Kept so that the type is not empty. Safe. -/
  | none
  deriving DecidableEq, Repr

/-- Why a command is refused. Safe. -/
inductive Refusal where
  /-- Raised by the dispatch for a row without a meaning (safe: the model stops where the hub goes on). -/
  | notModelled (mnemonic : String)
  deriving DecidableEq, Repr

/-! ### What the hub sends -/

/-- The payload of a Tulle message (Tables TUL-9 and COH-5). -/
inductive Payload where
  | none
  | line (d : LineData)
  | atomic (a : AtomicArg)
  | word (v : Nat)
  | stash (d : LineData) (consumer : AgentId)
  | hello (m : HelloMsg)
  | spdm (packet : List Nat)
  | lsa (seq : Nat) (links : List LsaLink)
  | propose (m : ProposeMsg)
  | propMap (epoch first : Nat) (es : List (Nat × HEntry))
  | epoch (epoch : Nat)
  | commit (epoch ftime : Nat)
  | refuse (epoch cause : Nat)
  | mapState (epoch : Nat) (members : List Nat) (root : Option Nat) (count : Nat)
  | mapData (epoch first : Nat) (es : List HEntry)
  | fence (node ftime : Nat) (un : Bool)
  | time (t1 t2 t3 : Nat)
  | heart (m : HeartMsg)
  | handoff (gran step loc count owners : Nat)
  | copy (item : CopyItem)
  | xfer (gran : Nat) (confirm mark : Bool) (es : List PsnEntry)
  deriving DecidableEq, Repr

/-- Where a page interrupt is delivered as a level (R106): the trusted core, the management cores. -/
inductive IrqDest where
  | trusted | mgmt
  deriving DecidableEq, Repr

/-- What drives the balls that boundary scan reaches (R66): the hub, the boundary register, the boundary register with a
pulse or a train of pulses on the bay lanes, or nothing. -/
inductive BallDrive where
  | mission | scan | pulse | train | float
  deriving DecidableEq, Repr

/-- How the hub drives a keep store bus: as its controller; parked, with CS_N high and every other output at high impedance
(R65); released, with CS_N left to its pull-up (R469). -/
inductive KsDrive where
  | bus | parked | released
  deriving DecidableEq, Repr

/-- What the hub puts on a pin, a link, a bus or a read completion, in order of sending. -/
inductive Emit where
  | readData (o : Origin) (v : Nat)
  | msix (b : Bay) (addr data : Nat)
  /-- The level of a page's interrupt to a destination changes (R106). -/
  | irqLevel (d : IrqDest) (page : Nat) (level : Bool)
  | ibi
  /-- A Tulle message on the T link led by bay b. -/
  | tulle (b : Nat) (hd : Hdr) (body : Payload)
  /-- A flit (Table TUL-10): its credit block, SLOTS and CONT. -/
  | flit (b : Nat) (ret echo : List Nat) (slots : Nat) (cont : Bool)
  /-- BISnpInv (inv) or BISnpData to a host. -/
  | biSnp (b : Nat) (line : LineAddr) (inv : Bool)
  /-- SnpInv (inv) or SnpData to a device. -/
  | snp (b : Nat) (line : LineAddr) (inv : Bool)
  /-- S2M DRS MemData, with the granted state. -/
  | memData (b : Nat) (hpa : Nat) (d : LineData) (poison : Bool) (grant : Nat)
  /-- S2M NDR Cmp, with the granted state. -/
  | memCmp (b : Nat) (hpa : Nat) (grant : Nat)
  /-- H2D Data with GO of the granted state. -/
  | h2dData (b : Nat) (line : LineAddr) (d : LineData) (poison : Bool) (grant : Nat)
  /-- H2D GO. -/
  | go (b : Nat) (line : LineAddr) (grant : Nat)
  | goWritePull (b : Nat) (line : LineAddr)
  | goWritePullDrop (b : Nat) (line : LineAddr)
  | biConflictAck (b : Nat) (line : LineAddr)
  /-- The answer to Get Poison List: lines, and granules' first lines, in the host's HPA. -/
  | poisonList (b : Nat) (lines granules : List Nat)
  /-- A write to the memory of bay b's host, little-endian bytes, with the PASID it carries. -/
  | dma (b : Nat) (addr : Nat) (pasid : Option Nat) (bytes : List Nat)
  /-- A read of host memory by a mover or the queue engine; `untr` marks an untranslated address (R313). -/
  | hostRead (b addr len : Nat) (untr : Bool) (pasid : Option Nat)
  /-- A write of host memory by a mover or the queue engine. -/
  | hostWrite (b addr : Nat) (untr : Bool) (pasid : Option Nat) (bytes : List Nat) (poison : Bool)
  /-- ATS Translation Request of a translation slot (R312). -/
  | atsReq (b slot pasid va : Nat) (write : Bool)
  /-- PRI Page Request, Last set, with its PRG index (R324). -/
  | pageReq (b idx pasid va : Nat) (write : Bool)
  /-- ATS Invalidate Completion with Completion Count 1 (R331). -/
  | invDone (b tag : Nat)
  /-- The response to a host's GPF phase 2 request (R462). -/
  | gpfDone (b : Nat)
  /-- The hub, as host, starts GPF on a D bay (Table MOD-4). -/
  | gpfReq (b : Nat)
  /-- The answer to a Quinsor management command: status, and its data (R412, R414). -/
  | answer (c : QCarrier) (status : Nat) (data : List Nat)
  /-- An SPDM response: response code, two parameters and data (R398, R471). -/
  | spdm (p : SpdmPort) (code p1 p2 : Nat) (data : List Nat)
  /-- An MCTP message handed to a firmware: 0 ROM, 1 Zhozha, 2 Chakacon (R62, R412). -/
  | mctpIn (c : Carrier) (typ len dest : Nat)
  /-- The answer to an MCTP control message (R471). -/
  | mctpRsp (c : Carrier) (code : Nat)
  /-- The modified TS1 and TS2 of the lanes of a T group: vendor ID, and the Tulle word of each lane sent on (R37). -/
  | ts (b vendor : Nat) (words : List (Nat × Nat))
  /-- Bits shifted out at TDO (R66). -/
  | tdo (v : Nat)
  /-- What drives the balls that boundary scan reaches, and the boundary register's update stage (R66). -/
  | balls (d : BallDrive) (v : Nat)
  /-- Pulses on I3C_SCL, and a STOP on the management bus (R63). -/
  | sclPulses (n : Nat)
  | i3cStop
  /-- How the hub drives the bus of a keep store device from now on (R65, R469). -/
  | ksBus (d : Nat) (x : KsDrive)
  /-- A request to the memory of the device on D bay b, at a device address (R201). -/
  | media (b addr : Nat) (write : Bool)
  /-- The HDM decoder of the device on D bay b is programmed: its way of so many, with so many bytes a way (R201). -/
  | hdmProg (b way ways gran : Nat)
  /-- REQ-class credits returned on a bay (R230). -/
  | reqCredit (b n : Nat)
  deriving DecidableEq, Repr

/-! ### The register port -/

/-- A low-half latch (R100). -/
structure Latch where
  origin : Origin
  page   : Nat
  off    : Nat
  value  : Nat
  time   : Nat
  rc     : Bool
  deriving DecidableEq, Repr

/-- A staged low half (R102). -/
structure Stage where
  origin : Origin
  page   : Nat
  off    : Nat
  value  : Nat
  time   : Nat
  deriving DecidableEq, Repr

/-- The register port. -/
structure Port where
  /-- The armed low-half latches, at most one per origin; R100; none at reset. -/
  latches : List Latch
  /-- The staging registers that hold a value, at most one per origin; R102; none at reset. -/
  stages  : List Stage
  /-- The MSI-X tables of the H functions, DW dw of entry i of bay b at key (b * 2048 + i) * 4 + dw; 32-bit; R85, R478. -/
  msix    : List (Nat × Nat)
  /-- The pending bits that are set, entry i of bay b at b * 2048 + i; R106, R478; none at reset. -/
  pba     : List Nat
  deriving DecidableEq, Repr

/-! ### The bays -/

/-- An HDM decoder of an H bay (R33), in lines: its HPA range, its first TPA line, interleave ways, granularity and the
function's position in the interleave set. -/
structure HdmDec where
  hpa   : Nat
  lines : Nat
  tpa   : Nat
  ways  : Nat
  gran  : Nat
  pos   : Nat
  deriving DecidableEq, Repr

/-- What a training attempt has settled for a link that has not reached DL_Active yet (R36, R40 to R44, R52). -/
structure Trained where
  width    : Nat
  rate     : Nat
  reversed : Bool
  polInv   : Nat
  /-- Logical lane of each group lane, 0 where it is not ACTIVE. -/
  map      : List Nat
  cxl      : Bool
  cacheDev : Bool
  peerNode : Nat
  peerBay  : Nat
  cause    : Nat
  deriving DecidableEq, Repr

/-- What a bay holds beside its register page. -/
structure BayRt where
  /-- HTIME of the link losses of the last 10 s; 02 R46; none. -/
  flapDowns    : List Nat
  /-- Length of the next hold in seconds; 02 R46; 1. -/
  holdSecs     : Nat
  /-- HTIME and length of the hold that runs; 02 R46; 0. -/
  holdAt       : Nat
  holdNow      : Nat
  /-- HTIME of the last refusal; 02 R45; 0. -/
  refusedAt    : Nat
  /-- HTIME at which the link last came up; 02 R46; 0. -/
  upAt         : Nat
  /-- Rate the attempt now tries (Table BAY-6); 02 R44; 0. -/
  tryRate      : Nat
  /-- The attempt's outcome; 02 R41; none. -/
  trained      : Option Trained
  /-- Link Disable by the host holds; 02 R48; no. -/
  hostDisabled : Bool
  /-- HTIME since which the link is out of DL_Active; 02 R39, 10 R250; none. -/
  downSince    : Option Nat
  /-- Memory Space Enable; 04 R87; 0. -/
  memSpaceEn   : Bool
  /-- MSI-X Enable and Function Mask; 04 R106; 0. -/
  msixEn       : Bool
  funcMask     : Bool
  /-- ATS Enable; 12 R314; 0. -/
  atsEn        : Bool
  /-- PASID Enable; 12 R314; 0. -/
  pasidEn      : Bool
  /-- PRI Enable and Outstanding Page Request Allocation; 12 R323, R324; 0. -/
  priEn        : Bool
  priAlloc     : Nat
  /-- The four HDM decoders; 02 R33; off. -/
  hdm          : List (Option HdmDec)
  /-- BI Enable of the function's BI decoder; 06 R164; 0 (PRESUMED, log entry 77). -/
  biEn         : Bool
  /-- IDE keys by slot; 02 R47; none. -/
  ide          : List (Nat × Nat)
  /-- A GPF phase 2 request of the host waits for its writes; 17 R462; no. -/
  gpfAsked     : Bool := false
  /-- GPF phase 2 recorded for this boot; 17 R462; no. -/
  gpfFlushed   : Bool
  /-- A D bay's partner is a CXL.cache device; 06 Table COH-1; no. -/
  cacheDev     : Bool
  /-- REQ-class credits of requests that have left their ingress buffers, not yet returned; 09 R230; 0. -/
  reqOwed      : Nat
  deriving DecidableEq, Repr

/-! ### Pins, supplies and the start -/

/-- The levels the board drives and the island's latches. They survive every reset under R61; a VAUX reset clears the
THERMTRIP latch (R72). -/
structure Pins where
  /-- HUB_RESET_N asserted (filtered); 03 R61; released at reset (DESIGN CHOICE, log entry 5). -/
  hubReset  : Bool
  /-- QRST_N inputs that are asserted, bit k for quad k; 02 R47; none. -/
  qrst      : Nat
  /-- PFAIL_A_N asserted (filtered); 03 R60; no. -/
  pfailA    : Bool
  /-- PFAIL_B_N asserted (filtered); 03 R60; no. -/
  pfailB    : Bool
  /-- Level of SYNC_IN; 03 R83; low. -/
  syncIn    : Bool
  /-- HTIME of its last rise; 13 R355; 0. -/
  syncInAt  : Nat
  /-- BENCH_REQ_N asserted (debounced); 03 R61; no. -/
  benchReq  : Bool
  /-- I3C_SCL low; 03 R83; no. -/
  sclLow    : Bool
  /-- I3C_SDA low; 03 R83; no. -/
  sdaLow    : Bool
  /-- Rails below warning, bit order of PWR.RAIL_WARN; 03 R70; none. -/
  railWarn  : Nat
  /-- Rails below reset, same order; 03 R70; none. -/
  railReset : Nat
  /-- REFCLK edges arrive; 03 R77; yes. -/
  refclk    : Bool
  /-- THERMTRIP_N asserted, the latch of R80; no. -/
  thermtrip : Bool
  /-- SYNC_OUT high; 13 R354; low. -/
  syncOut   : Bool
  deriving DecidableEq, Repr

/-- The boot sequencer of Table PKG-6: a step that runs, or the end of one after which the next has not begun (R60):
`waiting` at offset 0, `counted` before fuse sensing, `sensed` before the PLL, `locked` before the switch. -/
inductive SeqSt where
  | off | waiting | counting | counted | sensing | sensed | pll | locked | done
  deriving DecidableEq, Repr

/-- How far the start of R395 has come. -/
inductive StartPt where
  | none | rom | zhozha | waitCore | ready | running
  deriving DecidableEq, Repr

/-- The start. -/
structure Boot where
  /-- The boot sequencer; 03 R75; off. -/
  seq       : SeqSt
  /-- The point of the start sequence; 15 R395; none. -/
  point     : StartPt
  /-- The core domain is released onto HCLK; 03 R68; no. -/
  coreOn    : Bool
  /-- HCLK drives the island, so HTIME counts; 03 R75, 13 R339; no. -/
  hclk      : Bool
  /-- The fuses' ECC checked at fuse sensing; 15 R388; no. -/
  eccOk     : Bool
  /-- What Zhozha meets, kept while it waits for the core domain; 18 R468; none. -/
  zin       : Option ZhIn
  /-- VAUX has been lost since the last start (R269); yes at reset, since the chip was never powered (DEDUCED, log entry 53). -/
  vauxLost  : Bool
  deriving DecidableEq, Repr

/-- The modes of Table OVW-3. -/
inductive Mode where
  | assemble | serve | drain | maintain | seal | bench
  deriving DecidableEq, Repr

/-- The mode code of Table OVW-3. -/
def Mode.code : Mode → Nat
  | .assemble => 1 | .serve => 2 | .drain => 3 | .maintain => 4 | .seal => 5 | .bench => 6

/-- The mode unit. -/
structure ModeSt where
  /-- The mode; 01 R18, MOD.STAT.MODE; ASSEMBLE (0x1). -/
  mode      : Mode
  /-- BRACE, or its flag; 17 R449, R451; 0. -/
  brace     : Bool
  /-- BENCH tier, true for the Zhozha tier; 17 Table MOD-5; 0. -/
  tier      : Bool
  /-- BENCH reason; 15 Table TRU-7; 0x00. -/
  reason    : Nat
  /-- SEAL cause; 17 R452; 0x0. -/
  sealCause : Nat
  /-- Seal phase; 17 Table MOD-4; 0x0 (8 stands for the hold after phase 7 and reads 0x7). -/
  sealPhase : Nat
  /-- No phase from 2 to 6 has failed; 17 R461; yes. -/
  sealOk    : Bool
  /-- HTIME at SEAL entry; 17 R464; 0. -/
  sealTime  : Nat
  /-- MAINTAIN entry is in progress (R450); no. -/
  toMaintain : Bool
  /-- SERVE is entered once the running handoff has ended (17 Table MOD-1); no. -/
  toServe   : Bool
  /-- PFAIL_A excluded; 17 R452; no. -/
  exclA     : Bool
  /-- PFAIL_B excluded; 17 R452; no. -/
  exclB     : Bool
  /-- An exclusion for the start; 17 R453; 0. -/
  bootExcl  : Bool
  /-- HTIME since which no BRACE trigger holds; 17 R451; 0. -/
  quietAt   : Nat
  /-- HTIME of the assertion of PFAIL_A, and of PFAIL_B, that holds; 17 R452; 0. -/
  pfAtA     : Nat
  pfAtB     : Nat
  /-- HTIME of the last change of state of each power domain; 17 R459; 0. -/
  domAt     : List (Nat × Nat)
  deriving DecidableEq, Repr

/-! ### Counters, compare channels and tasks -/

/-- What the counter area holds beside its registers. -/
structure Perf where
  /-- The events raised in the current hc, as (page, event number), for LEVEL counting; 14 R369; none. -/
  hcEvents   : List (Nat × Nat)
  /-- Overflows not yet reported, as (page, HTIME of the overflow); 14 R378; none. -/
  ovfPending : List (Nat × Nat)
  /-- Pages whose OVF_FROZEN set in the current hc, whose counters stop from the next hc; 14 R378; none. -/
  frozenHc   : List Nat
  deriving DecidableEq, Repr

/-- What a compare channel holds beside its registers: T when C was set, or in PERIOD the HTIME from which COUNT counts;
the arm point; a firing owed to a shortened PERIOD; the HTIME of the last firing (R343 to R348). -/
structure ChanRt where
  tset     : Nat
  armAt    : Nat
  wrapLate : Bool
  lastFire : Option Nat
  deriving DecidableEq, Repr

/-- Picot. -/
structure Picot where
  /-- Per channel, what its registers do not show; 13 R343 to R348; all zero. -/
  chans  : List (Nat × ChanRt)
  /-- Event sources raised and not yet acted on by the task inputs, each with its hc, oldest first; 13 R356, R357; none. -/
  raised : List (Nat × Nat)
  /-- HTIME of the PIC63 firing that SYNC_OUT follows; 13 R354; 0. -/
  syncAt : Nat
  deriving DecidableEq, Repr

/-! ### Tulle -/

/-- A message with its payload, waiting for or held by a link. -/
structure TMsg where
  hdr  : Hdr
  body : Payload
  /-- Source index of its source queue (R236). -/
  src  : Nat
  /-- HTIME since which it stands at the head of its source queue (R236). -/
  since : Nat
  /-- The T link whose credits its buffer holds, for a message passed on (R133). -/
  link : Option Nat := none
  /-- It has entered the starvation lane (R239). -/
  starved : Bool := false
  deriving DecidableEq, Repr

/-- A T link, kept at its lead bay. -/
structure TLink where
  /-- DL_Active; 02 R39. -/
  up        : Bool
  /-- Admitted; 05 R114. -/
  admitted  : Bool
  /-- Running level; 05 R115. -/
  level     : Nat
  /-- Cost; 05 R117. -/
  cost      : Nat
  /-- Peer node named by its HELLO. -/
  peer      : Nat
  /-- The peer's last HELLO; 05 R114. -/
  hello     : Option HelloMsg
  /-- Outcome of SPDM mutual authentication and the serial that the peer's DeviceID certificate proves, when finished;
  05 R114. -/
  auth      : Option (Bool × Nat)
  /-- Units the peer advertised, per VC; 05 R133. -/
  adv       : List Nat
  /-- Units now held for sending, per VC; 05 R133. -/
  avail     : List Nat
  /-- RET counts sent, per VC, modulo 4,096; 05 R134, 09 R246. -/
  retSent   : List Nat
  /-- Units freed and not yet returned, per VC; 05 R134. -/
  retOwed   : List Nat
  /-- RET counts received, per VC; 05 R134. -/
  retSeen   : List Nat
  /-- ECHO last sent, per VC; 05 R134. -/
  echoSent  : List Nat
  /-- ECHO last received, per VC; 09 R246. -/
  echoSeen  : List Nat
  /-- Messages queued for the link, oldest first; 05 R130, R135. -/
  queue     : List TMsg
  /-- The replay buffer: messages sent whose credits the peer has not returned, oldest first; 05 R130, R131. -/
  replay    : List TMsg
  /-- Where the round robin over VC0 to VC6 stands; 05 R135. -/
  rr        : Nat
  /-- HTIME at the last HELLO sent; 05 R114. -/
  helloAt   : Nat
  deriving DecidableEq, Repr

/-- A node of the fabric as this hub knows it. -/
structure NodeRt where
  /-- Present; 05 R118. -/
  present  : Bool
  /-- Declared dead and not admitted afresh since; 05 R141. -/
  dead     : Bool
  /-- Fenced; 05 R139, R140. -/
  fenced   : Bool
  /-- HTIME at which the fence was accepted; 05 R139. -/
  fencedAt : Nat
  /-- Mode of the last heartbeat accepted; 05 R140. -/
  mode     : Nat
  /-- TIME_SUSPECT of the last heartbeat accepted; 05 R136. -/
  suspect  : Bool
  /-- HTIME of the last heartbeat; 05 R141. -/
  hbAt     : Nat
  /-- Highest heartbeat sequence, once one was taken; 05 R144. -/
  hbSeq    : Option Nat
  /-- Stored LSA sequence; 05 R116. -/
  lsaSeq   : Option Nat
  /-- The next LSA is taken whatever its sequence; 05 R116. -/
  lsaAny   : Bool
  /-- Stored LSA; 05 R116. -/
  links    : List LsaLink
  /-- Sent its SEAL heartbeat with LAST; 05 R142, 17 Table MOD-4. -/
  sealed   : Bool
  /-- A time exchange that this hub serves it has been within 200,000 hc; 05 R139. -/
  timed    : Bool
  deriving DecidableEq, Repr

/-- The hub's own proposal (R123, R124). -/
structure OwnProp where
  epoch     : Nat
  awaiting  : List Nat
  chakacon  : Bool
  handoff   : Bool
  committed : Bool
  /-- HTIME of its PROPOSE. -/
  at_       : Nat
  deriving DecidableEq, Repr

/-- A proposal staged at this member (R123). -/
structure StagedProp where
  epoch    : Nat
  proposer : Nat
  members  : List Nat
  count    : Nat
  root     : Option Nat
  entries  : List (Nat × HEntry)
  /-- The link-state database whose digest the proposal names; 05 R128. -/
  lsdb     : List (Nat × List LsaLink)
  answered : Bool
  deriving DecidableEq, Repr

/-- A map fetch in progress (R125). -/
structure Fetch where
  peer    : Nat
  epoch   : Nat
  members : List Nat
  root    : Option Nat
  left    : Nat
  entries : List (Nat × HEntry)
  deriving DecidableEq, Repr

/-- The states of Table MOD-3. -/
inductive HoSt where
  | idle | offer | copy | freeze | proposed | done | aborted
  deriving DecidableEq, Repr

/-- The handoff this hub runs as A (Table MOD-3). -/
structure HandA where
  gran    : Nat
  target  : Nat
  loc     : Nat
  /-- The granule's local index at this hub. -/
  oldLoc  : Nat
  st      : HoSt
  /-- 4 KiB pages written during the copy. -/
  dirty   : List Nat
  /-- HO_COPY messages sent since the offer. -/
  sent    : Nat
  /-- HTIME at which FREEZE was entered. -/
  froze   : Nat
  /-- The entries, pages and ledger items of FREEZE have been sent. -/
  flushed : Bool
  /-- B has acknowledged them. -/
  acked   : Bool
  deriving DecidableEq, Repr

/-- A handoff this hub takes part in as B. -/
structure HandB where
  gran    : Nat
  from_   : Nat
  loc     : Nat
  got     : Nat
  want    : Option Nat
  owners  : Nat
  deriving DecidableEq, Repr

/-- Tulle: links, membership, map, epoch, time. -/
structure Tulle where
  /-- T links by lead bay; 05 R114 to R134; all down. -/
  links     : List (Nat × TLink)
  /-- Nodes; 05 R116 to R144; none known. -/
  nodes     : List (Nat × NodeRt)
  /-- The profile in force; 05 R112; none. -/
  profile   : Option Profile
  /-- Digest of the profile in force; 05 R112; 0. -/
  digest    : Nat
  /-- The home map in force; 05 R120; every granule unmapped. -/
  homeMap   : List (Nat × HEntry)
  /-- The staged map; 05 R122, Table TUL-6; every granule unmapped. -/
  stage     : List (Nat × HEntry)
  /-- HMAP.EPOCH; 05 R122; 0. -/
  epoch     : Nat
  /-- Member set of the epoch; 05 R122; empty. -/
  members   : List Nat
  /-- An epoch that includes this hub was activated since the start; 05 R119; no. -/
  joined    : Bool
  /-- Next hops per destination node, as (node, lead bay); 05 R128; none. -/
  routes    : List (Nat × List (Nat × Nat))
  /-- Time root of the epoch; 05 R136; none. -/
  root      : Option Nat
  /-- The home map that the keep store's records give, as (epoch, PROFILE_SERIAL, map); 05 R126; none. -/
  stored    : Option (Nat × Nat × List (Nat × HEntry))
  /-- This hub's own proposal; 05 R123; none. -/
  own       : Option OwnProp
  /-- The staged proposal; 05 R123; none. -/
  staged    : Option StagedProp
  /-- PROP_MAP entries that arrived before their PROPOSE, as (epoch, origin, entries); 05 R144; none. -/
  early     : List (Nat × Nat × List (Nat × HEntry))
  /-- The commit awaiting its activation FTIME, as (epoch, FTIME); 05 R123; none. -/
  commitAt  : Option (Nat × Nat)
  /-- A map fetch in progress; 05 R125; none. -/
  fetch     : Option Fetch
  /-- Flooded PROPOSE, PROP_MAP, COMMIT and FENCE copies taken, as (opcode, origin, key, HTIME); 05 R144; none. -/
  floods    : List (Nat × Nat × Nat × Nat)
  /-- HTIME of the last change to the LSDB or the present set; 05 R123; 0. -/
  changedAt : Nat
  /-- A change awaits its automatic proposal; 05 R123; no. -/
  changed   : Bool
  /-- Own LSA sequence; 05 R116; 0. -/
  lsaSeq    : Nat
  /-- HTIME of the last own LSA; 05 R116; 0. -/
  lsaAt     : Nat
  /-- Own heartbeat sequence; 05 R140; 0. -/
  hbSeq     : Nat
  /-- Next sequence to send per (destination node * 8 + VC); 05 R131; 0. -/
  sendSeq   : List (Nat × Nat)
  /-- Next sequence expected per (source node * 8 + VC); 05 R131; 0. -/
  recvSeq   : List (Nat × Nat)
  /-- TIME.OFFSET, modulo 2^64; 05 R137; 0. -/
  offset    : Nat
  /-- OFFSET steps that the last exchange asked for, signed; 05 R137; 0. -/
  slew      : Int
  /-- HTIME of that exchange, from which the steps are spread; 05 R137; 0. -/
  slewAt    : Nat
  /-- How many of them have been made; 05 R137; 0. -/
  slewDone  : Nat
  /-- Consecutive exchanges with |theta| at most 100 hc; 05 R137, R138; 0. -/
  good100   : Nat
  /-- Consecutive exchanges with |theta| above 2,000 hc; 05 R138; 0. -/
  bad2000   : Nat
  /-- Consecutive exchanges with |theta| at most 2,000 hc; 05 R139; 0. -/
  good2000  : Nat
  /-- The handoff this hub runs; 17 R456; none. -/
  handA     : Option HandA
  /-- Handoffs toward this hub; 17 R456; none. -/
  handB     : List HandB
  /-- Messages that have no next hop, held until an activation gives one; 05 R130; none. -/
  held      : List TMsg
  deriving DecidableEq, Repr

/-! ### Coherence -/

/-- The stages of a sampled request (Table CNT-7). -/
structure Tag where
  t0      : Nat
  t1      : Nat
  t2      : Option Nat
  t3      : Option Nat
  t4      : Option Nat
  prkHit  : Bool
  specIss : Bool
  specUse : Bool
  cont    : Bool
  remote  : Bool
  starved : Bool
  age     : Nat
  snoops  : Nat
  dir     : Nat
  sseq    : Nat
  deriving DecidableEq, Repr

/-- Who made a coherent request, and so how it is answered. -/
inductive Who where
  /-- A host on H bay b, by CXL.mem, at a line of its HPA. -/
  | host (b : Nat) (hpa : Nat)
  /-- A device on D bay b, by CXL.cache. -/
  | dev (b : Nat)
  /-- A peer's agent over Tulle, with the TAG of its request. -/
  | peer (tag : Nat)
  /-- A host that a reset has taken down since: the response is discarded (R47). -/
  | gone (b : Nat)
  /-- A mover op and the item of it that the request serves. -/
  | mover (tok item : Nat)
  /-- The hub itself: management-pool work. -/
  | hub
  deriving DecidableEq, Repr

/-- A Tulle snoop: opcode, home node, requester, grant, the home's bobbin, the requester's priority, and the snoop-pool
bobbin it holds (R156, R227). -/
structure Snp where
  opc   : Nat
  home  : Nat
  req   : AgentId
  grant : Nat
  bob   : Nat
  prio  : Nat
  sbob  : Nat
  deriving DecidableEq, Repr

/-- What a coherent request or a write-back asks. -/
inductive ReqOp where
  | rdShared | rdAny | rdOwn | rdCur | upgrade
  | wrFull (d : LineData)
  | wrPart (d : LineData) (mask : BitVec 64)
  | atomic (a : AtomicArg)
  | nearAtomic (a : AtomicArg)
  | stash (d : LineData) (consumer : AgentId)
  | flush
  /-- CXL.mem MemWr or MemWrPtl, judged at service under R189 and R193. -/
  | memWr (d : LineData) (mask : BitVec 64) (m : Meta0)
  /-- WB_DIRTY. -/
  | wbDirty (d : LineData)
  /-- DirtyEvict, whose data is pulled (R192). -/
  | evict
  /-- A rebuild by a management-pool bobbin (R217, R223, R227). -/
  | rebuild
  /-- A Tulle snoop that waits for a snoop-pool bobbin (R227, R228). -/
  | snoop (sn : Snp)
  /-- SNP_WB in write staging, with its ATTR (R231). -/
  | snpWb (d : LineData) (attr : Nat)
  deriving DecidableEq, Repr

/-- A request. -/
structure Req where
  who    : Who
  agent  : AgentId
  op     : ReqOp
  line   : LineAddr
  poison : Bool
  prio   : Nat
  ctx    : Nat
  /-- Its bobbin, once granted. -/
  bob    : Nat
  /-- HTIME of its entry into the ingress queue. -/
  t0     : Nat
  /-- HOPS of the message it came in (R132, R483). -/
  hops   : Nat
  tag    : Option Tag
  /-- It came in forwarded form (R483). -/
  fwd    : Bool := false
  /-- It has missed in the RLC (R171). -/
  missed : Bool := false
  /-- It left write staging while its granule was FROZEN (R199). -/
  late   : Bool := false
  deriving DecidableEq, Repr

/-- A request that waits in an ingress queue (R233, R236). -/
structure Ing where
  slice : Nat
  src   : Nat
  pool  : Nat
  req   : Req
  /-- HTIME since which it stands at the head of its queue. -/
  since : Nat
  /-- Its order of entry into the starvation lane. -/
  lane  : Option Nat
  /-- The T link whose VC0 credit it holds. -/
  link  : Option Nat
  deriving DecidableEq, Repr

/-- A message in write staging (R231). -/
structure Staged where
  slice : Nat
  src   : Nat
  req   : Req
  link  : Option Nat
  /-- HTIME since which it has been a candidate (R236). -/
  since : Nat
  /-- Its order of entry into the starvation lane. -/
  lane  : Option Nat := none
  deriving DecidableEq, Repr

/-- A bobbin in use (R226, Table BOB-8). -/
structure Bob where
  line   : LineAddr
  prio   : Nat
  remote : Bool
  deriving DecidableEq, Repr

/-- Phase of the transaction at the head: lookup, ready to be served, and the states of Table TRN-1; `pull` waits for
the data of a DirtyEvict; `stall` waits at HP9 for a way, `rwait` for the management bobbin of a rebuild (R227). -/
inductive HSt where
  | stall | look | ready | rwait | inv | sdat | fwdw | mrd | mwr | ackw | push | pull
  deriving DecidableEq, Repr

/-- The transaction at the head of a line's chain (R184). -/
structure Txn where
  req     : Req
  st      : HSt
  /-- Agents whose snoop answer is awaited. -/
  awaited : List AgentId
  /-- Dirty data an answer returned, and its poison. -/
  dirty   : Option (LineData × Bool)
  /-- A host's MemWr taken as its answer's dirty data, before its BIRsp (R191). -/
  hostWb  : List (AgentId × LineData × BitVec 64 × Bool)
  /-- State granted or to be granted (codes of R156). -/
  grant   : Nat
  needAck : Bool
  ackIn   : Bool
  /-- The forwarder's answer is awaited. -/
  fwdWait : Bool
  /-- Data of a memory write in flight, and its poison. -/
  wdata   : Option (LineData × Bool)
  contended : Bool
  /-- A rebuild of the entry runs (R217). -/
  rebuild : Bool
  /-- The management-pool bobbin of that rebuild (R227). -/
  rbob    : Option Nat := none
  /-- HTIME of the last change of state. -/
  since   : Nat
  deriving DecidableEq, Repr

/-- The conflict chain of a line (R179, R189, R233). -/
structure Chain where
  head    : Option Txn
  waiting : List Req
  wbs     : List Req
  deriving DecidableEq, Repr

/-- States of a directory entry (Table PRK-1). -/
inductive DirSt where
  | uncached | shared | owned | overflow | poisoned
  deriving DecidableEq, Repr

/-- A directory entry with the current BGEN (Table PRK-1). -/
structure DirEnt where
  st : DirSt
  p0 : Nat
  p1 : Nat
  p2 : Nat
  v0 : Bool
  v1 : Bool
  v2 : Bool
  f0 : Bool
  deriving DecidableEq, Repr

/-- A way of the Pricking cache (R210): the 64 bits of an entry (R204). LOCKED is a chain's existence (R211). -/
structure Way where
  line  : LineAddr
  word  : Nat
  dirty : Bool
  /-- Taken at a miss, its entry not yet returned (R211). -/
  fetch : Bool := false
  deriving DecidableEq, Repr

/-- A change of an entry that waits for a way of its set (R211, R212): a clean-eviction notice, a new entry, and a reclaim
by the walk. -/
inductive EntWait where
  | drop (a : AgentId)
  | put (e : DirEnt)
  | walk
  deriving DecidableEq, Repr

/-- A set of the Pricking cache: ways 0 to 15 that are filled, and the bits of its tree. -/
structure PrkSet where
  ways : List (Nat × Way)
  plru : Nat
  deriving DecidableEq, Repr

/-- A speculative read (R219). -/
structure Spec where
  line      : LineAddr
  /-- Its data has returned. -/
  back      : Bool
  discarded : Bool
  /-- It returned poison or a media error. -/
  bad       : Bool
  deriving DecidableEq, Repr

/-- Pricking. -/
structure Prk where
  /-- Sets of the Pricking cache by slice * 2^14 + set; 08 R210; empty. -/
  sets     : List (Nat × PrkSet)
  /-- Write-back buffer, oldest first, with each entry's place in the directory region; 08 R212; empty. -/
  wbBuf    : List (Nat × Way)
  /-- Directory region: 64-bit entries by local granule * 2^24 + TPA[29:6]; 08 R202; zero (DESIGN CHOICE, log entry 50). -/
  region   : List (Nat × Nat)
  /-- Entries of the region that read as a media error; 08 R217, R482; none. -/
  bad      : List Nat
  /-- Speculative reads, oldest first; 08 R219; none. -/
  spec     : List Spec
  /-- Changes of entries that wait for a way, by line, oldest first; 08 R211, R212; none. -/
  waits    : List (Nat × EntWait)
  /-- Next directory line of the walk; 08 R223; 0. -/
  pos      : Nat
  /-- Media ways a request to which ended by completion timeout; 08 R482; none. -/
  timedOut : List Nat
  deriving DecidableEq, Repr

/-- A line of the media: data and poison. -/
structure MLine where
  data   : LineData
  poison : Bool
  deriving DecidableEq, Repr

/-- States of an RLC line (Tables COH-2, TRN-5). -/
inductive RSt where
  | i | s | f | e | m | isd | imd | smd | mia | mix
  deriving DecidableEq, Repr

/-- What follows a recall of local copies (R195). -/
structure Recall where
  /-- Local agents whose answer is awaited. -/
  awaited : List AgentId
  /-- The recall invalidates the copies; otherwise it downgrades the owner (R195). -/
  inv     : Bool
  /-- The agent whose own copy is spared: the local requester; 8192 for none. -/
  but     : AgentId
  /-- The snoops to answer. -/
  snoops  : List Snp
  /-- The eviction that recalls (REC), with its bobbin. -/
  evict   : Option Nat
  /-- A host's MemWr taken as its answer's dirty data (R191). -/
  hostWb  : List (AgentId × LineData × BitVec 64 × Bool)
  /-- Answers whose device's pulled data is still on its way, with the next state S (R192). -/
  half    : List (AgentId × Bool)
  /-- The home of the line that has left the domain: the line is dropped after the recall (R259). -/
  depart  : Option Nat := none
  deriving DecidableEq, Repr

/-- A line of the RLC. -/
structure RLine where
  st      : RSt
  data    : LineData
  poison  : Bool
  /-- Local holders, with the pointer and overflow rules of the directory (R150). -/
  holders : DirEnt
  /-- SMD was entered from F. -/
  wasF    : Bool
  recalled : Option Recall
  /-- The request the miss serves, with its bobbin. -/
  cur     : Option Req
  /-- Local requests that wait in the tracker, oldest first. -/
  waiting : List Req
  /-- HTIME at which the request or write-back was sent. -/
  since   : Nat
  /-- Bobbin of a write-back. -/
  wbBob   : Nat
  /-- DirtyEvicts that wait for their device's answer to a recall (R192). -/
  evicts  : List Req
  /-- Devices whose DirtyEvict has had its GO_WritePull and whose data is on its way (R192). -/
  pulled  : List AgentId
  /-- The local agents whose writes a dirty line holds, not yet at its home (R462). -/
  wrote   : List AgentId := []
  deriving DecidableEq, Repr

/-- What a coherent request of a mover brought. -/
structure MRes where
  tok    : Nat
  item   : Nat
  data   : LineData
  old    : BitVec 64
  poison : Bool
  status : Nat
  deriving DecidableEq, Repr

/-- Coherence: home slices and RLC. -/
structure Coh where
  /-- Conflict chains by line; 06 R179; none. -/
  chains  : List (Nat × Chain)
  /-- Predictor counters; 06 R171; every counter 1. -/
  pred    : List (Nat × Nat)
  /-- The RLC; 06 R150, 07 R194; every line I. -/
  rlc     : List (Nat × RLine)
  /-- Requests of movers toward a peer home, by line; 09 R227; none. -/
  outs    : List (Nat × Req)
  /-- Ingress queues, in order of arrival; 09 R233; empty. -/
  ingress : List Ing
  /-- The handoff queue: requests that wait on a FROZEN granule, oldest first; 05 R127; empty. -/
  hoQueue : List Ing
  /-- Write staging, in order of arrival; 09 R231; empty. -/
  staging : List Staged
  /-- Bobbins in use by index; 09 R226; none. -/
  bobs    : List (Nat × Bob)
  /-- Device writes to lines homed on peers whose data is being pulled, oldest first; 06 R158; none. -/
  pulls   : List Req
  /-- Entries into starvation lanes so far; 09 R239; 0. -/
  laneSeq : Nat
  /-- Results of the movers' requests, oldest first. -/
  mres    : List MRes
  deriving DecidableEq, Repr

/-- A message in a bay's egress; `ack` names the line whose ACK its last flit gives (R180). -/
structure BOut where
  out   : Emit
  ack   : Option LineAddr
  src   : Nat
  prio  : Nat
  since : Nat
  starved : Bool := false
  deriving DecidableEq, Repr

/-! ### Dead agents and poison -/

/-- A dead record (R251). -/
structure DeadRec where
  agent    : AgentId
  cause    : Nat
  epoch    : Nat
  time     : Nat
  walkFrom : Nat
  sweeping : Bool
  /-- Directory lines the walk has read since the declaration. -/
  walked   : Nat
  deriving DecidableEq, Repr

/-- Dead agents. -/
structure Dead where
  /-- The dead table by record; 10 R251; empty. -/
  recs   : List (Nat × DeadRec)
  /-- HTIME at which the current interval of the internal walk step began; 10 R254; 0. -/
  walkAt : Nat
  /-- A SCRUB_STEP run has begun in that interval; 10 R254; no. -/
  ran    : Bool
  /-- HTIME of the deaths whose ALERT_N runs, oldest first; 10 R251; none. -/
  alerts : List Nat
  deriving DecidableEq, Repr

/-- An item the Poison Ledger has to commit (R265). `peer` is the node that awaits the commit answer (R264). -/
inductive PsnItem where
  | new (e : PsnEntry) (peer : Option Nat)
  | clear (line : LineAddr)
  | mark (g : Nat) (peer : Option Nat)
  | unmark (g : Nat)
  | drop (line : LineAddr) (kind : Nat)
  deriving DecidableEq, Repr

/-- The Poison Ledger. -/
structure Psn where
  /-- Live entries by slot; 10 R264; none. -/
  entries : List (Nat × PsnEntry)
  /-- Items not yet committed, oldest first, with HTIME of creation; 10 R265; none. -/
  pend    : List (PsnItem × Nat)
  /-- Marked granules, ascending; 10 R266; none. -/
  marks   : List (Nat × Unit)
  /-- Foreign entries and marks sent to their home and not yet answered, as (line or granule, is a mark); 10 R264. -/
  sent    : List (Nat × Bool)
  deriving DecidableEq, Repr

/-! ### Sampling and access counters -/

/-- The counter set of a 2 MiB region (R334). -/
structure AcnSet where
  way   : Nat
  slots : List Nat
  deriving DecidableEq, Repr

/-- Request sampling and the ACN cache. -/
structure Meter where
  /-- LFSRs of the slices; 14 R379; 0 until loaded. -/
  lfsr    : List Nat
  /-- Free-running copy of SMP.TAG_CNT; 14 R383; 0. -/
  sseq    : Nat
  /-- Counter sets by region TPA[45:21]; 12 R334; none. -/
  sets    : List (Nat × AcnSet)
  /-- Trees of the ACN cache by index; 12 R334; 0. -/
  trees   : List (Nat × Nat)
  /-- HTIME of the last decay sweep; 12 R335; 0. -/
  decayAt : Nat
  deriving DecidableEq, Repr

/-! ### Queues and movers -/

/-- Queue states (Table MOV-1). -/
inductive QSt where
  | unassigned | idle | enabled | stopped | destroying
  deriving DecidableEq, Repr

/-- A queue pair (R274 to R283). -/
structure Queue where
  st     : QSt
  /-- Stop cause, a status of Table MOV-9. -/
  cause  : Nat
  bay    : Nat
  int    : Bool
  prio   : Nat
  mirror : Bool
  group  : Nat
  sqLog2 : Nat
  cqLog2 : Nat
  sqBase : Nat
  cqBase : Nat
  pasid  : Nat
  ctx    : Nat
  vector : Nat
  accept : Nat
  complete : Nat
  tail   : Nat
  head   : Nat
  /-- Pushed entries not yet accepted, by their count. -/
  pushed : List (Nat × BitVec 512)
  deriving DecidableEq, Repr

/-- A tile in flight (R293). Items are numbered within the tile: source lines from 0, destination lines from 128. -/
structure Tile where
  n      : Nat
  /-- Its sources are still being read. -/
  rd     : Bool
  /-- Items whose end is awaited. -/
  need   : List Nat
  /-- Lines read, by item, with their poison. -/
  got    : List (Nat × LineData × Bool)
  /-- Host bytes are awaited. -/
  host   : Bool
  hostB  : List Nat
  hostPoison : Bool
  /-- Translations the tile uses: page address, physical page, UNTR. -/
  pages  : List (Nat × Nat × Bool)
  deriving DecidableEq, Repr

/-- Where an accepted op stands. -/
inductive OpSt where
  | fence | queued | stream (m s : Nat) | mgmt | waiting | done
  deriving DecidableEq, Repr

/-- An op that holds a mover token (R283, R292 to R296). -/
structure Op where
  q      : Nat
  sqIdx  : Nat
  seq    : Nat
  entry  : BitVec 512
  durable : Bool
  st     : OpSt
  status : Nat
  result : Nat
  detail : Nat
  /-- Next tile to issue, or next page of a WILLNEED. -/
  next   : Nat
  total  : Nat
  flight : List Tile
  tilesDone : Nat
  /-- Tiles below this one have had their lookups started by prefetch or demand (R320). -/
  pfNext : Nat
  /-- INV_EPOCH at that run-ahead (R320, R330). -/
  pfEpoch : Nat := 0
  /-- First failed tile, its status and detail. -/
  fail   : Option (Nat × Nat × Nat)
  poisonAt : Option Nat
  /-- Offset of the first difference a COMPARE found. -/
  diffAt : Option Nat
  /-- CRC register over tiles below crcNext, and the bytes of later tiles that ended before them. -/
  crc    : Nat
  crcNext : Nat
  kept   : List (Nat × List Nat)
  items  : Nat
  itemErr : Bool
  /-- Retired without a CQ entry once its tiles end (R299). -/
  aborted : Bool
  /-- An invalidation it asked for has not completed (R331, R333). -/
  inval  : Bool
  /-- Its one-time effect (hold, invalidation, records) has been started. -/
  begun  : Bool
  deriving DecidableEq, Repr

/-- A reach table entry (Table MOV-7). -/
structure Reach where
  base  : Nat
  lines : Nat
  perm  : Nat
  gen   : Nat
  valid : Bool
  bay   : Nat
  ctx   : Nat
  /-- Retired until the next start (R291). -/
  retired : Bool
  deriving DecidableEq, Repr

/-- Queues, tokens, movers and the reach table. -/
structure Mov where
  /-- Queues that are assigned; 11 R274; none. -/
  queues : List (Nat × Queue)
  /-- Ops by token, 0 to 1,023; 11 R283; none. -/
  toks   : List (Nat × Op)
  /-- Tokens in the groups' dispatch queues, in order of joining; 11 R292; none. -/
  dq     : List Nat
  /-- Reach entries that differ from their state at a start; 11 R289; none. -/
  reach  : List (Nat × Reach)
  /-- Queue served last by the accept engine; 11 R283; 16,383. -/
  turn   : Nat
  /-- Queues whose durable-class entry waits under R440; 16 R440; none. -/
  durWait : List Nat
  /-- Groups whose head op waits for want of an enabled mover; 11 R292; none. -/
  noMover : List Nat
  deriving DecidableEq, Repr

/-! ### Translation -/

/-- Who waits for a translation: an op, with the operand it serves (DETAIL of Table MOV-8), an SQ read, a CQ write, a
WILLNEED. -/
inductive Waiter where
  | op (tok detail : Nat)
  | sq (q : Nat)
  | cq (tok : Nat)
  | advise (tok : Nat)
  deriving DecidableEq, Repr

/-- A TLB entry (R307). Size 0 4 KiB, 1 2 MiB, 2 1 GiB. `pf` marks pages a prefetch brought and none has used. -/
structure TlbEnt where
  bay     : Nat
  pasid   : Nat
  size    : Nat
  va      : Nat
  pa      : Nat
  present : Nat
  write   : Bool
  untr    : Bool
  pf      : Nat
  deriving DecidableEq, Repr

/-- A set of the L2 TLB. -/
structure TlbSet where
  ways : List (Nat × TlbEnt)
  plru : Nat
  deriving DecidableEq, Repr

/-- A translation in flight (R310, R316, R330). -/
structure Xlat where
  bay    : Nat
  pasid  : Nat
  page   : Nat
  write  : Bool
  demand : Bool
  who    : Waiter
  mover  : Option Nat
  epoch  : Nat
  mirror : Bool
  /-- Level of the walk and byte offset of the entry read. -/
  level  : Nat
  off    : Nat
  /-- Its op has ended or its queue has stopped (R321). -/
  cancelled : Bool
  deriving DecidableEq, Repr

/-- A fault entry (R323). -/
structure FaultE where
  mirror : Bool
  bay    : Nat
  pasid  : Nat
  va     : Nat
  write  : Bool
  time   : Nat
  waiters : List Waiter
  deriving DecidableEq, Repr

/-- A binding (R315). -/
structure Bind where
  handle : Nat
  root   : Nat
  ctx    : Nat
  deriving DecidableEq, Repr

/-- A fault ring (R325). -/
structure FRing where
  log2   : Nat
  vector : Nat
  base   : Nat
  cnt    : Nat
  deriving DecidableEq, Repr

/-- Who asked for an invalidation (R329): a host with its tag, or the op of a Scorebook sequence. -/
inductive InvSrc where
  | host (tag : Nat)
  | op (seq : Nat)
  deriving DecidableEq, Repr

/-- An invalidation: one PASID or all, and a range in which length 0 covers every VA. -/
structure Inv where
  src   : InvSrc
  bay   : Nat
  pasid : Option Nat
  va    : Nat
  len   : Nat
  deriving DecidableEq, Repr

/-- A migration hold (R333): `posted` is HTIME of the MIGRATE's CQ entry. -/
structure Hold where
  tok    : Nat
  bay    : Nat
  pasid  : Nat
  va     : Nat
  len    : Nat
  posted : Option Nat
  deriving DecidableEq, Repr

/-- Translation for movers. -/
structure Xlt where
  /-- uTLBs by mover, most recently used first; 12 R306; empty. -/
  utlb  : List (Nat × List TlbEnt)
  /-- L2 TLB by set; 12 R306; empty. -/
  l2    : List (Nat × TlbSet)
  /-- Translation slots in use, 0 to 255; 12 R310; none. -/
  slots : List (Nat × Xlat)
  /-- Bindings by owner bay * 2^20 + PASID, at most 1,024; 12 R315; none. -/
  binds : List (Nat × Bind)
  /-- Fault entries in use, 0 to 255; 12 R323; none. -/
  faults : List (Nat × FaultE)
  /-- Waiters that need a fault entry; 12 R323; none. -/
  fullWait : List Waiter
  /-- Fault rings by bay; 12 R325; none. -/
  rings : List (Nat × FRing)
  /-- Invalidations that wait for the engine, oldest first; 12 R329; none. -/
  invs  : List Inv
  /-- The invalidation that runs, HTIME of its start, and its sweep has ended; 12 R330; none. -/
  run   : Option (Inv × Nat × Bool)
  /-- Migration holds, 0 to 15; 12 R333; none. -/
  holds : List (Nat × Hold)
  /-- Bays whose host answered Response Failure; 12 R324; none. -/
  priFail : List Nat
  deriving DecidableEq, Repr

/-! ### The keep store and the Scorebook -/

/-- A record of the Scorebook ring (Table KEP-6). -/
structure RingRec where
  seq       : Nat
  queue     : Nat
  sqIdx     : Nat
  opc       : Nat
  status    : Nat
  owner     : Nat
  int       : Bool
  done      : Bool
  durable   : Bool
  noCqe     : Bool
  committed : Bool
  userTag   : Nat
  ecrc      : Nat
  time      : Nat
  deriving DecidableEq, Repr

/-- A note of an SCB_DONE record (Table KEP-4). -/
structure DoneNote where
  seq    : Nat
  status : Nat
  owner  : Nat
  noCqe  : Bool
  deriving DecidableEq, Repr

/-- What a keep store record carries (Table KEP-4). -/
inductive KBody where
  | accept (r : RingRec)
  | done (ns : List DoneNote)
  | tail (last cause time lseq tokens : Nat)
  | boot (lseq bgen time : Nat)
  | sealed (last time lseq epoch : Nat)
  | pair (es : List PsnEntry)
  | pack (es : List PsnEntry)
  | zh (item n value : Nat)
  /-- Marks as (granule, set, Poison Ledger SEQ watermark). -/
  | markDelta (ms : List (Nat × Bool × Nat))
  | markSnap (first : Nat) (ms : List Nat)
  | mapDelta (first : Nat) (es : List HEntry)
  | mapSnap (first : Nat) (es : List HEntry)
  | epoch (epoch fabric serial deltas : Nat) (snap : Bool)
  | remap (sector spare : Nat)
  deriving DecidableEq, Repr

/-- A data record with its SEQ (Table KEP-3). -/
structure KRec where
  seq  : Nat
  body : KBody
  deriving DecidableEq, Repr

/-- What stands in a log: a data record, a BATCH_COMMIT over a range of SEQ, or units that are not used. -/
inductive KUnit where
  | data (r : KRec)
  | commit (first last : Nat)
  | torn (units : Nat)
  deriving DecidableEq, Repr

/-- A sector of a log with its SECTOR record (R424); `retire` says that it is replaced at its next erase (R428). -/
structure KSec where
  idx    : Nat
  erases : Nat
  seq    : Nat
  used   : Nat
  units  : List KUnit
  retire : Bool
  deriving DecidableEq, Repr

/-- A log of one device: filled sectors oldest first, the sector written now, the erased sectors ahead, and the inactive
bank of a banked sub-area (R425). -/
structure KLog where
  full  : List KSec
  cur   : KSec
  ahead : List KSec
  other : List KSec
  deriving DecidableEq, Repr

/-- A keep store device: its logs by partition code 2 to 7, and its remapped sectors (R433). -/
structure KDev where
  logs  : List (Nat × KLog)
  remap : List (Nat × Nat)
  deriving DecidableEq, Repr

/-- A boot ledger record (Table TRU-8) or checkpoint (Table TRU-9) with its first unit of the partition (R406); a torn
record takes up its units (R427). -/
structure LdgRec where
  lseq       : Nat
  checkpoint : Bool
  torn       : Bool
  unit       : Nat
  bytes      : List Nat
  deriving DecidableEq, Repr

/-- The keep store: what both devices hold. It survives every reset. -/
structure Keep where
  /-- Nothing has been written since manufacture; 18 R470; yes (DESIGN CHOICE, log entry 30). -/
  blank  : Bool
  /-- KS0 and KS1; 16 R418; blank. -/
  devs   : List (Nat × KDev)
  /-- Image slots: Zhozha A and B, Chakacon A and B; 16 Table KEP-1; empty. -/
  images : List (Nat × Image)
  /-- Owner policy slots A and B; 15 R399; empty. -/
  policies : List (Nat × Policy)
  /-- Fabric profile slots A and B; 05 R112; empty. -/
  profiles : List (Nat × Profile)
  /-- The boot ledger, oldest first; 15 R406; empty. -/
  ledger : List LdgRec
  /-- The next unit of the boot ledger; 15 R406; 0. -/
  ldgPos : Nat
  deriving DecidableEq, Repr

/-- A batch in progress (R426): its partition and records, whether phase 1 has passed, the devices that have passed the
phase that runs, and the attempts made again per device (R428). -/
structure KBatch where
  part   : Nat
  recs   : List KRec
  phase2 : Bool
  passed : List Nat
  tries  : List Nat
  deriving DecidableEq, Repr

/-- The keep store controller. -/
structure KepRt where
  /-- The batch in progress; 16 R429; none. -/
  batch   : Option KBatch
  /-- Home map records that wait; 16 R436; none. -/
  mapPend : List KBody
  /-- Records to append again to a device, as (device, partition, record); 16 R431; none. -/
  fixes   : List (Nat × Nat × KRec)
  deriving DecidableEq, Repr

/-- The Scorebook. -/
structure Scb where
  /-- Sequences issued in this start; 16 R437; 0. -/
  issued   : Nat
  /-- The ring by slot; 16 R438; empty. -/
  ring     : List (Nat × RingRec)
  /-- Sequences whose SCB_ACCEPT awaits commit; 16 R440; none. -/
  accepts  : List Nat
  /-- Notes that wait; 16 R440; none. -/
  notes    : List DoneNote
  /-- Causes of tail commits asked for; 16 R441; none. -/
  tails    : List Nat
  /-- Last SEQ of the last committed SCB_TAIL; 16 R446; 0. -/
  tailSeq  : Nat
  /-- The SCB_BOOT record: 0 not asked for, 1 waits, 2 committed; 16 R437; 0. -/
  boot     : Nat
  /-- LSEQ of this start's boot record; 16 R464; 0. -/
  bootLseq : Nat
  /-- The SCB_SEAL record is asked for (R461); no. -/
  sealAsk  : Bool
  /-- The SCB_SEAL record is committed; no. -/
  sealed   : Bool
  /-- The fetched durable record; 16 R443; none. -/
  fetched  : Option KRec
  /-- Ordinal of the fetch in progress; 16 R443; 0. -/
  fetchSel : Nat
  deriving DecidableEq, Repr

/-! ### Fuses, firmware, management -/

/-- The fuse array (Table TRU-2), the UDS apart; it survives every reset and no blown bit returns. -/
structure Fuses where
  /-- SERIAL; 64-bit; 15 Table TRU-2; DESIGN CHOICE 0 (log entry 3). -/
  serial   : Nat
  /-- GRADE; 2-bit; DESIGN CHOICE 0 (log entry 3). -/
  grade    : Nat
  /-- PRODUCTION; DESIGN CHOICE no (log entry 3). -/
  prod     : Bool
  /-- VENDOR_KEY_HASH; DESIGN CHOICE 0 (log entry 3). -/
  vendor   : Nat
  /-- Blown bits of ZH_SVN, 0 to 64; DESIGN CHOICE 0 (log entry 3). -/
  zhSvn    : Nat
  /-- OWNER_KEY_HASH0 to 3; unfused (log entry 3). -/
  owners   : List (Option Nat)
  /-- OWNER_REVOKE; 4-bit; 0 (log entry 3). -/
  revoke   : Nat
  deriving DecidableEq, Repr

/-- An SPDM connection of one port (R398). -/
structure SpdmConn where
  /-- How far GET_VERSION, GET_CAPABILITIES and NEGOTIATE_ALGORITHMS have come: 0 to 3. -/
  stage   : Nat
  /-- 0 no session, 1 handshake, 2 established. -/
  session : Nat
  /-- The handshake asks for mutual authentication, and it has succeeded. -/
  mutAuth : Bool
  authd   : Bool
  /-- Generation of the session's keys. -/
  keys    : Nat
  /-- A large request being received: handle, next chunk, bytes so far. -/
  chunk   : Option (Nat × Nat × Nat)
  /-- A large response being sent: handle, next chunk, bytes left. -/
  large   : Option (Nat × Nat × List Nat)
  deriving DecidableEq, Repr

/-- What Zhozha holds in trusted SRAM beside the TRU and LDG registers. -/
structure Trust where
  /-- The owner policy in force; 15 R399; none. -/
  policy   : Option Policy
  /-- The Zhozha image that runs; 15 R392; none. -/
  zhImg    : Option Image
  /-- The Chakacon image that was launched; 15 R392; none. -/
  ckImg    : Option Image
  /-- A trial was reverted at this start (R392); no. -/
  reverted : Bool
  /-- The current LDG_NONCE; 15 R413; none. -/
  nonce    : Option Nat
  /-- HTIME of the release or of the last kick while the watchdog runs; 15 R403; none. -/
  wdogAt   : Option Nat
  /-- Half of WDOG_MS has been reported since; 15 R416; no. -/
  wdogHalf : Bool
  /-- HTIME of the health declaration (LDG.BOOT.HEALTH says that it runs); 15 R404; 0. -/
  healthAt : Nat
  /-- A boot record that a strict ledger holds back; 15 R410; none. -/
  held     : Option LdgRec
  /-- The service code of the mailbox call that runs or ran last, as MB_GO found it; 15 R414; 0. -/
  call     : Nat
  /-- SPDM connections by port, lead bay of a DOE or 48 for MCTP; 15 R398; none. -/
  spdm     : List (Nat × SpdmConn)
  deriving DecidableEq, Repr

/-- The I3C or SMBus target. -/
structure Mgmt where
  /-- The dynamic address; 03 R62; none. -/
  addr  : Option Nat
  /-- MGMT.STATE before the recovery that runs; 03 R63; 0. -/
  prev  : Nat
  /-- Attempts of the recovery that runs, and HTIME of the last; 03 R63; 0. -/
  tries : Nat
  at_   : Nat
  deriving DecidableEq, Repr

/-- The test access port's instructions (R66). -/
inductive TapIr where
  | idcode | bypass | sample | extest | clamp | highz | extestPulse | extestTrain
  deriving DecidableEq, Repr

/-- The test access port. It is reset by TRST_N and TMS alone. -/
structure Tap where
  /-- Instruction; 03 R66; IDCODE, as IEEE 1149.1 resets it (PRESUMED, log entry 40). -/
  ir      : TapIr
  /-- What SAMPLE/PRELOAD left in the boundary register's update stage; 03 R66; 0 (DESIGN CHOICE, log entry 40). -/
  preload : Nat
  /-- The bypass register; 03 R66; 0 (PRESUMED, log entry 40). -/
  bypass  : Bool
  deriving DecidableEq, Repr

/-! ### The hub -/

/-- The conditions of Table PAG-11 that no register field shows. -/
structure Alerts where
  /-- Deaths whose 1 ms of ALERT_N runs; 10 R251; 0. -/
  deaths     : Nat
  /-- Poison Ledger full; 10 R266; no. -/
  ledgerFull : Bool
  /-- Wear warning; 16 R444; no. -/
  wear       : Bool
  deriving DecidableEq, Repr

/-- The hub: everything a hub reset acts on, the board-side levels, and the output record. -/
structure Hub where
  /-- Register fields that differ from their reset value, by page * 2^17 + offset * 2^5 + lowest bit. -/
  regs  : List (Nat × Nat)
  /-- What the hub has sent, oldest first (the model's own record). -/
  out   : List Emit
  /-- HTIME; 64-bit; 13 R339; 0. -/
  htime : Nat
  /-- Counter of the free values drawn (the model's own field); 0 (DESIGN CHOICE, log entry 43). -/
  free  : Nat
  port  : Port
  pins  : Pins
  boot  : Boot
  mode  : ModeSt
  bays  : List (Nat × BayRt)
  perf  : Perf
  pic   : Picot
  tulle : Tulle
  alerts : Alerts
  /-- Egress queues of the bays, by bay, oldest first; 09 R234; empty. -/
  bayOut : List (Nat × List BOut)
  coh    : Coh
  prk    : Prk
  /-- The pool media, by local granule * 2^24 + TPA[29:6]; 08 R202; zero, unpoisoned (DESIGN CHOICE, log entry 50). -/
  media  : List (Nat × MLine)
  /-- Owner counts of the local granules (always-on island); 10 R269; 0. -/
  owners : List (Nat × Nat)
  dead   : Dead
  psn    : Psn
  meter  : Meter
  keep   : Keep
  kep    : KepRt
  scb    : Scb
  mov    : Mov
  xlt    : Xlt
  fuses  : Fuses
  trust  : Trust
  mgmt   : Mgmt
  tap    : Tap
  /-- Management SRAM loses its contents in the running command (a reset). -/
  sramWipe : Bool
  /-- Writes to management SRAM that the running command has made, oldest first, as (offset, bytes). -/
  sram   : List (Nat × List Nat)
  deriving DecidableEq, Repr

/-- The state. -/
structure State where
  hub     : Hub
  /-- Management SRAM: bytes by offset; 14 Table CNT-4; every byte 0 until written (DESIGN CHOICE, log entry 31). -/
  ram     : List Host.Cell
  pending : List Instr
  deriving DecidableEq, Repr

/-! ### Reset -/

def Port.reset : Port := { latches := [], stages := [], msix := [], pba := [] }

def Pins.reset : Pins :=
  { hubReset := false, qrst := 0, pfailA := false, pfailB := false, syncIn := false, syncInAt := 0, benchReq := false,
    sclLow := false, sdaLow := false, railWarn := 0, railReset := 0, refclk := true, thermtrip := false,
    syncOut := false }

def Boot.reset : Boot := { seq := .off, point := .none, coreOn := false, hclk := false, eccOk := false, zin := none, vauxLost := true }

def ModeSt.reset : ModeSt :=
  { mode := .assemble, brace := false, tier := false, reason := 0, sealCause := 0, sealPhase := 0, sealOk := true,
    sealTime := 0, toMaintain := false, toServe := false, exclA := false, exclB := false, bootExcl := false,
    quietAt := 0, pfAtA := 0, pfAtB := 0, domAt := [] }

def BayRt.reset : BayRt :=
  { flapDowns := [], holdSecs := 1, holdAt := 0, holdNow := 0, refusedAt := 0, upAt := 0, tryRate := 0, trained := none,
    hostDisabled := false, downSince := none, memSpaceEn := false, msixEn := false,
    funcMask := false, atsEn := false, pasidEn := false, priEn := false, priAlloc := 0,
    hdm := [none, none, none, none], biEn := false, ide := [], gpfFlushed := false, cacheDev := false, reqOwed := 0 }

def Perf.reset : Perf := { hcEvents := [], ovfPending := [], frozenHc := [] }

def ChanRt.reset : ChanRt := { tset := 0, armAt := 0, wrapLate := false, lastFire := none }

def Picot.reset : Picot := { chans := [], raised := [], syncAt := 0 }

def TLink.reset : TLink :=
  { up := false, admitted := false, level := 0, cost := 0, peer := 0, hello := none, auth := none,
    adv := [0, 0, 0, 0, 0, 0, 0, 0], avail := [0, 0, 0, 0, 0, 0, 0, 0], retSent := [0, 0, 0, 0, 0, 0, 0, 0],
    retOwed := [0, 0, 0, 0, 0, 0, 0, 0], retSeen := [0, 0, 0, 0, 0, 0, 0, 0], echoSent := [0, 0, 0, 0, 0, 0, 0, 0],
    echoSeen := [0, 0, 0, 0, 0, 0, 0, 0], queue := [], replay := [], rr := 0, helloAt := 0 }

def NodeRt.reset : NodeRt :=
  { present := false, dead := false, fenced := false, fencedAt := 0, mode := 0, suspect := false, hbAt := 0,
    hbSeq := none, lsaSeq := none, lsaAny := false, links := [], sealed := false, timed := false }

/-- The entry of an unmapped granule (R121). -/
def unmappedEntry : HEntry := { home := 0, valid := false, memo := false, atomic := 0, frozen := false, loc := 0 }

/-- UNCACHED. -/
def DirEnt.uncached : DirEnt :=
  { st := .uncached, p0 := 0, p1 := 0, p2 := 0, v0 := false, v1 := false, v2 := false, f0 := false }

def Chain.empty : Chain := { head := none, waiting := [], wbs := [] }

def PrkSet.empty : PrkSet := { ways := [], plru := 0 }

/-- The RLC line in I. -/
def RLine.none : RLine :=
  { st := .i, data := 0, poison := false, holders := .uncached, wasF := false, recalled := Option.none, cur := Option.none,
    waiting := [], since := 0, wbBob := 0, evicts := [], pulled := [] }

def MLine.zero : MLine := { data := 0, poison := false }

def Coh.reset : Coh :=
  { chains := [], pred := [], rlc := [], outs := [], ingress := [], hoQueue := [], staging := [], bobs := [], pulls := [], laneSeq := 0, mres := [] }

def Prk.reset : Prk :=
  { sets := [], wbBuf := [], region := [], bad := [], spec := [], waits := [], pos := 0, timedOut := [] }

def Dead.reset : Dead := { recs := [], walkAt := 0, ran := false, alerts := [] }

def Meter.reset : Meter := { lfsr := [0, 0, 0, 0, 0, 0, 0, 0], sseq := 0, sets := [], trees := [], decayAt := 0 }

def Psn.reset : Psn := { entries := [], pend := [], marks := [], sent := [] }

def Tulle.reset : Tulle :=
  { links := [], nodes := [], profile := none, digest := 0, homeMap := [], stage := [], epoch := 0, members := [], joined := false,
    routes := [], root := none, stored := none, own := none, staged := none, early := [], commitAt := none,
    fetch := none, floods := [], changedAt := 0, changed := false, lsaSeq := 0, lsaAt := 0, hbSeq := 0, sendSeq := [],
    recvSeq := [], offset := 0, slew := 0, slewAt := 0, slewDone := 0, good100 := 0, bad2000 := 0, good2000 := 0,
    handA := none, handB := [], held := [] }

/-- Sectors of a circular log, all erased. -/
def freshSecs (first n : Nat) : List KSec :=
  (List.range n).map (fun i => { idx := first + i, erases := 0, seq := i + 1, used := 1, units := [], retire := false })

/-- An empty sector. -/
def KSec.zero : KSec := { idx := 0, erases := 0, seq := 0, used := 1, units := [], retire := false }

/-- A log whose sectors are erased: `n` in use, `m` in the inactive bank. -/
def freshLog (first n m : Nat) : KLog :=
  { full := [], cur := ((freshSecs first n).head?).getD .zero, ahead := (freshSecs first n).drop 1,
    other := freshSecs (first + n) m }

/-- A blank device (Tables KEP-1, KEP-2): Scorebook 96 sectors, Poison Ledger 32, Zhozha log 1 and 1, granule marks 1 and
1, home map 5 and 5, remap area 1 and 1, by sector number within the device. -/
def KDev.fresh : KDev :=
  { logs := [(2, freshLog 744 96 0), (3, freshLog 840 32 0), (4, freshLog 874 1 1), (5, freshLog 876 1 1),
             (6, freshLog 878 5 5), (7, freshLog 888 1 1)], remap := [] }

def Keep.reset : Keep :=
  { blank := true, devs := [(0, .fresh), (1, .fresh)], images := [], policies := [], profiles := [], ledger := [], ldgPos := 0 }

def KepRt.reset : KepRt := { batch := none, mapPend := [], fixes := [] }

def Scb.reset : Scb :=
  { issued := 0, ring := [], accepts := [], notes := [], tails := [], tailSeq := 0, boot := 0, bootLseq := 0,
    sealAsk := false, sealed := false, fetched := none, fetchSel := 0 }

def Queue.reset : Queue :=
  { st := .unassigned, cause := 0, bay := 0, int := false, prio := 0, mirror := false, group := 0, sqLog2 := 0,
    cqLog2 := 0, sqBase := 0, cqBase := 0, pasid := 0, ctx := 0, vector := 0, accept := 0, complete := 0, tail := 0,
    head := 0, pushed := [] }

def Mov.reset : Mov :=
  { queues := [], toks := [], dq := [], reach := [], turn := 16383, durWait := [], noMover := [] }

def Xlt.reset : Xlt :=
  { utlb := [], l2 := [], slots := [], binds := [], faults := [], fullWait := [], rings := [], invs := [], run := none,
    holds := [], priFail := [] }

def Fuses.reset : Fuses :=
  { serial := 0, grade := 0, prod := false, vendor := 0, zhSvn := 0, owners := [none, none, none, none], revoke := 0 }

def SpdmConn.reset : SpdmConn :=
  { stage := 0, session := 0, mutAuth := false, authd := false, keys := 0, chunk := none, large := none }

def Trust.reset : Trust :=
  { policy := none, zhImg := none, ckImg := none, reverted := false, nonce := none, wdogAt := none, wdogHalf := false,
    healthAt := 0, held := none, call := 0, spdm := [] }

def Mgmt.reset : Mgmt := { addr := none, prev := 0, tries := 0, at_ := 0 }

def Tap.reset : Tap := { ir := .idcode, preload := 0, bypass := false }

def Hub.reset : Hub :=
  { regs := [], out := [], htime := 0, free := 0, port := .reset, pins := .reset, boot := .reset, mode := .reset,
    bays := [], perf := .reset, pic := .reset, tulle := .reset, alerts := { deaths := 0, ledgerFull := false, wear := false },
    bayOut := [], coh := .reset, prk := .reset, media := [], owners := [], dead := .reset, psn := .reset,
    meter := .reset, keep := .reset, kep := .reset, scb := .reset, mov := .reset,
    xlt := .reset, fuses := .reset, trust := .reset, mgmt := .reset, tap := .reset, sramWipe := false, sram := [] }

/-- The machine right after reset. -/
def State.reset : State := { hub := .reset, ram := [], pending := [] }

end Sys2Proof.Machine
end

