-- ==== Sys2Proof/Machine/Ops.lean ====
section
/-! DEFINITION. The operations every family uses: sparse maps in canonical form, the register fields, saturating
counters, the output record, the management SRAM, CRC-32C. -/

namespace Sys2Proof.Machine

/-! ### Sparse maps: lists of (key, value) with strictly rising keys -/

/-- The value listed at a key. -/
def mapGet? {α : Type} : List (Nat × α) → Nat → Option α
  | [], _ => none
  | (k, v) :: t, a => if k = a then some v else mapGet? t a

/-- The value at a key, or the default of an unlisted key. -/
def mapGet {α : Type} (m : List (Nat × α)) (k : Nat) (d : α) : α := (mapGet? m k).getD d

/-- Remove a key. -/
def mapDel {α : Type} (m : List (Nat × α)) (k : Nat) : List (Nat × α) := m.filter (fun e => e.1 != k)

/-- List a value at a key, keeping the keys in rising order. -/
def mapPut {α : Type} : List (Nat × α) → Nat → α → List (Nat × α)
  | [], k, v => [(k, v)]
  | (k', v') :: t, k, v =>
    if k = k' then (k, v) :: t
    else if k < k' then (k, v) :: (k', v') :: t
    else (k', v') :: mapPut t k v

/-- Store a value; a value equal to the default is not listed. -/
def mapSet {α : Type} [DecidableEq α] (m : List (Nat × α)) (k : Nat) (v d : α) : List (Nat × α) :=
  if v = d then mapDel m k else mapPut m k v

/-- The keys rise strictly. -/
def keysRise {α : Type} : List (Nat × α) → Bool
  | [] => true
  | [_] => true
  | a :: b :: t => decide (a.1 < b.1) && keysRise (b :: t)

/-! ### Numbers -/

/-- The bit of a number. -/
def bit (v i : Nat) : Bool := v.testBit i

/-- Bits hi down to lo of a number, given lo and the width. -/
def bits (v lo w : Nat) : Nat := v / 2 ^ lo % 2 ^ w

/-- 1 for true. -/
def b2n (b : Bool) : Nat := if b then 1 else 0

/-- Saturating increment by n in w bits. -/
def satAdd (w v n : Nat) : Nat := min (v + n) (2 ^ w - 1)

/-- Difference modulo 2^64. -/
def sub64 (a b : Nat) : Nat := (a + 2 ^ 64 - b % 2 ^ 64) % 2 ^ 64

/-- CRC-32C, reflected polynomial 0x82F63B78: one bit. -/
def crcBit (c : Nat) : Nat := if c % 2 = 1 then (c / 2) ^^^ 0x82F63B78 else c / 2

/-- CRC-32C over one byte. -/
def crcByte (c b : Nat) : Nat :=
  crcBit (crcBit (crcBit (crcBit (crcBit (crcBit (crcBit (crcBit (c ^^^ b))))))))

/-- CRC-32C register after a string of bytes. -/
def crcBytes (c : Nat) : List Nat → Nat
  | [] => c
  | b :: t => crcBytes (crcByte c (b % 256)) t

/-- CRC-32C of a string of bytes, with the initial value and final inversion of that CRC. -/
def crc32c (bs : List Nat) : Nat := crcBytes 0xFFFFFFFF bs ^^^ 0xFFFFFFFF

/-- The n low bytes of a number, little-endian (R3). -/
def leBytes : Nat → Nat → List Nat
  | 0, _ => []
  | n + 1, v => v % 256 :: leBytes n (v / 256)

/-- The number a little-endian string of bytes holds (R3). -/
def ofLeBytes : List Nat → Nat
  | [] => 0
  | b :: t => b % 256 + 256 * ofLeBytes t

/-! ### Register fields -/

/-- The key of a field in the register map. -/
def fieldKey (pg : Nat) (f : FieldDef) : Nat := pg * 131072 + f.off * 32 + f.lo

/-- The stored value of a field. -/
def fld (h : Hub) (pg : Nat) (f : FieldDef) : Nat := mapGet h.regs (fieldKey pg f) f.reset

/-- Store a field, cut to its width. -/
def setFld (h : Hub) (pg : Nat) (f : FieldDef) (v : Nat) : Hub :=
  { h with regs := mapSet h.regs (fieldKey pg f) (v % 2 ^ f.width) f.reset }

/-- A one-bit field as a truth value. -/
def flag (h : Hub) (pg : Nat) (f : FieldDef) : Bool := fld h pg f != 0

/-- Count n events in a saturating counter field. -/
def countBy (h : Hub) (pg : Nat) (f : FieldDef) (n : Nat) : Hub :=
  setFld h pg f (satAdd f.width (fld h pg f) n)

/-- Count one event in a saturating counter field. -/
def count (h : Hub) (pg : Nat) (f : FieldDef) : Hub := countBy h pg f 1

/-- The value of a 64-bit register from its two halves. -/
def fld64 (h : Hub) (pg : Nat) (lo hi : FieldDef) : Nat := fld h pg lo + 2 ^ 32 * fld h pg hi

/-- Store a 64-bit register. -/
def setFld64 (h : Hub) (pg : Nat) (lo hi : FieldDef) (v : Nat) : Hub :=
  setFld (setFld h pg lo (v % 2 ^ 32)) pg hi (v / 2 ^ 32)

/-- Count n events in a saturating 64-bit register. -/
def count64 (h : Hub) (pg : Nat) (lo hi : FieldDef) (n : Nat) : Hub :=
  setFld64 h pg lo hi (satAdd 64 (fld64 h pg lo hi) n)

/-! ### The output record -/

/-- Append to the output record. -/
def emit (h : Hub) (e : Emit) : Hub := { h with out := h.out ++ [e] }

/-! ### State -/

/-- Bytes of management SRAM. -/
def sramSize : Nat := 16 * 2 ^ 20

/-- A byte of management SRAM. -/
def ramGet (m : List Host.Cell) (a : Nat) : Byte := mapGet m a 0

/-- Write a byte of management SRAM; an offset outside it takes no write (DESIGN CHOICE, log entry 31). -/
def ramSet (m : List Host.Cell) (a : Nat) (v : Byte) : List Host.Cell := if a < sramSize then mapSet m a v 0 else m

/-- Write bytes at rising offsets. -/
def ramWrite (m : List Host.Cell) (a : Nat) : List Nat → List Host.Cell
  | [] => m
  | b :: t => ramWrite (ramSet m a (BitVec.ofNat 8 b)) (a + 1) t

/-- Apply a list of writes in order. -/
def ramApply (m : List Host.Cell) : List (Nat × List Nat) → List Host.Cell
  | [] => m
  | (a, bs) :: t => ramApply (ramWrite m a bs) t

/-- The canonical form of a memory: rising addresses, and no entry equal to what an unlisted address reads as. -/
def Memory.wf (m : List Host.Cell) : Bool := keysRise m && m.all (fun e => e.2 != 0)

/-- Act on the hub; what it wrote to management SRAM then stands there. A reset empties it first (DESIGN CHOICE, log entry 31). -/
def State.act (s : State) (f : Hub → Hub) : State :=
  let h := f s.hub
  { s with hub := { h with sram := [], sramWipe := false }, ram := ramApply (if h.sramWipe then [] else s.ram) h.sram }

/-- The hold that ends SEAL: only the supply monitors run (R18, R19, Table MOD-4). -/
def sealHeld (h : Hub) : Bool := h.mode.mode == .seal && h.mode.sealPhase == 8

/-- Act on the hub, unless it holds in SEAL (R18). -/
def State.onHub (s : State) (f : Hub → Hub) : State := s.act (fun h => if sealHeld h then h else f h)

end Sys2Proof.Machine
end

