-- ==== Sys2Proof/Machine/Operands.lean ====
section
/-! DEFINITION. Operand forms: register pages and their numbers, origins and classes, bays, quads and bonded groups,
agents, granules, slices and the hash of a line. -/

namespace Sys2Proof.Machine

/-! ### Register pages (Table CAT-1) -/

def pGLB : Nat := 0
def pPAG : Nat := 1
def pCLK : Nat := 2
def pPWR : Nat := 3
def pPIN : Nat := 4
def pMOD : Nat := 5
def pTUL : Nat := 6
def pHMAP : Nat := 7
def pTIME : Nat := 8
def pPRK : Nat := 9
def pCOH : Nat := 10
def pBOB : Nat := 11
def pRLC : Nat := 12
def pDED : Nat := 13
def pPSN : Nat := 14
def pQCTL : Nat := 15
def pXLT : Nat := 16
def pACN : Nat := 17
def pPIC : Nat := 18
def pEVT : Nat := 19
def pCNT : Nat := 20
def pSMP : Nat := 21
def pTRU : Nat := 22
def pLDG : Nat := 23
def pKEP : Nat := 24
def pSCB : Nat := 25
def pBAY (b : Nat) : Nat := 64 + b
def pMOV (m : Nat) : Nat := 112 + m

/-- The REGWIN index has a page (R472). -/
def pageExists (n : Nat) : Bool := n < 26 || (64 ≤ n && n < 144)

/-- Every page index of Table CAT-1. -/
def allPages : List Nat := List.range 26 ++ (List.range 80).map (· + 64)

/-- The TYPE code of a page (Table CAT-1). -/
def pageType (n : Nat) : Nat := if n < 26 then n + 1 else if n < 112 then 0x20 else 0x21

/-- CAP_LO of a page (Table CAT-1): the assigned ISTAT bits. -/
def pageCap (n : Nat) : Nat :=
  if n < 26 then
    ([0x0, 0x1, 0x1, 0x7F, 0x7, 0x1F, 0x1F, 0x7, 0x1F, 0x1F, 0x3, 0xF, 0x0, 0x7, 0xF, 0x3F, 0x1F, 0x3, 0x1F, 0x7,
      0x7, 0x3, 0x3, 0xF, 0x1F, 0xF] : List Nat).getD n 0
  else if n < 112 then 0x7F else 0x1

/-- The fields of a page: the header's and the block's. -/
def blockFields (n : Nat) : List FieldDef :=
  if n < 26 then
    ([fieldsGlb, fieldsPag, fieldsClk, fieldsPwr, fieldsPin, fieldsMod, fieldsTul, fieldsHmap, fieldsTime, fieldsPrk,
      fieldsCoh, fieldsBob, [], fieldsDed, fieldsPsn, fieldsQctl, fieldsXlt, fieldsAcn, fieldsPic, fieldsEvt, fieldsCnt,
      fieldsSmp, fieldsTru, fieldsLdg, fieldsKep, fieldsScb] : List (List FieldDef)).getD n []
  else if n < 112 then fieldsBay else fieldsMov

/-! ### Origins (Table PAG-3) -/

/-- Class of an access: fixed by origin and window (R91). -/
def clsOf : Origin → Cls
  | .zhozha => .z
  | .core _ => .f
  | .hostH _ => .h
  | .hostU _ => .u

/-- Rank of a class, Z highest (R9). -/
def Cls.rank : Cls → Nat
  | .z => 3 | .f => 2 | .h => 1 | .u => 0

/-- Code of a class in ERRLOG_A.CLASS and ACCERR.CLASS (Table PAG-4). -/
def Cls.code : Cls → Nat
  | .z => 0 | .f => 1 | .h => 2 | .u => 3

/-- ORIGIN code (Table PAG-3). -/
def originCode : Origin → Nat
  | .zhozha => 0
  | .core c => c.val
  | .hostH b => b.val
  | .hostU b => b.val

/-! ### Bays and bonded groups -/

/-- Quad of a bay (R26). -/
def quadOf (b : Nat) : Nat := b / 4

/-- QBOND of a quad, on the page of its first bay (R31). -/
def qbond (h : Hub) (q : Nat) : Nat := fld h (pBAY (4 * q)) Fld.BAY.ROLECFG_QBOND

/-- Lead bay of the group a bay belongs to (Table BAY-1). -/
def leadOf (h : Hub) (b : Nat) : Nat :=
  let q := quadOf b
  let i := b % 4
  match qbond h q with
  | 1 => if i < 2 then 4 * q else b
  | 2 => if i < 2 then b else 4 * q + 2
  | 3 => if i < 2 then 4 * q else 4 * q + 2
  | 4 => 4 * q
  | _ => b

/-- The bays of the group led by a bay. -/
def groupOf (h : Hub) (lead : Nat) : List Nat :=
  ((List.range 4).map (· + 4 * quadOf lead)).filter (fun b => leadOf h b == lead)

/-- A non-lead member of a bonded group. -/
def isMember (h : Hub) (b : Nat) : Bool := leadOf h b != b

/-- Role of a bay: its lead's ROLE (R31, R32). 0 U, 1 H, 2 D, 3 T. -/
def roleOf (h : Hub) (b : Nat) : Nat := fld h (pBAY (leadOf h b)) Fld.BAY.ROLECFG_ROLE

/-- LSTATE of a bay's group (R32). -/
def lstate (h : Hub) (b : Nat) : Nat := fld h (pBAY (leadOf h b)) Fld.BAY.LSTAT_LSTATE

/-- The bay's link is up and carries traffic: in the hold of SEAL only the supply monitors run (Table MOD-4). -/
def bayUp (h : Hub) (b : Nat) : Bool := lstate h b == 4 && h.mode.sealPhase != 8

/-- The lead bays of a role. -/
def leadsOf (h : Hub) (role : Nat) : List Nat :=
  (List.range 48).filter (fun b => leadOf h b == b && roleOf h b == role)

/-- What a bay holds beside its page. -/
def bayRt (h : Hub) (b : Nat) : BayRt := mapGet h.bays b .reset

/-- Change what a bay holds beside its page. -/
def modBay (h : Hub) (b : Nat) (f : BayRt → BayRt) : Hub :=
  { h with bays := mapSet h.bays b (f (bayRt h b)) .reset }

/-- The TPA line that a decoder gives for a line of HPA; none outside its range, and for a chunk of another position of
the interleave set (R33, Table BAY-2). -/
def HdmDec.line? (d : HdmDec) (hpa : Nat) : Option LineAddr :=
  let off := hpa - d.hpa
  if d.hpa ≤ hpa && hpa < d.hpa + d.lines && off / d.gran % d.ways = d.pos then
    some (d.tpa + off / (d.gran * d.ways) * d.gran + off % d.gran)
  else none

/-- TPA lines of a decoder. -/
def HdmDec.size (d : HdmDec) : Nat := d.lines / d.ways

/-- The line of HPA of a decoder's TPA line of index k. -/
def HdmDec.hpaAt (d : HdmDec) (k : Nat) : Nat := d.hpa + k / d.gran * (d.gran * d.ways) + d.pos * d.gran + k % d.gran

/-- The decoders of a bay that decode: none while CXL is not negotiated on its link (R36). -/
def hdmDecs (h : Hub) (b : Nat) : List HdmDec :=
  if flag h (pBAY b) Fld.BAY.LSTAT_CXL then (bayRt h b).hdm.filterMap id else []

/-- Stored state of a power domain (R459): 0 ON, 1 CLOSING, 2 DRAINED, 3 OFF. -/
def domState (h : Hub) (d : Nat) : Nat := fld h pPWR (Fld.PWR.DOM_STAT_STATE.nth d)

/-- The bay's quad takes new requests toward it: its domain is ON (R459). -/
def quadOpen (h : Hub) (b : Nat) : Bool := domState h (quadOf b) == 0

/-! ### Agents, nodes, lines -/

/-- Own node ID. -/
def ownNode (h : Hub) : Nat := fld h pTUL Fld.TUL.NODE_ID

/-- Node of an agent (R148). -/
def agentNode (a : AgentId) : Nat := a / 64

/-- Bay code of an agent (R148). -/
def agentBay (a : AgentId) : Nat := a % 64

/-- The RLC agent of a node. -/
def rlcAgent (n : Nat) : AgentId := n * 64 + 62

/-- The internal agent of a node. -/
def intAgent (n : Nat) : AgentId := n * 64 + 63

/-- Granule of a line: TPA[45:30]. -/
def granuleOf (line : LineAddr) : Nat := line / 2 ^ 24 % 2 ^ 16

/-- CRC-32C over TPA[45:6] as 5 bytes, little-endian (R13). -/
def lineCrc (line : LineAddr) : Nat := crc32c (leBytes 5 line)

/-- Home slice of a line (R13). -/
def sliceOf (line : LineAddr) : Nat := lineCrc line % 8

/-- A link of Tulle at its lead bay. -/
def tlink (h : Hub) (b : Nat) : TLink := mapGet h.tulle.links b .reset

/-- Change a T link. -/
def modLink (h : Hub) (b : Nat) (f : TLink → TLink) : Hub :=
  { h with tulle := { h.tulle with links := mapSet h.tulle.links b (f (tlink h b)) .reset } }

/-- A node as this hub knows it. -/
def nodeRt (h : Hub) (n : Nat) : NodeRt := mapGet h.tulle.nodes n .reset

/-- Change what this hub knows of a node. -/
def modNode (h : Hub) (n : Nat) (f : NodeRt → NodeRt) : Hub :=
  { h with tulle := { h.tulle with nodes := mapSet h.tulle.nodes n (f (nodeRt h n)) .reset } }

/-- A home map entry as it reads in an epoch with these members: one that names a node outside them reads VALID 0 (R259).
Before the first epoch no member set restricts it. -/
def entryIn (members : List Nat) (e : HEntry) : HEntry :=
  if members.isEmpty || members.contains e.home then e else { e with valid := false }

/-- Home map entry of a granule. -/
def homeEntry (h : Hub) (g : Nat) : HEntry := entryIn h.tulle.members (mapGet h.tulle.homeMap g unmappedEntry)

/-- The granule is homed on this hub. -/
def homedHere (h : Hub) (g : Nat) : Bool := (homeEntry h g).valid && (homeEntry h g).home == ownNode h

/-- Key of a line's media and directory: local granule and offset in the granule. -/
def localKey (h : Hub) (line : LineAddr) : Nat := (homeEntry h (granuleOf line)).loc * 2 ^ 24 + line % 2 ^ 24

/-- FTIME = HTIME + OFFSET (R146). -/
def ftime (h : Hub) : Nat := (h.htime + h.tulle.offset) % 2 ^ 64

end Sys2Proof.Machine
end

