-- ==== Sys2Proof/Machine/Flags.lean ====
section
/-! DEFINITION. Status and flag computations: counters and their overflow, page interrupts, MSI-X, ALERT_N, error
logs, access errors, event sources. Latencies between a cause and its flag (R103, R479) are folded into the step. -/

namespace Sys2Proof.Machine

/-! ### The counter area (R368 to R378) -/

/-- The page's counters are stopped (R370); OVF_FREEZE stops from the next hc (R378). -/
def perfStopped (h : Hub) (pg : Nat) : Bool :=
  flag h pg Fld.HDR.CCTL_FREEZE || flag h pCNT Fld.CNT.CTL_FREEZE_ALL ||
    (flag h pg Fld.HDR.CSTAT_OVF_FROZEN && !h.perf.frozenHc.contains pg)

/-- Value of counter k of a page. -/
def cval (h : Hub) (pg k : Nat) : Nat := fld64 h pg (Fld.HDR.CVAL_LO.nth k) (Fld.HDR.CVAL_HI.nth k)

/-- Store counter k of a page. -/
def setCval (h : Hub) (pg k v : Nat) : Hub := setFld64 h pg (Fld.HDR.CVAL_LO.nth k) (Fld.HDR.CVAL_HI.nth k) v

/-- Add n to counter k; an addition past 2^48 - 1 overflows (R378). -/
def cvalAdd (h : Hub) (pg k n : Nat) : Hub :=
  let v := cval h pg k + n
  let h1 := setCval h pg k (v % 2 ^ 48)
  if v < 2 ^ 48 then h1
  else
    let h2 := setFld h1 pg Fld.HDR.COVF (fld h1 pg Fld.HDR.COVF ||| 2 ^ k)
    let h3 := if flag h2 pg (Fld.HDR.CSEL_OVF_FREEZE.nth k) then
        { setFld h2 pg Fld.HDR.CSTAT_OVF_FROZEN 1 with
          perf := { h2.perf with frozenHc := pg :: h2.perf.frozenHc } }
      else h2
    if flag h3 pg (Fld.HDR.CSEL_OVF_IRQ.nth k) then
      { h3 with perf := { h3.perf with ovfPending := h3.perf.ovfPending ++ [(pg, h3.htime)] } }
    else h3

/-- Counters of a page that select event ev in a mode add n. -/
def perfAdd (h : Hub) (pg ev md n : Nat) : Hub :=
  if perfStopped h pg then h
  else
    ([0, 1, 2, 3, 4, 5, 6, 7] : List Nat).foldl
      (fun h k =>
        if fld h pg (Fld.HDR.CSEL_EVENT.nth k) = ev && fld h pg (Fld.HDR.CSEL_MODE.nth k) = md then cvalAdd h pg k n
        else h) h

/-- Event ev of a page happens, adding n to EDGE counters; the hc is noted for LEVEL counters (Table CNT-2). -/
def perfEvent (h : Hub) (pg ev n : Nat) : Hub :=
  let h1 := if h.perf.hcEvents.contains (pg, ev) then h
    else { h with perf := { h.perf with hcEvents := (pg, ev) :: h.perf.hcEvents } }
  perfAdd h1 pg ev 1 n

/-- Event number of a block counter (Table CNT-2), where it has one. -/
def blkEvent (f : FieldDef) : Option Nat :=
  if 0x100 ≤ f.off && f.off < 0x500 then some (0x200 + (f.off - 0x100) / 4) else none

/-- Count n events in a block counter, with the BLKCNT event of the page. -/
def bumpBy (h : Hub) (pg : Nat) (f : FieldDef) (n : Nat) : Hub :=
  let h1 := countBy h pg f n
  match blkEvent f with
  | some ev => perfEvent h1 pg ev n
  | none => h1

/-- Count one event in a block counter. -/
def bump (h : Hub) (pg : Nat) (f : FieldDef) : Hub := bumpBy h pg f 1

/-- Count n events in a 64-bit block counter. -/
def bump64 (h : Hub) (pg : Nat) (lo hi : FieldDef) (n : Nat) : Hub :=
  let h1 := count64 h pg lo hi n
  match blkEvent lo with
  | some ev => perfEvent h1 pg ev n
  | none => h1

/-! ### Event sources -/

/-- Raise an event source for the present hc (R356). -/
def raise (h : Hub) (src : Nat) : Hub :=
  if h.pic.raised.contains (src, h.htime) then h
  else { h with pic := { h.pic with raised := h.pic.raised ++ [(src, h.htime)] } }

/-- The event source that a hardware event of a page's ISTAT bit raises (Table PIC-6). -/
def sourceOf (pg i : Nat) : Option Nat :=
  if pg = pHMAP && i = 0 then some 76
  else if pg = pTUL && i = 2 then some 77
  else if pg = pTIME && i = 1 then some 78
  else if pg = pBOB && i = 0 then some 79
  else if pg = pQCTL && i = 1 then some 80
  else if pg = pPRK && i = 2 then some 81
  else if pg = pPSN && i = 0 then some 82
  else if pg = pDED && i = 0 then some 83
  else if pg = pXLT && i = 0 then some 86
  else none

/-! ### The page interrupt (R105, R106) -/

/-- ISTAT as it reads: on the page of a non-lead member of a bonded group every bit reads zero (R32). -/
def istat (h : Hub) (pg : Nat) : Nat :=
  if 64 ≤ pg && pg < 112 && isMember h (pg - 64) then 0 else fld h pg Fld.HDR.ISTAT

/-- The page interrupt is active. -/
def irqActive (h : Hub) (pg : Nat) : Bool := istat h pg &&& fld h pg Fld.HDR.IEN != 0

/-- DW dw of MSI-X entry i of bay b; the mask bit of an entry is set until written (R478). -/
def msixDw (h : Hub) (b i dw : Nat) : Nat := mapGet h.port.msix ((b * 2048 + i) * 4 + dw) (if dw = 3 then 1 else 0)

/-- Send, or hold pending, the MSI-X message of entry i of bay b (R106, PCIe 6.2 masking). No message is sent while
MSI-X is disabled, the link is down or the quad's domain is not ON (R459). -/
def msixSend (h : Hub) (b i : Nat) : Hub :=
  let rt := bayRt h b
  if !rt.msixEn || !bayUp h b || !quadOpen h b then h
  else if rt.funcMask || bit (msixDw h b i 3) 0 then
    if h.port.pba.contains (b * 2048 + i) then h
    else { h with port := { h.port with pba := h.port.pba ++ [b * 2048 + i] } }
  else if hb : b < 48 then emit h (.msix ⟨b, hb⟩ (msixDw h b i 0 + 2 ^ 32 * msixDw h b i 1) (msixDw h b i 2))
  else h

/-- Send the page's MSI-X message as CTL and OWNER route it (R106). -/
def msixPage (h : Hub) (pg : Nat) : Hub :=
  if flag h pg Fld.HDR.CTL_ROUTE_H && flag h pg Fld.HDR.OWNER_VALID then
    msixSend h (fld h pg Fld.HDR.OWNER_BAY) (fld h pg Fld.HDR.CTL_VECTOR)
  else h

/-! ### ALERT_N (R107) -/

/-- A condition of Table PAG-11 that belongs to the page holds. -/
def alertCond (h : Hub) (pg : Nat) : Bool :=
  (pg == pPWR && (h.mode.exclA || h.mode.exclB || h.pins.railWarn &&& 0x1C != 0 || flag h pPWR Fld.PWR.THERM_THROTTLE)) ||
  (pg == pCLK && flag h pCLK Fld.CLK.STAT_HOLDOVER) ||
  (pg == pTIME && (flag h pTIME Fld.TIME.STAT_TIME_SUSPECT || flag h pTIME Fld.TIME.STAT_FENCED ||
    flag h pTIME Fld.TIME.STAT_NO_ROOT)) ||
  (pg == pDED && h.alerts.deaths != 0) ||
  (pg == pPSN && h.alerts.ledgerFull) ||
  (pg == pKEP && (h.alerts.wear ||
    (fld h pKEP (Fld.KEP.DEV_STATE.nth 0) != 0 && fld h pKEP (Fld.KEP.DEV_STATE.nth 1) != 0)))

/-- The page contributes to ALERT_N. -/
def contributes (h : Hub) (pg : Nat) : Bool :=
  (flag h pg Fld.HDR.CTL_ROUTE_ALERT && irqActive h pg) || alertCond h pg

/-- The pages that may contribute: those with ROUTE_ALERT set and those of Table PAG-11. -/
def alertPages (h : Hub) : List Nat :=
  [pPWR, pCLK, pTIME, pDED, pPSN, pKEP] ++
    (h.regs.filter (fun e => e.1 % 131072 == 0x010 * 32 + 18)).map (fun e => e.1 / 131072)

/-- ALERT_N is asserted. -/
def alertN (h : Hub) : Bool := (alertPages h).any (contributes h)

/-- The hub can send an I3C in-band interrupt: the management bus runs as I3C (R62, R63). -/
def i3cUp (h : Hub) : Bool := fld h pPIN Fld.PIN.MGMT_STATE == 0

/-- The level that a page drives to the trusted core, or to the management cores (R106). -/
def coreLevel (h : Hub) (pg : Nat) : IrqDest → Bool
  | .trusted => flag h pg Fld.HDR.CTL_ROUTE_Z && irqActive h pg
  | .mgmt => flag h pg Fld.HDR.CTL_ROUTE_F && irqActive h pg

/-- Drive a page's level to a destination where a change at the page has changed it (R106, R479, Table PAG-7). -/
def driveLevel (before h : Hub) (pg : Nat) (d : IrqDest) : Hub :=
  if coreLevel h pg d = coreLevel before pg d then h else emit h (.irqLevel d pg (coreLevel h pg d))

/-- What follows a change at a page: the levels to the cores, the edge of its interrupt (R106, event IRQ of Table CNT-2)
and its starting to contribute to ALERT_N (R107), given the hub before the change. -/
def settle (before after : Hub) (pg : Nat) : Hub :=
  let after := driveLevel before (driveLevel before after pg .trusted) pg .mgmt
  let h1 := if irqActive after pg && !irqActive before pg then msixPage (perfEvent after pg 0x001 1) pg else after
  if contributes h1 pg && !contributes before pg then
    let h2 := if i3cUp h1 then emit h1 .ibi else h1
    if alertN before then h2 else raise h2 87
  else h1

/-- A change at a page, with what follows it. -/
def atPage (h : Hub) (pg : Nat) (f : Hub → Hub) : Hub := settle h (f h) pg

/-- A hardware event sets ISTAT bit i (R105); unassigned positions are never set (R473). -/
def setIstat (h : Hub) (pg i : Nat) : Hub :=
  if bit (pageCap pg) i then
    atPage h pg (fun h =>
      let h := match sourceOf pg i with
        | some src => raise h src
        | none => h
      let h1 := perfEvent h pg (0x040 + i) 1
      setFld h1 pg Fld.HDR.ISTAT (fld h1 pg Fld.HDR.ISTAT ||| 2 ^ i))
  else h

/-! ### Error logs -/

/-- Record an error of a block in its ERRLOG (R108). -/
def errlogAs (h : Hub) (pg code cls origin addr detail : Nat) : Hub :=
  if flag h pg Fld.HDR.ERRLOG_A_VALID then
    setFld (countBy h pg Fld.HDR.ERRLOG_B_COUNT 1) pg Fld.HDR.ERRLOG_A_MORE 1
  else
    let h := setFld h pg Fld.HDR.ERRLOG_A_VALID 1
    let h := setFld h pg Fld.HDR.ERRLOG_A_CODE code
    let h := setFld h pg Fld.HDR.ERRLOG_A_CLASS cls
    let h := setFld h pg Fld.HDR.ERRLOG_A_ORIGIN origin
    let h := setFld h pg Fld.HDR.ERRLOG_B_COUNT 1
    let h := setFld h pg Fld.HDR.ERRLOG_C_ADDR_LO addr
    let h := setFld h pg Fld.HDR.ERRLOG_F_ADDR_HI (addr / 2 ^ 32)
    let h := setFld h pg Fld.HDR.ERRLOG_D_TIME_LO h.htime
    let h := setFld h pg Fld.HDR.ERRLOG_E_TIME_HI (h.htime / 2 ^ 32)
    setFld h pg Fld.HDR.ERRLOG_G_DETAIL (detail % 2 ^ 32)

/-- Record an error that no access caused: ORIGIN 0x3F (Table PAG-4). -/
def errlog (h : Hub) (pg code addr detail : Nat) : Hub := errlogAs h pg code 0 0x3F addr detail

/-- Clear ERRLOG_A to ERRLOG_G of a page (R108). -/
def errlogClear (h : Hub) (pg : Nat) : Hub :=
  ([Fld.HDR.ERRLOG_A_VALID, Fld.HDR.ERRLOG_A_MORE, Fld.HDR.ERRLOG_A_CODE, Fld.HDR.ERRLOG_A_CLASS,
    Fld.HDR.ERRLOG_A_ORIGIN, Fld.HDR.ERRLOG_B_COUNT, Fld.HDR.ERRLOG_C_ADDR_LO, Fld.HDR.ERRLOG_D_TIME_LO,
    Fld.HDR.ERRLOG_E_TIME_HI, Fld.HDR.ERRLOG_F_ADDR_HI, Fld.HDR.ERRLOG_G_DETAIL] : List FieldDef).foldl
    (fun h f => setFld h pg f 0) h

/-! ### Access errors (R109, R110) -/

/-- The access error kinds of Table PAG-9. -/
inductive AccKind where
  | noPage | readOnlyWin | unalignedWrite | unalignedRead | partialUnit | narrowWrite | narrowRcRead
  | classWrite | classRead | locked | stateRefused | reservedEnc | rcHalfLost | stageExpired
  deriving DecidableEq, Repr

/-- Code of a kind (Table PAG-9). -/
def AccKind.code : AccKind → Nat
  | .noPage => 1 | .readOnlyWin => 2 | .unalignedWrite => 3 | .unalignedRead => 4 | .partialUnit => 5
  | .narrowWrite => 6 | .narrowRcRead => 7 | .classWrite => 8 | .classRead => 9 | .locked => 10
  | .stateRefused => 11 | .reservedEnc => 12 | .rcHalfLost => 13 | .stageExpired => 14

/-- Window code of ACCERR.WIN (Table PAG-8). -/
def winCode : Window → Nat
  | .regwin => 0 | .dbwin => 1 | .perfwin => 2

/-- The enabled bytes among the 8 bytes from the offset rounded down to a multiple of 4 (R110). -/
def accBe (a : Access) : Nat :=
  ((List.range 8).filter (fun i =>
    let byte := a.off / 4 * 4 + i
    a.off ≤ byte && byte < a.off + a.nbytes && !a.gaps.contains (byte - a.off))).foldl
    (fun acc i => acc + 2 ^ i) 0

/-- Log an access error (R110). -/
def accErr (h : Hub) (k : AccKind) (a : Access) (write : Bool) : Hub :=
  let h := bump64 h pPAG Fld.PAG.ACCERR_CNT_LO Fld.PAG.ACCERR_CNT_HI 1
  let h := setFld h pPAG Fld.PAG.KIND_SEEN (fld h pPAG Fld.PAG.KIND_SEEN ||| 2 ^ k.code)
  let h :=
    if flag h pPAG Fld.PAG.ACCERR_VALID then setFld h pPAG Fld.PAG.ACCERR_MORE 1
    else
      let h := setFld h pPAG Fld.PAG.ACCERR_PAGE a.page
      let h := setFld h pPAG Fld.PAG.ACCERR_OFFSET a.off
      let h := setFld h pPAG Fld.PAG.ACCERR_WIN (winCode a.win)
      let h := setFld h pPAG Fld.PAG.ACCERR_WRITE (b2n write)
      let h := setFld h pPAG Fld.PAG.ACCERR_KIND k.code
      let h := setFld h pPAG Fld.PAG.ACCERR_CLASS (clsOf a.origin).code
      let h := setFld h pPAG Fld.PAG.ACCERR_ORIGIN (originCode a.origin)
      let h := setFld h pPAG Fld.PAG.ACCERR_BE (accBe a)
      let h := setFld h pPAG Fld.PAG.ACCERR_VALID 1
      let h := setFld h pPAG Fld.PAG.ACCERR_TIME_LO h.htime
      setFld h pPAG Fld.PAG.ACCERR_TIME_HI (h.htime / 2 ^ 32)
  setIstat h pPAG 0

/-- A 32-bit REGWIN access. -/
def regAccess (o : Origin) (page off : Nat) : Access :=
  { origin := o, win := .regwin, page := page, off := off, nbytes := 4, gaps := [] }

end Sys2Proof.Machine
end

