-- ==== Sys2Proof/Machine/Records.lean ====
section
/-! DEFINITION. Records of the keep store: their bytes (Tables KEP-3, KEP-4, KEP-6), the committed records of a log (R430),
and what the committed records say is in force (R425, R435, R436). -/

namespace Sys2Proof.Machine

/-- The 16 bytes of a ledger entry as a number (Table DED-4). -/
def psnWord (e : PsnEntry) : Nat :=
  e.line % 2 ^ 40 + 2 ^ 40 * (e.kind % 4) + 2 ^ 42 * (e.cause % 16) + 2 ^ 46 * (e.agent % 8192) + 2 ^ 64 * (e.epoch % 2 ^ 64)

/-- A ring record as 32 bytes (Table KEP-6). -/
def ringBytes (r : RingRec) : List Nat :=
  leBytes 6 r.seq ++ leBytes 2 (r.queue % 2 ^ 14 + 2 ^ 14 * b2n r.done) ++ leBytes 4 r.sqIdx ++ [r.opc % 256] ++
    [if r.done then r.status % 256 else 0] ++ [r.owner % 64 + 64 * b2n r.int] ++
    [b2n r.durable + 2 * b2n r.noCqe + 4 * b2n r.committed] ++ leBytes 4 r.userTag ++ leBytes 4 r.ecrc ++ leBytes 8 r.time

/-- A packed home map entry (3 B). -/
def packEntry (e : HEntry) : Nat :=
  e.home % 128 + 2 ^ 7 * b2n e.valid + 2 ^ 8 * b2n e.memo + 2 ^ 9 * (e.atomic % 4) + 2 ^ 11 * (e.loc % 8192)

/-- TYPE and UNITS of a record (Table KEP-4). -/
def KBody.typ : KBody → Nat × Nat
  | .accept _ => (0x10, 1) | .done _ => (0x11, 1) | .tail .. => (0x12, 1) | .boot .. => (0x13, 1)
  | .sealed .. => (0x14, 1) | .pair _ => (0x20, 1) | .pack _ => (0x21, 16) | .zh .. => (0x30, 1)
  | .markDelta _ => (0x31, 1) | .markSnap .. => (0x32, 16) | .mapDelta .. => (0x33, 1) | .mapSnap .. => (0x34, 16)
  | .epoch .. => (0x35, 1) | .remap .. => (0x38, 1)

/-- KEY of a record (Table KEP-4). -/
def KBody.key : KBody → Nat
  | .zh .. => 2 | .remap .. => 0 | _ => 1

/-- The payload of a record before its zero padding (Table KEP-4, R464). -/
def KBody.payload : KBody → List Nat
  | .accept r => ringBytes r
  | .done ns => ns.flatMap (fun n => leBytes 6 n.seq ++ [n.status % 256, n.owner % 64 + 64 * b2n n.noCqe])
  | .tail last cause time lseq tokens =>
    leBytes 6 last ++ [cause % 256, 0] ++ leBytes 8 time ++ leBytes 8 lseq ++ leBytes 2 tokens
  | .boot lseq bgen time => leBytes 8 lseq ++ leBytes 2 bgen ++ List.replicate 6 0 ++ leBytes 8 time
  | .sealed last time lseq ep => leBytes 6 last ++ [0, 0] ++ leBytes 8 time ++ leBytes 8 lseq ++ leBytes 8 ep
  | .pair es => es.flatMap (fun e => leBytes 16 (psnWord e))
  | .pack es => es.flatMap (fun e => leBytes 16 (psnWord e))
  | .zh item n value => [item % 256, n % 256] ++ List.replicate 6 0 ++ leBytes 24 value
  | .markDelta ms => ms.flatMap (fun m =>
      leBytes 2 m.1 ++ [if m.2.1 then 1 else 2] ++ List.replicate 5 0 ++ leBytes 8 m.2.2)
  | .markSnap first ms => leBytes 2 first ++ leBytes 988 (ms.foldl (fun acc g => acc ||| 2 ^ (g - first)) 0)
  | .mapDelta first es => leBytes 2 first ++ es.flatMap (fun e => leBytes 3 (packEntry e))
  | .mapSnap first es => leBytes 2 first ++ es.flatMap (fun e => leBytes 3 (packEntry e))
  | .epoch ep fab ser deltas snap => leBytes 8 ep ++ leBytes 8 fab ++ leBytes 4 ser ++ leBytes 2 deltas ++ [b2n snap]
  | .remap sector spare => leBytes 2 sector ++ leBytes 2 spare

/-- The bytes of a record of a partition as stored (Table KEP-3). -/
def recBytes (part : Nat) (r : KRec) : List Nat :=
  let (t, u) := r.body.typ
  let p := 64 * u - 32
  let pay := (r.body.payload ++ List.replicate p 0).take p
  let head := [t, u, r.body.key, 0] ++ leBytes 8 r.seq ++ pay
  let mac := if r.body.key = 0 then List.replicate 16 0 else leBytes 16 (Config.recordMac (ofLeBytes (part :: head))).toNat
  head ++ mac ++ leBytes 4 (crc32c (head ++ mac))

/-! ### Logs -/

/-- Units of a log in order of writing. -/
def KLog.units (l : KLog) : List KUnit := l.full.flatMap (·.units) ++ l.cur.units

/-- Sectors of a log. -/
def KLog.secs (l : KLog) : List KSec := l.full ++ [l.cur] ++ l.ahead ++ l.other

/-- Of records with one SEQ, the last: the units of an abandoned batch have their SEQ reused (R423). -/
def lastOfSeq : List KRec → List KRec
  | [] => []
  | r :: t => if t.any (fun x => x.seq == r.seq) then lastOfSeq t else r :: lastOfSeq t

/-- The committed records of a log (R430): those between commits, in the SEQ range of the commit that follows. -/
def committedOf : List KUnit → List KRec → List KRec → List KRec
  | [], _, done => done
  | .data r :: t, open', done => committedOf t (open' ++ [r]) done
  | .commit a b :: t, open', done =>
    committedOf t [] (done ++ lastOfSeq (open'.filter (fun r => a ≤ r.seq && r.seq ≤ b)))
  | .torn _ :: t, open', done => committedOf t open' done

/-- Put a record among records in SEQ order, once. -/
def seqInsert (r : KRec) : List KRec → List KRec
  | [] => [r]
  | x :: t => if r.seq < x.seq then r :: x :: t else if r.seq = x.seq then x :: t else x :: seqInsert r t

/-- A device's log of a partition. -/
def devLog (k : Keep) (d part : Nat) : KLog :=
  mapGet (mapGet k.devs d .fresh).logs part { full := [], cur := .zero, ahead := [], other := [] }

/-- Committed records of a partition on one device. -/
def devRecs (k : Keep) (d part : Nat) : List KRec := committedOf (devLog k d part).units [] []

/-- State of a keep store device: 0 HEALTHY, 1 REBUILDING, 2 FAILED (R432). -/
def devState (h : Hub) (d : Nat) : Nat := fld h pKEP (Fld.KEP.DEV_STATE.nth d)

/-- Devices that take batches. -/
def activeDevs (h : Hub) : List Nat := [0, 1].filter (fun d => devState h d != 2)

/-- Healthy devices. -/
def healthyDevs (h : Hub) : List Nat := [0, 1].filter (fun d => devState h d == 0)

/-- Committed records of a partition in SEQ order: a batch counts when it is committed on at least one device (R430). -/
def keepRecs (h : Hub) (part : Nat) : List KRec :=
  ((healthyDevs h).flatMap (fun d => devRecs h.keep d part)).foldl (fun acc r => seqInsert r acc) []

/-- The last SEQ of a partition. -/
def lastSeq (h : Hub) (part : Nat) : Nat := (keepRecs h part).foldl (fun m r => max m r.seq) 0

/-! ### What is in force -/

/-- The value of a Zhozha item, the last committed governing. -/
def zhItem (h : Hub) (item n : Nat) : Option Nat :=
  (keepRecs h 4).foldl (fun acc r => match r.body with
    | .zh i m v => if i = item && m = n then some v else acc
    | _ => acc) none

/-- Granule marks in force (R435). -/
def keepMarks (h : Hub) : List (Nat × Unit) :=
  (keepRecs h 5).foldl (fun acc r => match r.body with
    | .markDelta ms => ms.foldl (fun acc m => if m.2.1 then mapPut acc m.1 () else mapDel acc m.1) acc
    | .markSnap first ms => ms.foldl (fun acc g => mapPut acc g ())
        (acc.filter (fun e => !(first ≤ e.1 && e.1 < first + 7904)))
    | _ => acc) []

/-- Ledger entries in force (R435): the latest entry of each line, unless a mark set later drops it. -/
def keepPsn (h : Hub) : List PsnEntry :=
  let all := (keepRecs h 3).flatMap (fun r => match r.body with
    | .pair es => es.map (fun e => (r.seq, e))
    | .pack es => es.map (fun e => (r.seq, e))
    | _ => [])
  let gov := all.foldl (fun acc x => acc.filter (fun y => y.2.line != x.2.line) ++ (if x.2.kind = 0 then [] else [x])) []
  let marks := (keepRecs h 5).flatMap (fun r => match r.body with
    | .markDelta ms => ms.filter (fun m => m.2.1)
    | _ => [])
  (gov.filter (fun x => !(x.2.kind == 1 && marks.any (fun m => m.1 == granuleOf x.2.line && x.1 ≤ m.2.2)))).map (·.2)

/-- The stored home map (R436), as (epoch, PROFILE_SERIAL, map). -/
def keepMap (h : Hub) : Option (Nat × Nat × List (Nat × HEntry)) :=
  let put := fun (m : List (Nat × HEntry)) (first : Nat) (es : List HEntry) =>
    es.zipIdx.foldl (fun m x => mapSet m (first + x.2) x.1 unmappedEntry) m
  let r := (keepRecs h 6).foldl
    (fun (acc : Option (Nat × Nat × List (Nat × HEntry)) × List (Nat × HEntry) × List (Nat × List HEntry)) r =>
      match r.body with
      | .mapSnap first es => (acc.1, put acc.2.1 first es, acc.2.2)
      | .mapDelta first es => (acc.1, acc.2.1, acc.2.2 ++ [(first, es)])
      | .epoch ep _ ser n snap =>
        if snap then (some (ep, ser, acc.2.1), [], [])
        else if acc.2.2.length < n then (acc.1, acc.2.1, [])
        else
          let base := match acc.1 with
            | some (_, _, m) => m
            | none => []
          (some (ep, ser, ((acc.2.2.drop (acc.2.2.length - n)).foldl (fun m x => put m x.1 x.2) base)), acc.2.1, [])
      | _ => acc) (none, [], [])
  r.1

/-- The previous boot left a seal record (R464): an SCB_SEAL after the last SCB_BOOT. -/
def keepSealed (h : Hub) : Bool :=
  (keepRecs h 2).foldl (fun acc r => match r.body with
    | .sealed .. => true
    | .boot .. => false
    | _ => acc) false

/-- Tree of the sectors of a partition on the healthy devices, for the KEP page (Table KEP-8). -/
def partSecs (h : Hub) (part : Nat) : List KSec := (healthyDevs h).flatMap (fun d => (devLog h.keep d part).secs)

end Sys2Proof.Machine
end

