-- ==== Sys2Proof/Machine/Views.lean ====
section
/-! DEFINITION. What a register field reads as: the stored value, or, for a register that only shows other state, the
value computed from that state. -/

namespace Sys2Proof.Machine

/-! ### Membership and quorum (R118), used by TUL.QUORUM -/

/-- The nodes the profile in force lists. -/
def profileNodes (h : Hub) : List Nat :=
  match h.tulle.profile with
  | some p => p.members.map (·.1)
  | none => []

/-- A member is present: the hub itself, or admitted with current heartbeats (R118). -/
def isPresent (h : Hub) (n : Nat) : Bool := n == ownNode h || (nodeRt h n).present

/-- The present members, self included. A hub in BENCH, or without an accepted profile, counts none. -/
def presentNodes (h : Hub) : List Nat := (profileNodes h).filter (isPresent h)

/-- Q = N / 2 + 1 (R118). -/
def quorumNeeded (h : Hub) : Nat := (profileNodes h).length / 2 + 1

/-- Quorum is held (R118). -/
def quorumHeld (h : Hub) : Bool :=
  let n := (profileNodes h).length
  let p := (presentNodes h).length
  n != 0 && (quorumNeeded h ≤ p ||
    (n % 2 == 0 && p == n / 2 && (presentNodes h).contains ((profileNodes h).foldl min 128)))

/-- A set of node IDs as a bit map. -/
def nodeMap (ns : List Nat) : Nat := ns.foldl (fun acc n => acc ||| 2 ^ n) 0

/-- Granules homed on this hub (HMAP.LOCAL_COUNT). -/
def localCount (h : Hub) : Nat :=
  (h.tulle.homeMap.filter (fun e => homedHere h e.1)).length

/-- A home map entry in the format of Table TUL-3. -/
def entryWord (e : HEntry) : Nat :=
  e.home % 128 + 2 ^ 7 * b2n e.valid + 2 ^ 8 * b2n e.memo + 2 ^ 9 * (e.atomic % 4) + 2 ^ 11 * b2n e.frozen +
    2 ^ 12 * (e.loc % 8192)

/-- The home map entry a word holds (Table TUL-3). -/
def wordEntry (w : Nat) : HEntry :=
  { home := bits w 0 7, valid := bit w 7, memo := bit w 8, atomic := bits w 9 2, frozen := bit w 11,
    loc := bits w 12 13 }

/-- A bit map over pages, word m of it. -/
def pageMap (p : Nat → Bool) (m : Nat) : Nat :=
  ((List.range 32).filter (fun j => pageExists (32 * m + j) && p (32 * m + j))).foldl (fun acc j => acc + 2 ^ j) 0

/-! ### Bobbins in use (R226) -/

/-- First index and size of a pool: 0 general, 1 wbp, 2 snoop, 3 management (Table BOB-1). -/
def poolRange : Nat → Nat × Nat
  | 0 => (0, 448) | 1 => (448, 32) | 2 => (480, 16) | _ => (496, 16)

/-- Bobbins of a pool of a slice in use. -/
def bobsUsed (h : Hub) (slice pool : Nat) : Nat :=
  let (b, n) := poolRange pool
  (h.coh.bobs.filter (fun e => 512 * slice + b ≤ e.1 && e.1 < 512 * slice + b + n)).length

/-- Free bobbins of a pool of a slice. -/
def bobsFree (h : Hub) (slice pool : Nat) : Nat := (poolRange pool).2 - bobsUsed h slice pool

/-- Some slice has no free general bobbin (R230). -/
def atBound (h : Hub) : Bool := (List.range 8).any (fun s => bobsFree h s 0 == 0)

/-- General bobbins of a slice held toward peer homes (R229). -/
def bobsOut (h : Hub) (slice : Nat) : Nat :=
  (h.coh.bobs.filter (fun e => e.1 / 512 == slice && e.1 % 512 < 448 && e.2.remote)).length

/-! ### The views, page by page; `none` where the stored field is what is read -/

/-- Header fields that are computed (Table PAG-2, Table CNT-1). -/
def viewHdr (h : Hub) (pg : Nat) (f : FieldDef) : Option Nat :=
  if f.off = 0x000 then some (if f.lo = 0 then pg else if f.lo = 16 then pageType pg else 0x51)
  else if f.off = 0x004 then some 0x4B484B01
  else if f.off = 0x008 then some (pageCap pg)
  else if f = Fld.HDR.ISTAT then some (istat h pg)
  else if f = Fld.HDR.STAT_IRQ then some (b2n (irqActive h pg))
  else if f = Fld.HDR.STAT_ERR then some (fld h pg Fld.HDR.ERRLOG_A_VALID)
  else if f = Fld.HDR.CSTAT_FROZEN then
    some (b2n (flag h pg Fld.HDR.CCTL_FREEZE || flag h pg Fld.HDR.CSTAT_OVF_FROZEN || flag h pCNT Fld.CNT.CTL_FREEZE_ALL))
  else none

/-- PAG: the maps of contributing and interrupting pages (Table PAG-8). -/
def viewPag (h : Hub) (f : FieldDef) : Option Nat :=
  if 0x140 ≤ f.off && f.off < 0x180 then some (pageMap (contributes h) ((f.off - 0x140) / 4))
  else if 0x180 ≤ f.off && f.off < 0x1C0 then some (pageMap (irqActive h) ((f.off - 0x180) / 4))
  else none

/-- PIN.IN shows each input (R83). -/
def viewPin (h : Hub) (f : FieldDef) : Option Nat :=
  if f.off = 0x100 then
    some (match f.lo with
      | 0 => b2n (!h.pins.pfailA)
      | 1 => b2n (!h.pins.pfailB)
      | 2 => b2n h.pins.syncIn
      | 3 => b2n (!h.pins.benchReq)
      | 4 => 0xFFF - h.pins.qrst
      | 16 => b2n (!h.pins.sclLow)
      | _ => b2n (!h.pins.sdaLow))
  else none

/-- State of a PFAIL channel (R452): 0 IDLE, 1 ASSERTED, 2 EXCLUDED. -/
def pfailState (excl asserted : Bool) : Nat := if excl then 2 else if asserted then 1 else 0

/-- The four bays of a quad are all in role U (R30). -/
def quadAllU (h : Hub) (q : Nat) : Bool := (List.range 4).all (fun i => roleOf h (4 * q + i) == 0)

/-- The agent is one of these local bays. -/
def agentIn (h : Hub) (bays : List Nat) (a : AgentId) : Bool :=
  agentNode a == ownNode h && bays.contains (agentBay a)

/-- Packets and transactions inside a quad's domain (R459): messages in its bays' egress, requests of its agents, snoop
answers due from them, translations asked of its hosts, tiles that await host bytes. -/
def quadInflight (h : Hub) (q : Nat) : Nat :=
  let bays := [4 * q, 4 * q + 1, 4 * q + 2, 4 * q + 3]
  let mine := agentIn h bays
  let reqs := fun (rs : List Req) => (rs.filter (fun r => mine r.agent)).length
  let sum := fun (l : List Nat) => l.foldl (· + ·) 0
  sum (bays.map (fun b => (mapGet h.bayOut b []).length)) +
    sum (h.coh.chains.map (fun c => reqs c.2.waiting + reqs c.2.wbs + (match c.2.head with
      | some t => b2n (mine t.req.agent) + (t.awaited.filter mine).length
      | none => 0))) +
    (h.coh.ingress.filter (fun x => mine x.req.agent)).length + (h.coh.hoQueue.filter (fun x => mine x.req.agent)).length +
    (h.coh.staging.filter (fun x => mine x.req.agent)).length + reqs h.coh.pulls +
    sum (h.coh.rlc.map (fun l => reqs l.2.waiting + reqs l.2.cur.toList + reqs l.2.evicts + (l.2.pulled.filter mine).length +
      (match l.2.recalled with
      | some r => (r.awaited.filter mine).length
      | none => 0))) +
    (h.xlt.slots.filter (fun s => !s.2.mirror && bays.contains s.2.bay)).length +
    sum (h.mov.toks.map (fun t =>
      let x := mapGet h.mov.queues t.2.q Queue.reset
      if !x.int && bays.contains x.bay then (t.2.flight.filter (·.host)).length else 0))

/-- Ops on the streams of a mover group. -/
def groupInflight (h : Hub) (g : Nat) : Nat :=
  (h.mov.toks.filter (fun t => match t.2.st with
    | .stream m _ => m / 8 == g
    | _ => false)).length

/-- DOMd_STAT.INFLIGHT (R459). -/
def domInflight (h : Hub) (d : Nat) : Nat := min 65535 (if d < 12 then quadInflight h d else groupInflight h (d - 12))

/-- PWR: rail warnings, PFAIL channels, the domain of an unused quad and what is inside a domain (R30, R452, R459). -/
def viewPwr (h : Hub) (f : FieldDef) : Option Nat :=
  if f.off = 0x100 then some h.pins.railWarn
  else if f.off = 0x108 then
    some (match f.lo with
      | 0 => pfailState h.mode.exclA h.pins.pfailA
      | 2 => pfailState h.mode.exclB h.pins.pfailB
      | _ => b2n h.mode.bootExcl)
  else if 0x180 ≤ f.off && f.off < 0x1B0 && f.lo = 0 && quadAllU h ((f.off - 0x180) / 4) then some 3
  else if 0x180 ≤ f.off && f.off < 0x1C0 && f.lo = 2 then some (domInflight h ((f.off - 0x180) / 4))
  else none

/-- MOD.STAT (Table MOD-5). -/
def viewMod (h : Hub) (f : FieldDef) : Option Nat :=
  if f.off = 0x100 then
    some (match f.lo with
      | 0 => h.mode.mode.code
      | 4 => b2n h.mode.brace
      | 5 => b2n h.mode.tier
      | 6 => h.mode.reason
      | 14 => h.mode.sealCause
      | 16 => min h.mode.sealPhase 7
      | _ => b2n (h.mode.mode == .drain && localCount h == 0))
  else none

/-- TUL: quorum, the present map, and the link that LINK_SEL names (Table TUL-6). -/
def viewTul (h : Hub) (f : FieldDef) : Option Nat :=
  let l := tlink h (fld h pTUL Fld.TUL.LINK_SEL_BAY)
  if f = Fld.TUL.QUORUM_NEEDED then some (if (profileNodes h).isEmpty then 0 else quorumNeeded h)
  else if f = Fld.TUL.QUORUM_PRESENT then some (presentNodes h).length
  else if f = Fld.TUL.QUORUM_HELD then some (b2n (quorumHeld h))
  else if 0x110 ≤ f.off && f.off < 0x120 then some (bits (nodeMap (presentNodes h)) (32 * ((f.off - 0x110) / 4)) 32)
  else if f = Fld.TUL.LINK_LEVEL then some (if l.admitted then l.level else 0)
  else if f = Fld.TUL.LINK_ADMITTED then some (b2n l.admitted)
  else if f = Fld.TUL.LINK_COST then some (if l.admitted then l.cost else 0)
  else if 0x130 ≤ f.off && f.off < 0x150 then
    some ((if f.lo = 0 then l.adv else l.avail).getD ((f.off - 0x130) / 4) 0)
  else none

/-- HMAP: epoch, the selected entries, the count of granules (Table TUL-6). -/
def viewHmap (h : Hub) (f : FieldDef) : Option Nat :=
  if f.off = 0x100 then some (h.tulle.epoch % 2 ^ 32)
  else if f.off = 0x104 then some (h.tulle.epoch / 2 ^ 32 % 2 ^ 32)
  else if f.off = 0x10C then some (entryWord (homeEntry h (fld h pHMAP Fld.HMAP.RD_INDEX)))
  else if f.off = 0x114 then some (entryWord (mapGet h.tulle.stage (fld h pHMAP Fld.HMAP.ST_INDEX) unmappedEntry))
  else if f.off = 0x120 then some (localCount h)
  else none

/-- TIME: fabric time and offset (Table TUL-6). -/
def viewTime (h : Hub) (f : FieldDef) : Option Nat :=
  if f.off = 0x100 then some (ftime h % 2 ^ 32)
  else if f.off = 0x104 then some (ftime h / 2 ^ 32)
  else if f.off = 0x108 then some (h.tulle.offset % 2 ^ 32)
  else if f.off = 0x10C then some (h.tulle.offset / 2 ^ 32)
  else none

/-- PIC.HTIME (R340). -/
def viewPic (h : Hub) (f : FieldDef) : Option Nat :=
  if f.off = 0x100 then some (h.htime % 2 ^ 32)
  else if f.off = 0x104 then some (h.htime / 2 ^ 32 % 2 ^ 32)
  else none

/-- PRK: speculation slots in use, the walk's position (Table PRK-4). -/
def viewPrk (h : Hub) (f : FieldDef) : Option Nat :=
  if f.off = 0x160 then some (min h.prk.spec.length 2047)
  else if f.off = 0x198 then some (h.prk.pos % 2 ^ 32)
  else if f.off = 0x19C then some (h.prk.pos / 2 ^ 32)
  else none

/-- BOB: the selected slice and the selected bobbin (Table BOB-8). -/
def viewBob (h : Hub) (f : FieldDef) : Option Nat :=
  let sl := fld h pBOB Fld.BOB.SLICE_SEL
  let k := fld h pBOB Fld.BOB.PEEK_SEL
  let b := mapGet? h.coh.bobs k
  if f.off = 0x110 then
    some (match f.lo with
      | 0 => bobsFree h sl 0
      | 9 => bobsFree h sl 1
      | 15 => bobsFree h sl 2
      | 20 => bobsFree h sl 3
      | _ => b2n (bobsFree h sl 0 == 0))
  else if f.off = 0x114 then
    some (if f.lo = 0 then bobsOut h sl
      else (h.coh.ingress.filter (fun x => x.slice == sl && x.lane.isSome)).length +
        (h.coh.staging.filter (fun x => x.slice == sl && x.lane.isSome)).length)
  else if f.off = 0x14C then
    some (match b with
      | none => 0
      | some b =>
        match f.lo with
        | 0 => 1
        | 2 => b2n (h.coh.chains.any (fun c => match c.2.head with
            | some t => t.req.bob == k
            | none => false))
        | 3 => b.prio
        | _ => b2n b.remote)
  else if f.off = 0x150 then some (match b with
    | some b => b.line * 64 % 2 ^ 32
    | none => 0)
  else if f.off = 0x154 then some (match b with
    | some b => b.line * 64 / 2 ^ 32
    | none => 0)
  else none

/-- DED: open records and the selected one (Table DED-5). -/
def viewDed (h : Hub) (f : FieldDef) : Option Nat :=
  let r := mapGet? h.dead.recs (fld h pDED Fld.DED.REC_SEL)
  let of := fun (g : DeadRec → Nat) => match r with
    | some r => g r
    | none => 0
  if f.off = 0x104 then some h.dead.recs.length
  else if f.off = 0x10C then
    some (of (fun r => if f.lo = 0 then r.agent else if f.lo = 13 then r.cause else if r.sweeping then 1 else 2))
  else if f.off = 0x110 then some (of (fun r => r.epoch % 2 ^ 32))
  else if f.off = 0x114 then some (of (fun r => r.epoch / 2 ^ 32))
  else if f.off = 0x118 then some (of (fun r => r.time % 2 ^ 32))
  else if f.off = 0x11C then some (of (fun r => r.time / 2 ^ 32))
  else if f.off = 0x138 then some (of (fun r => r.walkFrom % 2 ^ 32))
  else if f.off = 0x13C then some (of (fun r => r.walkFrom / 2 ^ 32))
  else none

/-- PSN: the ledger's counts and the selected entry (Table DED-5). -/
def viewPsn (h : Hub) (f : FieldDef) : Option Nat :=
  if f.off = 0x100 then some (if f.lo = 0 then h.psn.entries.length else min h.psn.pend.length 255)
  else if f.off = 0x104 then some h.psn.marks.length
  else if 0x10C ≤ f.off && f.off ≤ 0x118 then
    some (match mapGet? h.psn.entries (fld h pPSN Fld.PSN.RD_INDEX) with
      | some e => bits (psnWord e) (8 * (f.off - 0x10C)) 32
      | none => 0)
  else none

/-- ACN: counter sets in use (Table XLT-9). -/
def viewAcn (h : Hub) (f : FieldDef) : Option Nat := if f.off = 0x120 then some h.meter.sets.length else none

/-- KEP: erase counts and erased sectors of the partition PSEL names (Table KEP-8). -/
def viewKep (h : Hub) (f : FieldDef) : Option Nat :=
  let p := fld h pKEP Fld.KEP.PSEL
  let es := (partSecs h p).map (·.erases)
  if f.off = 0x110 then some (es.foldl max 0)
  else if f.off = 0x114 then some (match es with
    | [] => 0
    | e :: t => t.foldl min e)
  else if f.off = 0x118 then some (match healthyDevs h with
    | [] => 0
    | d :: _ => (devLog h.keep d p).ahead.length)
  else none

/-- Tokens held (R283, Table KEP-4). -/
def tokensHeld (h : Hub) : Nat := h.mov.toks.length

/-- A queue pair. -/
def queue (h : Hub) (q : Nat) : Queue := mapGet h.mov.queues q .reset

/-- State code of Table MOV-1. -/
def QSt.code : QSt → Nat
  | .unassigned => 0 | .idle => 1 | .enabled => 2 | .stopped => 3 | .destroying => 4

/-- Generation of an unlisted reach entry: PRK.BGEN mod 32 (R291). -/
def Reach.fresh (h : Hub) : Reach :=
  { base := 0, lines := 0, perm := 0, gen := fld h pPRK Fld.PRK.BGEN % 32, valid := false, bay := 0, ctx := 0,
    retired := false }

/-- A reach entry. -/
def reachOf (h : Hub) (i : Nat) : Reach := mapGet h.mov.reach i (.fresh h)

/-- A reach entry as 16 bytes (Table MOV-7). -/
def reachWord (r : Reach) : Nat :=
  r.base % 2 ^ 40 + 2 ^ 40 * (r.lines % 2 ^ 38) + 2 ^ 78 * (r.perm % 8) + 2 ^ 81 * (r.gen % 32) + 2 ^ 86 * b2n r.valid +
    2 ^ 87 * (r.bay % 64) + 2 ^ 96 * (r.ctx % 65536)

/-- QCTL: the queue QSEL names, the tokens and the reach entry REACH_SEL names (Table MOV-10). -/
def viewQctl (h : Hub) (f : FieldDef) : Option Nat :=
  let q := queue h (fld h pQCTL Fld.QCTL.QSEL)
  if f.off = 0x104 then
    some (match f.lo with
      | 0 => q.bay
      | 6 => b2n q.int
      | _ => b2n (q.st != .unassigned))
  else if f.off = 0x108 then
    some (match f.lo with
      | 0 => q.st.code
      | 3 => q.cause
      | 11 => q.prio
      | 14 => b2n q.mirror
      | 15 => q.group
      | 17 => q.sqLog2
      | _ => q.cqLog2)
  else if f.off = 0x10C then some q.ctx
  else if f.off = 0x110 then some q.pasid
  else if f.off = 0x114 then some q.accept
  else if f.off = 0x118 then some q.complete
  else if f.off = 0x11C then some q.tail
  else if f.off = 0x120 then some q.head
  else if f.off = 0x124 then some q.pushed.length
  else if f.off = 0x128 then some (tokensHeld h)
  else if f.off = 0x140 then some ((h.mov.reach.filter (fun e => e.2.valid)).length)
  else if 0x148 ≤ f.off && f.off ≤ 0x154 then
    some (bits (reachWord (reachOf h (fld h pQCTL Fld.QCTL.REACH_SEL))) (8 * (f.off - 0x148)) 32)
  else none

/-- The op on a stream of a mover. -/
def streamOp (h : Hub) (m s : Nat) : Option (Nat × Op) :=
  h.mov.toks.find? (fun t => t.2.st == .stream m s)

/-- The op is stalled on a fault. -/
def opStalled (h : Hub) (tok : Nat) : Bool :=
  let mine := fun (w : Waiter) => match w with
    | .op t _ => t == tok
    | _ => false
  h.xlt.faults.any (fun f => f.2.waiters.any mine) || h.xlt.fullWait.any mine

/-- MOVnn (Table MOV-11). -/
def viewMov (h : Hub) (m : Nat) (f : FieldDef) : Option Nat :=
  let sel := streamOp h m (fld h (pMOV m) Fld.MOV.STREAM_SEL)
  let mapOf := fun (p : Nat → Bool) => ((List.range 8).filter p).foldl (fun acc s => acc + 2 ^ s) 0
  if f = Fld.MOV.STAT_GROUP then some (m / 8)
  else if f = Fld.MOV.STAT_BUSY then some (mapOf (fun s => (streamOp h m s).isSome))
  else if f = Fld.MOV.STAT_STALL then
    some (mapOf (fun s => match streamOp h m s with
      | some (t, _) => opStalled h t
      | none => false))
  else if f.off = 0x10C then some (match sel with
    | some (_, o) => o.q
    | none => 0)
  else if f.off = 0x110 then some (match sel with
    | some (_, o) => o.sqIdx
    | none => 0)
  else if f.off = 0x114 then some (match sel with
    | some (_, o) => o.tilesDone
    | none => 0)
  else none

/-- XLT: slots, holds, the fault entry FSEL names (Table XLT-9). -/
def viewXlt (h : Hub) (f : FieldDef) : Option Nat :=
  let e := mapGet? h.xlt.faults (fld h pXLT Fld.XLT.FSEL)
  let of := fun (g : FaultE → Nat) => match e with
    | some e => g e
    | none => 0
  if f.off = 0x108 then
    some (match f.lo with
      | 0 => h.xlt.faults.length
      | 9 => h.xlt.slots.length
      | 18 => h.xlt.holds.length
      | _ => b2n h.xlt.run.isSome)
  else if f.off = 0x14C then
    some (match f.lo with
      | 0 => of (fun e => if e.mirror then 2 else 1)
      | 2 => of (·.bay)
      | _ => of (fun e => b2n e.write))
  else if f.off = 0x150 then some (of (·.pasid))
  else if f.off = 0x154 then some (of (fun e => e.va % 2 ^ 32))
  else if f.off = 0x158 then some (of (fun e => e.va / 2 ^ 32))
  else none

/-- Next sequence of the Scorebook (R437). -/
def nextScbSeq (h : Hub) : Nat := h.scb.issued % (2 ^ 48 - 1) + 1

/-- Oldest sequence in the ring (R438, R442). -/
def oldestScbSeq (h : Hub) : Nat := if h.scb.issued ≤ 65536 then 1 else (h.scb.issued - 65536) % (2 ^ 48 - 1) + 1

/-- The ring record that RD_SEQ selects (R442). -/
def rdRing (h : Hub) : Option RingRec :=
  let s := fld64 h pSCB Fld.SCB.RD_SEQ_LO Fld.SCB.RD_SEQ_HI % 2 ^ 48
  match mapGet? h.scb.ring (s % 65536) with
  | some r => if r.seq = s then some r else none
  | none => none

/-- Bytes of the selected ring record as an origin sees them (R442). -/
def rdBytes (h : Hub) (o : Origin) : List Nat :=
  match rdRing h with
  | none => []
  | some r =>
    let b := ringBytes r
    let own := match o with
      | .hostH b => !r.int && r.owner == b.val
      | .hostU b => !r.int && r.owner == b.val
      | _ => true
    if own then b else b.take 6 ++ List.replicate 9 0 ++ [b.getD 15 0 + 8] ++ List.replicate 16 0

/-- Bytes of the fetched durable record as an origin sees them (R443). -/
def durBytes (h : Hub) (o : Origin) : List Nat :=
  match h.scb.fetched with
  | none => []
  | some r =>
    let b := recBytes 2 r
    let mine := fun (own : Nat) (int : Bool) => match o with
      | .hostH b => !int && own == b.val
      | .hostU b => !int && own == b.val
      | _ => true
    match r.body with
    | .accept x => if mine x.owner x.int then b else b.take 18 ++ List.replicate 26 0 ++ b.drop 44
    | .done ns => b.take 12 ++ ns.flatMap (fun n => leBytes 6 n.seq ++
        (if mine n.owner false then [n.status % 256, n.owner % 64 + 64 * b2n n.noCqe] else [0, 0])) ++
        b.drop (12 + 8 * ns.length)
    | _ => b

/-- Four bytes of a string as a word. -/
def word4 (b : List Nat) (i : Nat) : Nat := ofLeBytes ((b.drop (4 * i)).take 4)

/-- SCB: sequences, pending counts, the records RD_SEQ and FETCH select (Table KEP-9), as an origin sees them. -/
def viewScb (h : Hub) (o : Origin) (f : FieldDef) : Option Nat :=
  if f.off = 0x100 then some (nextScbSeq h % 2 ^ 32)
  else if f.off = 0x104 then some (nextScbSeq h / 2 ^ 32)
  else if f.off = 0x108 then some (oldestScbSeq h % 2 ^ 32)
  else if f.off = 0x10C then some (oldestScbSeq h / 2 ^ 32)
  else if f.off = 0x110 then some (h.scb.tailSeq % 2 ^ 32)
  else if f.off = 0x114 then some (h.scb.tailSeq / 2 ^ 32)
  else if f = Fld.SCB.STAT_PEND_ACCEPT then some h.scb.accepts.length
  else if f = Fld.SCB.STAT_PEND_DONE then some (min h.scb.notes.length 511)
  else if f = Fld.SCB.STAT_RD_HIT then some (b2n (rdRing h).isSome)
  else if 0x124 ≤ f.off && f.off ≤ 0x140 then some (word4 (rdBytes h o) ((f.off - 0x124) / 4))
  else if f.off = 0x14C then some (keepRecs h 2).length
  else if 0x180 ≤ f.off && f.off ≤ 0x1BC then some (word4 (durBytes h o) ((f.off - 0x180) / 4))
  else none

/-- BAYnn: a non-lead member shows the lead's link (R32); LEAD and MEMBER follow the bond. -/
def viewBay (h : Hub) (b : Nat) (f : FieldDef) : Option Nat :=
  if f = Fld.BAY.LSTAT_LEAD then some (leadOf h b)
  else if f = Fld.BAY.LSTAT_MEMBER then some (b2n (isMember h b))
  else if isMember h b then
    if f = Fld.BAY.ROLECFG_ROLE || (f.off = 0x108 && f != Fld.BAY.LSTAT_POL_INV) || f.off = 0x10C || f.off = 0x114 then
      some (fld h (pBAY (leadOf h b)) f)
    else if 0x118 ≤ f.off && f.off ≤ 0x12C then some 0
    else none
  else none

/-- TRU: WDOG_LEFT counts down the whole ms left of WDOG_MS (R403, Table TRU-11). -/
def viewTru (h : Hub) (f : FieldDef) : Option Nat :=
  if f.off = 0x114 then
    match h.trust.wdogAt, h.trust.policy with
    | some t, some p => some ((p.wdogMs * 2000000 - (h.htime - t)) / 2000000)
    | _, _ => none
  else none

/-- The value of a field as read. -/
def viewField (h : Hub) (pg : Nat) (f : FieldDef) : Nat :=
  let v : Option Nat :=
    if f.off < 0x100 then viewHdr h pg f
    else if pg < 26 then
      match pg with
      | 1 => viewPag h f
      | 3 => viewPwr h f
      | 4 => viewPin h f
      | 5 => viewMod h f
      | 6 => viewTul h f
      | 7 => viewHmap h f
      | 8 => viewTime h f
      | 9 => viewPrk h f
      | 11 => viewBob h f
      | 13 => viewDed h f
      | 14 => viewPsn h f
      | 15 => viewQctl h f
      | 16 => viewXlt h f
      | 17 => viewAcn h f
      | 22 => viewTru h f
      | 24 => viewKep h f
      | 25 => viewScb h .zhozha f
      | 18 => viewPic h f
      | _ => none
    else if pg < 112 then viewBay h (pg - 64) f
    else viewMov h (pg - 112) f
  v.getD (fld h pg f)

/-- The value of a field as an origin reads it: the journal hides other owners' records (R442, R443). -/
def viewFor (h : Hub) (o : Origin) (pg : Nat) (f : FieldDef) : Nat :=
  if pg = pSCB && 0x100 ≤ f.off then (viewScb h o f).getD (fld h pg f) else viewField h pg f

end Sys2Proof.Machine
end

