-- ==== Sys2Proof/Machine/Time.lean ====
section
/-! DEFINITION. The passing of time: HTIME and everything the spec counts each hc. A row that happens at a stated time
moves HTIME on to that time where it still lies ahead; an idle step lets one hc pass. -/

namespace Sys2Proof.Machine

/-- Value of an occupancy source (Table CNT-3). -/
def occupancy (h : Hub) (pg ev : Nat) : Nat :=
  if pg = pBOB then
    if 0x300 ≤ ev && ev < 0x308 then bobsUsed h (ev - 0x300) 0
    else if ev = 0x308 then (List.range 8).foldl (fun n s => n + bobsUsed h s 1) 0
    else if ev = 0x309 then
      (h.coh.ingress.filter (fun x => x.lane.isSome)).length + (h.coh.staging.filter (fun x => x.lane.isSome)).length
    else 0
  else if pg = pQCTL then if ev = 0x300 then tokensHeld h else 0
  else if pg = pPRK then if ev = 0x300 then h.prk.spec.length else 0
  else if pg = pXLT then
    if ev = 0x300 then h.xlt.faults.length else if ev = 0x301 then h.xlt.slots.length else 0
  else if pg = pSMP then if ev = 0x300 then fld h pSMP Fld.SMP.INFLIGHT else 0
  else if 64 ≤ pg && pg < 112 then
    if ev = 0x300 then (h.coh.ingress.filter (fun x => agentIn h [pg - 64] x.req.agent)).length else 0
  else 0

/-- What one hc adds to a counter in LEVEL or SUM mode, or to CYCLES in EDGE mode (Table CNT-2). -/
def perHc (h : Hub) (pg ev md : Nat) : Nat :=
  if md = 1 then b2n (ev == 0)
  else if md = 2 then
    if ev = 0 then 1
    else if ev = 1 then b2n (irqActive h pg)
    else if 0x040 ≤ ev && ev < 0x060 then b2n (bit (istat h pg) (ev - 0x040))
    else if 0x300 ≤ ev then b2n (occupancy h pg ev != 0)
    else b2n (h.perf.hcEvents.contains (pg, ev))
  else if md = 3 then occupancy h pg ev
  else 0

/-- The pages with a counter select that differs from reset. -/
def countingPages (h : Hub) : List Nat :=
  ((h.regs.filter (fun e => 0x080 ≤ e.1 % 131072 / 32 && e.1 % 131072 / 32 < 0x0A0)).map (fun e => e.1 / 131072)).eraseDups

/-- Let the counters of the counter areas see n hc pass. -/
def perfHc (h : Hub) (n : Nat) : Hub :=
  let h1 := (countingPages h).foldl
    (fun acc pg =>
      if perfStopped acc pg then acc
      else ([0, 1, 2, 3, 4, 5, 6, 7] : List Nat).foldl
        (fun acc k =>
          let ev := fld h pg (Fld.HDR.CSEL_EVENT.nth k)
          let md := fld h pg (Fld.HDR.CSEL_MODE.nth k)
          let once := 0x200 ≤ ev && ev < 0x300
          let a := perHc h pg ev md * (if once then 1 else n)
          if a = 0 then acc else cvalAdd acc pg k a) acc) h
  { h1 with perf := { h1.perf with hcEvents := [], frozenHc := [] } }

/-- What a compare channel holds beside its registers. -/
def chanRt (h : Hub) (c : Nat) : ChanRt := mapGet h.pic.chans c .reset

/-- COUNT of a PERIOD channel counts hc from its arm point on, up to INTERVAL - 1, from where PERIOD_WRAP takes it to 0
(R348). A count that a new INTERVAL has left behind stays until then. -/
def periodHc (h : Hub) : Hub :=
  ((List.range 64).filter (fun c => fld h pPIC (Fld.PIC.CH_CTL_MODE.nth c) == 3)).foldl
    (fun h c =>
      let x := chanRt h c
      let iv := fld h pPIC (Fld.PIC.CH_INTERVAL.nth c)
      if h.htime < x.armAt then h
      else
        let v := sub64 (if x.wrapLate then x.armAt else h.htime) x.tset
        setFld h pPIC (Fld.PIC.CH_COUNT.nth c) (if x.wrapLate || iv = 0 then v else min v (iv - 1))) h

/-- A reserved pool of some slice is empty (R228). -/
def poolEmpty (h : Hub) (pool : Nat) : Bool := (List.range 8).any (fun s => bobsFree h s pool == 0)

/-- A request waits under the cap of R229. -/
def outCapped (h : Hub) : Bool :=
  let capped := fun (slice : Nat) (line : LineAddr) =>
    decide (!homedHere h (granuleOf line) && fld h pBOB Fld.BOB.OUT_MAX ≤ bobsOut h slice)
  h.coh.ingress.any (fun x => x.pool == 0 && capped x.slice x.req.line) ||
    h.coh.staging.any (fun x => (match x.req.op with
      | .memWr .. =>
        let e := (mapGet h.coh.rlc x.req.line .none).holders
        !(e.st == .owned && e.p0 == x.req.agent)
      | _ => false) && capped x.slice x.req.line)

/-- Acceptance of a durable-class entry waits: four records await commit, fewer than two erased sectors lie ahead in the
durable area, or no device is HEALTHY (R440, R434). -/
def durBlocked (h : Hub) : Bool :=
  4 ≤ h.scb.accepts.length || (healthyDevs h).isEmpty ||
    (healthyDevs h).any (fun d => decide ((devLog h.keep d 2).ahead.length < 2))

/-- Time spent at the bounds of Table BOB-6 is counted (R219, R228 to R230, R283, R323,
R440). -/
def boundHc (h : Hub) (n : Nat) : Hub :=
  let h := if atBound h then bump64 h pBOB Fld.BOB.BOUND_HC_LO Fld.BOB.BOUND_HC_HI n else h
  let h := if poolEmpty h 1 then bumpBy h pBOB Fld.BOB.WBP_FULL_HC n else h
  let h := if poolEmpty h 2 then bumpBy h pBOB Fld.BOB.SNP_FULL_HC n else h
  let h := if poolEmpty h 3 then bumpBy h pBOB Fld.BOB.MGT_FULL_HC n else h
  let h := if outCapped h then bumpBy h pBOB Fld.BOB.OUT_CAP_HC n else h
  let h := if 1024 ≤ tokensHeld h then bump64 h pQCTL Fld.QCTL.TOKEN_FULL_HC_LO Fld.QCTL.TOKEN_FULL_HC_HI n else h
  let h := if 256 ≤ h.xlt.faults.length && !h.xlt.fullWait.isEmpty then
    bump64 h pXLT Fld.XLT.FAULT_FULL_HC_LO Fld.XLT.FAULT_FULL_HC_HI n else h
  let h := if !h.mov.durWait.isEmpty && durBlocked h then
    bump64 h pSCB Fld.SCB.DUR_WAIT_HC_LO Fld.SCB.DUR_WAIT_HC_HI n else h
  if 1024 ≤ h.prk.spec.length then bump64 h pPRK Fld.PRK.SPEC_FULL_HC_LO Fld.PRK.SPEC_FULL_HC_HI n else h

/-- OFFSET follows the slew of the last exchange: its steps, one hc each, are spread evenly over the 125 µs between
exchanges (R137). -/
def slewHc (h : Hub) : Hub :=
  let t := h.tulle
  let k := t.slew.natAbs
  let done := min k (k * (h.htime - t.slewAt) / 250000)
  let n := done - t.slewDone
  if n = 0 then h
  else
    let off := if t.slew < 0 then sub64 t.offset n else (t.offset + n) % 2 ^ 64
    { h with tulle := { t with offset := off, slewDone := done } }

/-- SYNC_IN falls again: a pulse of the shortest length that R355 allows, since no row reports the fall (DESIGN CHOICE, log
entry 79). -/
def syncInHc (h : Hub) : Hub :=
  if h.pins.syncIn && h.pins.syncInAt + 2000 ≤ h.htime then { h with pins := { h.pins with syncIn := false } } else h

/-- n hc pass. Nothing counts hc until HCLK drives the island (R75, R339). -/
def advance (h : Hub) (n : Nat) : Hub :=
  if n = 0 || !h.boot.hclk then h
  else
    let h := boundHc (perfHc h n) n
    let h := slewHc { h with htime := (h.htime + n) % 2 ^ 64 }
    let h := if h.mode.brace && h.mode.mode == .serve then bump64 h pPWR Fld.PWR.BRACE_HC_LO Fld.PWR.BRACE_HC_HI n else h
    periodHc (syncInHc h)

/-- Time passes until HTIME is t, where t lies ahead. -/
def advanceTo (h : Hub) (t : Nat) : Hub := advance h (t - h.htime)

end Sys2Proof.Machine
end

