-- ==== Sys2Proof/Machine/Egress.lean ====
section
/-! DEFINITION. Sending and receiving: routes and next hops (R116, R117, R128, R129), flows (R131), the queues of the
T links with their credits (R133 to R135), the egress queues of the bays (R234, R236). -/

namespace Sys2Proof.Machine

/-! ### Opcodes: channel and size (Tables COH-5, TUL-9) -/

/-- VC of an opcode. -/
def vcOf (opc : Nat) : Nat :=
  let o := opc % 128
  if o < 0x10 then 0
  else if o < 0x20 then 1
  else if o < 0x30 then 2
  else if o < 0x40 then 3
  else if o < 0x50 then 4
  else if o < 0x60 then 5
  else if o < 0x70 then 6
  else 7

/-- Credit units of a message. -/
def unitsOf (opc : Nat) (body : Payload) : Nat :=
  match opc % 128 with
  | 0x06 => 5 | 0x07 => 3 | 0x08 => 5
  | 0x30 => 5 | 0x31 => 2 | 0x32 => 5
  | 0x40 => 5 | 0x41 => 5 | 0x50 => 5
  | 0x60 => 7 | 0x61 => 6
  | 0x62 => match body with
    | .lsa _ links => 2 + (links.length + 3) / 4
    | _ => 2
  | 0x63 => 6
  | 0x64 => match body with
    | .propMap _ _ es => 1 + (16 + 6 * es.length + 15) / 16
    | _ => 3
  | 0x65 => 2 | 0x66 => 2 | 0x67 => 2 | 0x68 => 2
  | 0x69 => match body with
    | .mapData _ _ es => 1 + (16 + 4 * es.length + 15) / 16
    | _ => 3
  | 0x6A => 3 | 0x6C => 2 | 0x6D => 2 | 0x6E => 4 | 0x6F => 5
  | 0x70 => 2 | 0x71 => 3 | 0x72 => 3
  | _ => 1

/-- Credits a receiver advertises (Table TUL-4). -/
def advertised : List Nat := [256, 256, 256, 1280, 640, 640, 64, 16]

/-! ### Routes (R116, R128) -/

/-- A link-state database: the stored links of each origin, by node. -/
abbrev Lsdb := List (Nat × List LsaLink)

/-- The link-state database as it stands (R116). -/
def lsdbOf (h : Hub) : Lsdb := (h.tulle.nodes.filter (fun e => e.2.lsaSeq.isSome)).map (fun e => (e.1, e.2.links))

/-- A link of a's LSA enters route computation: the LSA of its peer lists a too (R116). -/
def linkCounts (db : Lsdb) (a : Nat) (l : LsaLink) : Bool := (mapGet db l.peer []).any (fun k => k.peer == a)

/-- One relaxation of the distances to a destination. -/
def relax (db : Lsdb) (ds : List (Nat × Nat)) : List (Nat × Nat) :=
  db.foldl (fun ds e =>
    e.2.foldl (fun ds l =>
      match mapGet? ds l.peer with
      | some d =>
        if linkCounts db e.1 l && (match mapGet? ds e.1 with
          | some da => l.cost + d < da
          | none => true) then mapPut ds e.1 (l.cost + d) else ds
      | none => ds) ds) ds

/-- Repeat the relaxation. -/
def relaxN (db : Lsdb) : Nat → List (Nat × Nat) → List (Nat × Nat)
  | 0, ds => ds
  | n + 1, ds => relaxN db n (relax db ds)

/-- Least total cost from each node to a destination. -/
def distancesTo (db : Lsdb) (dst : Nat) : List (Nat × Nat) := relaxN db db.length [(dst, 0)]

/-- Insert a next hop, ordered by total cost, node and bay. -/
def hopInsert (x : Nat × Nat × Nat) : List (Nat × Nat × Nat) → List (Nat × Nat × Nat)
  | [] => [x]
  | y :: t =>
    if x.1 < y.1 || (x.1 == y.1 && (x.2.1 < y.2.1 || (x.2.1 == y.2.1 && x.2.2 ≤ y.2.2))) then x :: y :: t
    else y :: hopInsert x t

/-- Up to four next hops of a node toward a destination, as (node, own lead bay) (R128). -/
def hopsTo (db : Lsdb) (own dst : Nat) : List (Nat × Nat) :=
  let ds := distancesTo db dst
  let cands := ((mapGet db own []).filter (fun l => linkCounts db own l)).foldl
    (fun acc l => match mapGet? ds l.peer with
      | some d => hopInsert (l.cost + d, l.peer, l.bay) acc
      | none => acc) []
  match cands with
  | [] => []
  | c :: _ => ((cands.filter (fun x => x.1 == c.1)).take 4).map (fun x => (x.2.1, x.2.2))

/-- The routes of a node that a link-state database gives (R128). -/
def computeRoutes (db : Lsdb) (own : Nat) : List (Nat × List (Nat × Nat)) :=
  ((db.map (·.1)).filter (· != own)).foldl (fun m d =>
    let hs := hopsTo db own d
    if hs.isEmpty then m else mapPut m d hs) []

/-- The next hops in force (R128, R130). To a node that is no member of the epoch, or before any epoch, no epoch gives a
route, and messages take the paths of the present LSDB (DESIGN CHOICE, log entry 20). -/
def nextHops (h : Hub) (dst : Nat) : List (Nat × Nat) :=
  if h.tulle.members.contains dst then mapGet h.tulle.routes dst [] else hopsTo (lsdbOf h) (ownNode h) dst

/-- The route hash (R129). -/
def routeHash (src dst line : Nat) : Nat := crc32c ([src % 128, dst % 128] ++ leBytes 5 (line / 64 % 2 ^ 34))

/-- The lead bay a message leaves by (R129). The source of a forwarded form is the forwarding hub. -/
def hopFor (h : Hub) (hd : Hdr) : Option Nat :=
  let hs := nextHops h hd.dstn
  let src := if 128 ≤ hd.opc then hd.tag % 128 else agentNode hd.src
  (hs[routeHash src hd.dstn (if hd.opc % 128 < 0x60 then hd.addr else 0) % hs.length]?).map (·.2)

/-! ### The queues of a T link -/

/-- Put a message at the end of a link's queue. It stands at the head of its source queue when none of that source and
channel waits before it (R236). -/
def linkPut (h : Hub) (b : Nat) (m : TMsg) : Hub :=
  modLink h b (fun l => { l with queue := l.queue ++ [{ m with since := h.htime }] })

/-- Route a message; without a next hop it is held (R130). -/
def routeMsg (h : Hub) (m : TMsg) : Hub :=
  match hopFor h m.hdr with
  | some b => linkPut h b m
  | none => { h with tulle := { h.tulle with held := h.tulle.held ++ [m] } }

/-- Next sequence number of a flow toward a node on a VC; the count moves on (R131). -/
def takeSeq (h : Hub) (dst vc : Nat) : Nat × Hub :=
  let k := dst * 8 + vc
  let n := mapGet h.tulle.sendSeq k 0
  (n, { h with tulle := { h.tulle with sendSeq := mapSet h.tulle.sendSeq k ((n + 1) % 65536) 0 } })

/-- Source index of internal agents (R236): after bays, T links, mover streams and the RLC share. -/
def srcInternal : Nat := 513

/-- Source index of the RLC share. -/
def srcRlc : Nat := 512

/-- Source index of a T link. -/
def srcLink (b : Nat) : Nat := 64 + b

/-- Source index of a mover stream. -/
def srcMover (m s : Nat) : Nat := 128 + m * 8 + s

/-- The source queue of this hub's own messages on a VC: that of the RLC share where only it sends, else that of the internal
agents, so that each flow's messages come from one queue (R234). -/
def srcOwn (vc : Nat) : Nat := if vc = 0 || vc = 4 || vc = 5 then srcRlc else srcInternal

/-- Send a unicast message of this hub (R131, R132, R156). -/
def sendMsg (h : Hub) (dst opc src tag addr prio : Nat) (poison : Bool) (attr : Nat) (body : Payload) : Hub :=
  let (n, h1) := takeSeq h dst (vcOf opc)
  routeMsg h1 { hdr := { opc := opc, src := src, dstn := dst, tag := tag, addr := addr, seq := n, hops := 31, prio := prio,
                         poison := poison, attr := attr }, body := body, src := srcOwn (vcOf opc), since := 0 }

/-- Send a link-local message, or one copy of a flooded one, to the peer of a link (R144). -/
def sendLink (h : Hub) (b : Nat) (opc origin : Nat) (hops attr : Nat) (body : Payload) : Hub :=
  let peer := (tlink h b).peer
  let (n, h1) := takeSeq h peer (vcOf opc)
  linkPut h1 b { hdr := { opc := opc, src := intAgent origin, dstn := peer, tag := 0, addr := 0, seq := n, hops := hops,
                          prio := 0, poison := false, attr := attr }, body := body, src := srcInternal, since := 0 }

/-- The lead bays of the admitted links, ascending. -/
def admittedLinks (h : Hub) : List Nat := (h.tulle.links.filter (fun e => e.2.admitted && e.2.up)).map (·.1)

/-- Flood a message of this hub (R144). -/
def flood (h : Hub) (opc : Nat) (body : Payload) : Hub :=
  (admittedLinks h).foldl (fun h b => sendLink h b opc (ownNode h) 31 1 body) h

/-- Log a drop (R132). -/
def dropLog (h : Hub) (hd : Hdr) : Hub :=
  let h := bump h pTUL Fld.TUL.DROP_CNT
  let h := errlog h pTUL 2 (if hd.opc % 128 < 0x60 then hd.addr * 64 else 0)
    (hd.opc + 2 ^ 8 * (hd.src % 8192) + 2 ^ 21 * (hd.dstn % 128))
  setIstat h pTUL 4

/-- Forward a new flooded copy on every admitted link but the one it arrived on; with no hop left it is a drop (R132,
R144). -/
def floodOn (h : Hub) (b : Nat) (hd : Hdr) (body : Payload) : Hub :=
  let outs := (admittedLinks h).filter (· != b)
  if hd.hops = 0 then dropLog h hd
  else outs.foldl (fun h b' => sendLink h b' hd.opc (agentNode hd.src) (hd.hops - 1) 1 body) h

/-! ### Receiving -/

/-- Credits freed at this end, to be returned in a credit block (R133, R134). -/
def oweCredits (h : Hub) (b vc n : Nat) : Hub :=
  modLink h b (fun l => { l with retOwed := l.retOwed.set vc (l.retOwed.getD vc 0 + n) })

/-- Judge a message by its flow's sequence; false for a copy already accepted (R131). -/
def flowAccept (h : Hub) (srcNode vc seq : Nat) : Hub × Bool :=
  let k := srcNode * 8 + vc
  let e := mapGet h.tulle.recvSeq k 0
  if (seq + 65536 - e) % 65536 < 32768 then
    ({ h with tulle := { h.tulle with recvSeq := mapSet h.tulle.recvSeq k ((seq + 1) % 65536) 0 } }, true)
  else (bump h pTUL Fld.TUL.DUP_CNT, false)

/-- The node whose flow a message belongs to: the forwarding hub of a forwarded form, the sending neighbour of a
flooded or link-local message, otherwise the source (R131, R144, R483). -/
def flowNode (h : Hub) (b : Nat) (hd : Hdr) : Nat :=
  let o := hd.opc % 128
  if 128 ≤ hd.opc then hd.tag % 128
  else if o = 0x60 || o = 0x61 || o = 0x62 || o = 0x63 || o = 0x64 || o = 0x67 || o = 0x6C || o = 0x72 then (tlink h b).peer
  else agentNode hd.src

/-- A message arrives on a T link: dropped on a link that is down or not admitted, forwarded when it is for another
node, discarded when it is a copy; true when this hub is to handle it. `hold` leaves its credits with its buffer; those of
a message passed on stay with it until it leaves (R133). -/
def receive (h : Hub) (b : Nat) (hd : Hdr) (body : Payload) (hold : Bool) : Hub × Bool :=
  let l := tlink h b
  let o := hd.opc % 128
  let vc := vcOf hd.opc
  if !l.up || h.mode.sealPhase = 8 then (h, false)
  else if !l.admitted && o != 0x60 && o != 0x61 then (oweCredits h b vc (unitsOf hd.opc body), false)
  else if hd.dstn != ownNode h && o != 0x60 && o != 0x61 then
    if hd.hops = 0 then (dropLog (oweCredits h b vc (unitsOf hd.opc body)) hd, false)
    else (routeMsg h { hdr := { hd with hops := hd.hops - 1 }, body := body, src := srcLink b, since := 0, link := some b },
      false)
  else if o = 0x60 then (oweCredits h b vc (unitsOf hd.opc body), true)
  else
    let (h1, ok) := flowAccept h (flowNode h b hd) vc hd.seq
    (if hold && ok then h1 else oweCredits h1 b vc (unitsOf hd.opc body), ok)

/-! ### Egress arbitration (R129, R133 to R135, R234 to R238) -/

/-- The queue for which a translation is looked up. -/
def waiterQueue (h : Hub) : Waiter → Option Nat
  | .sq q => some q
  | .op t _ => (mapGet? h.mov.toks t).map (·.q)
  | .cq t => (mapGet? h.mov.toks t).map (·.q)
  | .advise t => (mapGet? h.mov.toks t).map (·.q)

/-- The translation slot whose walk a mover's request reads a table line for (R315). -/
def walkSlot (h : Hub) : Who → Option Xlat
  | .mover t _ => if t < 1024 then none else mapGet? h.xlt.slots (t - 1024)
  | _ => none

/-- The queue for which a mover's request is made. -/
def whoQueue (h : Hub) (w : Who) : Option Nat :=
  match walkSlot h w, w with
  | some x, _ => waiterQueue h x.who
  | none, .mover t _ => (mapGet? h.mov.toks t).map (·.q)
  | none, _ => none

/-- Base priority of a request's source, as it stands now (R235, R237); of another than a bay or a mover, that given. -/
def whoPrio (h : Hub) (w : Who) (p : Nat) : Nat :=
  match w with
  | .host .. => fld h pBOB Fld.BOB.PRI_H
  | .dev _ => fld h pBOB Fld.BOB.PRI_D
  | _ => match whoQueue h w with
    | some q => (queue h q).prio
    | none => p

/-- The request of this hub that a message on VC0 carries: it waits in the RLC under the message's TAG. -/
def ownRequest (h : Hub) (m : TMsg) : Option Req :=
  if m.hdr.opc < 8 && agentNode m.hdr.src = ownNode h then
    match (mapGet? h.coh.rlc m.hdr.addr).bind (·.cur), mapGet? h.coh.outs m.hdr.addr with
    | some r, o => if r.bob = m.hdr.tag then some r else o.filter (fun r => r.bob = m.hdr.tag)
    | none, o => o.filter (fun r => r.bob = m.hdr.tag)
  else none

/-- Base priority of a message at an egress arbiter: of this hub's own request, that of its source now (R237); of another,
PRIO of its header (DEDUCED, log entry 38). -/
def msgPrio (h : Hub) (m : TMsg) : Nat :=
  match ownRequest h m with
  | some r => whoPrio h r.who m.hdr.prio
  | none => m.hdr.prio

/-- The request reads a table line for a prefetch (R320): what it finds is reported nowhere (R16, R321). -/
def prefetchRead (h : Hub) (r : Req) : Bool := (walkSlot h r.who).any (fun x => !x.demand)

/-- That prefetch is cancelled: its op has ended, its queue has stopped, or the epoch has advanced (R321). -/
def cancelledRead (h : Hub) (r : Req) : Bool :=
  (walkSlot h r.who).any (fun x => !x.demand && (x.cancelled || x.epoch != fld h pXLT Fld.XLT.INV_EPOCH))

/-- Age level of a candidate (R236). -/
def ageLevel (h : Hub) (since : Nat) : Nat := min 7 ((h.htime - since) / 2 ^ fld h pBOB Fld.BOB.CFG_AGE_SHIFT)

/-- The candidate is served before another: higher effective priority, then the earlier wait, then the lower source. -/
def ahead (h : Hub) (p1 s1 i1 p2 s2 i2 : Nat) : Bool :=
  let e1 := min 7 (p1 + ageLevel h s1)
  let e2 := min 7 (p2 + ageLevel h s2)
  e2 < e1 || (e1 == e2 && (s1 < s2 || (s1 == s2 && i1 < i2)))

/-- A queued message may be sent: its link is admitted (HELLO and SPDM apart), there is credit, and no fence holds a
new request (R114, R133, R139). -/
def sendable (h : Hub) (l : TLink) (m : TMsg) : Bool :=
  let o := m.hdr.opc % 128
  let vc := vcOf m.hdr.opc
  (l.admitted || o == 0x60 || o == 0x61) && unitsOf m.hdr.opc m.body ≤ l.avail.getD vc 0 &&
    !(vc == 0 && ((nodeRt h m.hdr.dstn).fenced ||
      (agentNode m.hdr.src == ownNode h && flag h pTIME Fld.TIME.STAT_FENCED)))

/-- The heads of the source queues of one VC, with their places in the queue. -/
def vcHeads (q : List TMsg) (vc : Nat) : List (Nat × TMsg) :=
  q.zipIdx.foldl (fun acc x =>
    if vcOf x.1.hdr.opc = vc && !acc.any (fun y => y.2.src == x.1.src) then acc ++ [(x.2, x.1)] else acc) []

/-- STARVE_LIMIT in hc (R239). -/
def starveHc (h : Hub) : Nat := fld h pBOB Fld.BOB.CFG_STARVE_US * 2000

/-- A wait that began then has exceeded STARVE_LIMIT (R239). -/
def starves (h : Hub) (since : Nat) : Bool := starveHc h < h.htime - since

/-- The starvation lane of an egress arbiter holds this one before that one: by entry, then by source (R239). -/
def laneBefore (s1 i1 s2 i2 : Nat) : Bool := s1 < s2 || (s1 == s2 && i1 < i2)

/-- The head of a link's starvation lane. -/
def laneHead (h : Hub) (q : List TMsg) : Option TMsg :=
  (((List.range 8).flatMap (vcHeads q)).filter (fun x => starves h x.2.since)).foldl (fun best x =>
    match best with
    | none => some x.2
    | some y => if laneBefore x.2.since x.2.src y.since y.src then some x.2 else best) none

/-- The message of a VC that the arbiter grants: the lane's head where it competes here, else by priority and age (R236,
R239). -/
def vcPick (h : Hub) (l : TLink) (vc : Nat) : Option (Nat × TMsg) :=
  let cands := (vcHeads l.queue vc).filter (fun x => sendable h l x.2)
  match cands.find? (fun x => laneHead h l.queue == some x.2) with
  | some x => some x
  | none => cands.foldl (fun best x =>
      match best with
      | none => some x
      | some y => if ahead h (msgPrio h x.2) x.2.since x.2.src (msgPrio h y.2) y.2.since y.2.src then some x else best) none

/-- The VC served next: VC7 first, then round robin over VC0 to VC6 (R135). -/
def egressPick (h : Hub) (l : TLink) : Option (Nat × Nat × TMsg) :=
  match vcPick h l 7 with
  | some x => some (7, x)
  | none =>
    ([0, 1, 2, 3, 4, 5, 6] : List Nat).foldl (fun best k =>
      match best with
      | some _ => best
      | none => (vcPick h l ((l.rr + k) % 7)).map (fun x => ((l.rr + k) % 7, x))) none

/-- REQ-class credits are withheld: at the bobbin bound, during clock loss, in SEAL (R230, R77, R461). -/
def reqWithheld (h : Hub) (bound : Bool) : Bool :=
  bound || h.mode.mode == .seal || flag h pCLK Fld.CLK.STAT_HOLDOVER

/-- The credit block of the next flit: units owed join RET, and ECHO shows the last RET received (R134, R246). -/
def creditBlock (h : Hub) (b : Nat) (withheld : Bool) : Hub × List Nat × List Nat :=
  let l := tlink h b
  let ret := (List.range 8).map (fun v =>
    if v = 0 && withheld then l.retSent.getD v 0 else (l.retSent.getD v 0 + l.retOwed.getD v 0) % 4096)
  let owed := (List.range 8).map (fun v => if v = 0 && withheld then l.retOwed.getD v 0 else 0)
  (modLink h b (fun l => { l with retSent := ret, retOwed := owed, echoSent := l.retSeen }), ret, l.retSeen)

/-- The stamper writes t1 of a TIME_REQ and t3 of a TIME_RSP as the message leaves (R137, Table TUL-9). -/
def stamped (h : Hub) (m : TMsg) : Payload :=
  match m.hdr.opc, m.body with
  | 0x70, .time _ t2 t3 => .time (ftime h) t2 t3
  | 0x71, .time t1 t2 _ => .time t1 t2 (ftime h)
  | _, b => b

/-- Entries into an egress arbiter's starvation lane are counted (R239). The table has no row for them, so they are found at
the next round (DESIGN CHOICE, log entry 38). -/
def laneEntries (h : Hub) (n : Nat) : Hub :=
  if n = 0 then h else setIstat (bumpBy h pBOB Fld.BOB.STARVE_CNT n) pBOB 1

/-- The heads of a link's source queues that have waited too long enter its lane. -/
def starveLink (h : Hub) (b : Nat) : Hub :=
  let q := (tlink h b).queue
  let new := (((List.range 8).flatMap (vcHeads q)).filter (fun x => starves h x.2.since && !x.2.starved)).map (·.1)
  modLink (laneEntries h new.length) b (fun l => { l with
    queue := q.zipIdx.map (fun x => if new.contains x.2 then { x.1 with starved := true } else x.1) })

/-- The flits of a message of so many units: 13 slots each, the later ones continuing it (R134, Table TUL-10). A grant opens
a flit of its own (DESIGN CHOICE, log entry 81). -/
def sendFlits (h : Hub) (b units : Nat) (ret ech : List Nat) : Hub :=
  let h := emit h (.flit b ret ech (min 13 units) false)
  if units ≤ 13 then h else emit h (.flit b ret ech (min 13 (units - 13)) true)

/-- The credits that a message passed on holds return as it leaves (R133). -/
def freeTransit (h : Hub) (m : TMsg) : Hub :=
  match m.link with
  | some b => oweCredits h b (vcOf m.hdr.opc) (unitsOf m.hdr.opc m.body)
  | none => h

/-- Send the granted message, in its flits with the credit block. It stays in the replay buffer (R130). -/
def egressLink (h : Hub) (b : Nat) (withheld : Bool) : Hub :=
  if !(tlink h b).up then h
  else
    let h := starveLink h b
    let l := tlink h b
    match egressPick h l with
    | none => h
    | some (vc, i, m) =>
      let m := { m with hdr := { m.hdr with prio := msgPrio h m } }
      let q := l.queue.eraseIdx i
      -- the next message of the same source and VC comes to the head of its queue
      let nxt := q.zipIdx.find? (fun x => vcOf x.1.hdr.opc == vc && x.1.src == m.src)
      let q := match nxt with
        | some (m', j) => q.set j { m' with since := h.htime }
        | none => q
      let u := unitsOf m.hdr.opc m.body
      let h := modLink h b (fun l => { l with queue := q, rr := if vc = 7 then l.rr else (vc + 1) % 7,
                                              replay := l.replay ++ [{ m with link := none, starved := false }],
                                              avail := l.avail.set vc (l.avail.getD vc 0 - u) })
      let h := freeTransit (emit h (.tulle b m.hdr (stamped h m))) m
      let (h, ret, ech) := creditBlock h b withheld
      sendFlits h b u ret ech

/-- Messages that the peer has let go: of a VC only the newest, whose units are still out, stay in the replay buffer. The
spec's flit acknowledgements have no row, so a message stays until its credits return (DESIGN CHOICE, log entry 81). -/
def trimReplay (q : List TMsg) (vc out : Nat) : List TMsg :=
  (q.reverse.foldl (fun (acc : List TMsg × Nat) m =>
    if vcOf m.hdr.opc != vc then (m :: acc.1, acc.2)
    else if acc.2 < out then (m :: acc.1, acc.2 + unitsOf m.hdr.opc m.body)
    else acc) ([], 0)).1

/-! ### Bay egress -/

/-- The egress queue of a bay. -/
def bayQueue (h : Hub) (b : Nat) : List BOut := mapGet h.bayOut b []

/-- The opcode of Table COH-5 whose part a CXL message plays. -/
def opcOf : Emit → Nat
  | .biSnp _ _ true => 0x10
  | .biSnp _ _ false => 0x11
  | .snp _ _ true => 0x10
  | .snp _ _ false => 0x11
  | .memData .. => 0x30
  | .h2dData .. => 0x30
  | _ => 0x23

/-- A response for an OFF domain is counted, dropped and logged (R459, R466). -/
def offDrop (h : Hub) (dom opc : Nat) : Hub :=
  setIstat (errlog (bump h pPWR Fld.PWR.OFF_DROP_CNT) pPWR 1 dom opc) pPWR 5

/-- The cause under which a bay's agent holds an open dead record while its link is down; none otherwise. -/
def goneCause (h : Hub) (b : Nat) : Option Nat :=
  if bayUp h b then none
  else ((h.dead.recs.find? (fun r => r.2.agent == ownNode h * 64 + b)).map (·.2.cause))

/-- Queue a message at a bay's egress. One for a quad that is OFF is dropped, counted and logged (R459); one for a dead
agent whose link is down is discarded, and counted where a reset took the link (R47, R253). -/
def bayPut (h : Hub) (b : Nat) (e : Emit) (ack : Option LineAddr) (src prio : Nat) : Hub :=
  if domState h (quadOf b) = 3 then
    offDrop h (quadOf b) (opcOf e)
  else
    match goneCause h b with
    | some c => if c = 3 then bump h (pBAY b) Fld.BAY.DISCARD_CNT else h
    | none =>
      let m : BOut := { out := e, ack := ack, src := src, prio := prio, since := h.htime }
      { h with bayOut := mapSet h.bayOut b (bayQueue h b ++ [m]) [] }

/-- The CXL channel of a message to a host or device. BIConflictAck goes on S2M NDR, behind an earlier Cmp (R180). -/
def channelOf : Emit → Nat
  | .biSnp .. => 0
  | .memCmp .. => 1
  | .biConflictAck .. => 1
  | .memData .. => 2
  | .snp .. => 3
  | .h2dData .. => 4
  | _ => 5

/-- The heads of the source queues of each channel of a bay. -/
def bayHeads (q : List BOut) : List (Nat × BOut) :=
  q.zipIdx.foldl (fun acc x =>
    if acc.any (fun y => y.2.src == x.1.src && channelOf y.2.out == channelOf x.1.out) then acc else acc ++ [(x.2, x.1)]) []

/-- The head of a channel that an arbiter of a bay grants: the lane's head where it competes, else by priority and age (R234,
R236, R239). The channel is that of the head that has waited longest (DESIGN CHOICE, log entry 38: the spec orders no
channels). -/
def bayPick (h : Hub) (q : List BOut) : Option (Nat × BOut) :=
  let hs := bayHeads q
  let first := fun (xs : List (Nat × BOut)) => xs.foldl (fun best x =>
    match best with
    | none => some x
    | some y => if laneBefore x.2.since x.2.src y.2.since y.2.src then some x else best) (none : Option (Nat × BOut))
  match first hs with
  | none => none
  | some c =>
    let cs := hs.filter (fun x => channelOf x.2.out == channelOf c.2.out)
    match first (cs.filter (fun x => starves h x.2.since)) with
    | some x => some x
    | none => cs.foldl (fun best x =>
        match best with
        | none => some x
        | some y => if ahead h x.2.prio x.2.since x.2.src y.2.prio y.2.since y.2.src then some x else best) none

/-- The heads of a bay's source queues that have waited too long enter its lane. -/
def starveBay (h : Hub) (b : Nat) : Hub :=
  let q := bayQueue h b
  let new := ((bayHeads q).filter (fun x => starves h x.2.since && !x.2.starved)).map (·.1)
  let h := laneEntries h new.length
  let q' := q.zipIdx.map (fun x => if new.contains x.2 then { x.1 with starved := true } else x.1)
  { h with bayOut := mapSet h.bayOut b q' [] }

/-- Grant one message of a bay's egress: the hub, and the line whose ACK it gives. -/
def egressBay (h : Hub) (b : Nat) : Hub × Option LineAddr :=
  if !bayUp h b then (h, none)
  else
    let h := starveBay h b
    let q := bayQueue h b
    match bayPick h q with
    | none => (h, none)
    | some (i, m) =>
      let q := q.eraseIdx i
      let nxt := q.zipIdx.find? (fun x => x.1.src == m.src && channelOf x.1.out == channelOf m.out)
      let q := match nxt with
        | some (m', j) => q.set j { m' with since := h.htime }
        | none => q
      (emit { h with bayOut := mapSet h.bayOut b q [] } m.out, m.ack)

end Sys2Proof.Machine
end

