-- ==== Sys2Proof/Machine/PoisonLedger.lean ====
section
/-! DEFINITION. The Poison Ledger in the hub: entries, marks, pending items and the owner counts (R264 to R269). Their
commit to the keep store is in Machine/KeepStore.lean. -/

namespace Sys2Proof.Machine

/-- Most live entries (R264). -/
def ledgerMax : Nat := 65536

/-- Change the Poison Ledger, with ALERT_N following its being full (R107, R266). -/
def modPsn (h : Hub) (f : Psn → Psn) : Hub :=
  atPage h pPSN (fun h =>
    let p := f h.psn
    { h with psn := p, alerts := { h.alerts with ledgerFull := ledgerMax ≤ p.entries.length } })

/-- Leave an item pending (R265). -/
def psnPend (h : Hub) (i : PsnItem) : Hub := modPsn h (fun p => { p with pend := p.pend ++ [(i, h.htime)] })

/-- The granule is marked. -/
def marked (h : Hub) (g : Nat) : Bool := (mapGet? h.psn.marks g).isSome

/-- The slot of the entry of a line and kind. -/
def entrySlot (h : Hub) (line kind : Nat) : Option Nat :=
  (h.psn.entries.find? (fun e => e.2.line == line && e.2.kind == kind)).map (·.1)

/-- The lowest free slot. -/
def freeSlot : List (Nat × PsnEntry) → Nat → Nat
  | [], n => n
  | e :: t, n => if e.1 = n then freeSlot t (n + 1) else n

/-- Change the owner count of a line's local granule (R269); the count is 25 bits wide. A granule that another hub still
homes (R268) has none here. -/
def ownerAdd (h : Hub) (line : LineAddr) (up : Bool) : Hub :=
  let g := (homeEntry h (granuleOf line)).loc
  let v := mapGet h.owners g 0
  if homedHere h (granuleOf line) then
    { h with owners := mapSet h.owners g (if up then min (v + 1) (2 ^ 25 - 1) else v - 1) 0 }
  else h

/-- A LINE entry of the line is pending, so that the line is in the owner count (R269). -/
def linePending (h : Hub) (line : LineAddr) : Bool :=
  h.psn.pend.any (fun i => match i.1 with
    | .new e _ => e.line == line && e.kind == 1
    | _ => false)

/-- Forget the pending creation of a line's entry. -/
def dropPending (h : Hub) (line : LineAddr) : Hub :=
  if linePending h line then
    ownerAdd (modPsn h (fun p => { p with pend := p.pend.filter (fun i => match i.1 with
      | .new e _ => !(e.line == line && e.kind == 1)
      | _ => true) })) line false
  else h

/-- Mark a granule: its LINE entries go (R266). -/
def markGranule (h : Hub) (g : Nat) (peer : Option Nat) : Hub :=
  let lines := (h.psn.entries.filter (fun e => e.2.kind == 1 && granuleOf e.2.line == g)).map (·.2.line)
  let h := lines.foldl dropPending h
  let h := modPsn h (fun p =>
    { p with entries := p.entries.filter (fun e => !(e.2.kind == 1 && granuleOf e.2.line == g)),
             marks := mapPut p.marks g () })
  let h := bump h pPSN Fld.PSN.MARK_CNT
  let h := setIstat h pPSN 2
  psnPend h (.mark g peer)

/-- Create a ledger entry and leave it pending (R264, R273); with the ledger full, mark the granule (R266). A line that
already has an entry of the kind keeps it. -/
def newEntry (h : Hub) (e : PsnEntry) (peer : Option Nat) : Hub :=
  if (entrySlot h e.line e.kind).isSome then h
  else if ledgerMax ≤ h.psn.entries.length then
    markGranule (setIstat h pPSN 1) (granuleOf e.line) peer
  else
    let h := modPsn h (fun p => { p with entries := mapPut p.entries (freeSlot p.entries 0) e })
    let h := bump h pPSN Fld.PSN.NEW_CNT
    let h := errlog h pPSN 1 (e.line * 64) e.cause
    let h := setIstat h pPSN 0
    let h := if e.kind = 1 then ownerAdd h e.line true else h
    psnPend h (.new e peer)

/-- Clear the LINE entry of a line (R263). -/
def clearEntry (h : Hub) (line : LineAddr) : Hub :=
  match entrySlot h line 1 with
  | none => h
  | some k =>
    let h := dropPending h line
    let h := modPsn h (fun p => { p with entries := mapDel p.entries k })
    psnPend (bump h pPSN Fld.PSN.CLEAR_CNT) (.clear line)

/-- Remove an entry that another hub has taken over (R264, R268). -/
def dropEntry (h : Hub) (line kind : Nat) : Hub :=
  match entrySlot h line kind with
  | none => h
  | some k => psnPend (modPsn h (fun p => { p with entries := mapDel p.entries k })) (.drop line kind)

/-- Clear a granule's mark (R267, R268). -/
def unmarkGranule (h : Hub) (g : Nat) : Hub :=
  if marked h g then psnPend (modPsn h (fun p => { p with marks := mapDel p.marks g })) (.unmark g) else h

/-- Poisoned data goes to a consumer (PSN.CONSUME_CNT). -/
def consumed (h : Hub) : Hub := bump h pPSN Fld.PSN.CONSUME_CNT

end Sys2Proof.Machine
end

