-- ==== Sys2Proof/Machine/Meters.lean ====
section
/-! DEFINITION. Records to rings in memory, request sampling (R379 to R381) and the access counters (R334 to R336). -/

namespace Sys2Proof.Machine

/-! ### Free values and trees -/

/-- Draw a free value: the opaque constant at the counter, which moves on. -/
def freeDraw (h : Hub) : Nat × Hub := ((Config.freeValue h.free).toNat, { h with free := h.free + 1 })

/-- Tree pseudo-LRU over n = 2^k ways: walk from the root, following a node's bit where that half holds an eligible
way (R211). `node` is the node's number from 1, `lo` and `n` its range of ways. -/
def plruPick (bits : Nat) (elig : List Nat) : Nat → Nat → Nat → Nat → Nat
  | 0, _, lo, _ => lo
  | fuel + 1, node, lo, n =>
    if n ≤ 1 then lo
    else
      let half := n / 2
      let left := elig.any (fun w => lo ≤ w && w < lo + half)
      let right := elig.any (fun w => lo + half ≤ w && w < lo + n)
      if (bit bits node && right) || !left then plruPick bits elig fuel (2 * node + 1) (lo + half) half
      else plruPick bits elig fuel (2 * node) lo half

/-- The tree after a use of way w: every node on its path points to the other half. -/
def plruTouch : Nat → Nat → Nat → Nat → Nat → Nat → Nat
  | 0, _, _, _, _, bits => bits
  | fuel + 1, node, lo, n, w, bits =>
    if n ≤ 1 then bits
    else
      let half := n / 2
      let cleared := if bit bits node then bits - 2 ^ node else bits
      if w < lo + half then plruTouch fuel (2 * node) lo half w (cleared + 2 ^ node)
      else plruTouch fuel (2 * node + 1) (lo + half) half w cleared

/-! ### Rings (R336, R375, R381) -/

/-- Write a record at a place of memory: management SRAM, or the memory of the page's owner bay. -/
def ringStore (h : Hub) (pg : Nat) (internal : Bool) (addr : Nat) (bytes : List Nat) : Hub :=
  if internal then { h with sram := h.sram ++ [(addr, bytes)] }
  else if flag h pg Fld.HDR.OWNER_VALID then emit h (.dma (fld h pg Fld.HDR.OWNER_BAY) addr none bytes)
  else h

/-- Free slots of a ring of 2^log2 records. -/
def ringFree (log2 tail head : Nat) : Nat := 2 ^ log2 - (tail + 2 ^ 32 - head) % 2 ^ 32

/-! ### Sampling -/

/-- One step of the Fibonacci LFSR x^32 + x^22 + x^2 + x + 1 (R379). -/
def lfsrStep (v : Nat) : Nat :=
  let fb := (b2n (bit v 31) + b2n (bit v 21) + b2n (bit v 1) + b2n (bit v 0)) % 2
  (v * 2 + fb) % 2 ^ 32

/-- Load the LFSRs (R379). -/
def lfsrLoad (seed : Nat) : List Nat := (List.range 8).map (fun s => s * 2 ^ 24 + seed % 2 ^ 24)

/-- A general-pool request is granted into HP0 of a slice: its LFSR steps and may tag it (R379). -/
def sampleGrant (h : Hub) (s : Nat) (r : Req) (remote starved : Bool) (age : Nat) : Hub × Option Tag :=
  if !flag h pSMP Fld.SMP.CFG_EN || (remote && !flag h pSMP Fld.SMP.CFG_REMOTE_EN) then (h, none)
  else
    let v := lfsrStep (h.meter.lfsr.getD s 0)
    let h := { h with meter := { h.meter with lfsr := h.meter.lfsr.set s v } }
    if v % 2 ^ fld h pSMP Fld.SMP.CFG_N != 0 then (h, none)
    else
      let sseq := h.meter.sseq
      let h := bump h pSMP Fld.SMP.TAG_CNT
      let h := { h with meter := { h.meter with sseq := (sseq + 1) % 2 ^ 32 } }
      let h := setFld h pSMP Fld.SMP.INFLIGHT (fld h pSMP Fld.SMP.INFLIGHT + 1)
      (h, some { t0 := r.t0, t1 := h.htime, t2 := none, t3 := none, t4 := none, prkHit := false, specIss := false,
                 specUse := false, cont := false, remote := remote, starved := starved, age := age, snoops := 0,
                 dir := if remote then 7 else 0, sseq := sseq })

/-- Home request class as an opcode of Table COH-5. -/
def classOpc : ReqOp → Nat
  | .rdShared => 1 | .rdAny => 2 | .rdOwn => 3 | .rdCur => 4 | .upgrade => 5
  | .wrFull _ => 6 | .wrPart .. => 6 | .atomic _ => 7 | .nearAtomic _ => 7 | .stash .. => 8
  | .flush => 6 | .memWr .. => 6 | .wbDirty _ => 0x40 | .evict => 0x40 | .rebuild => 0
  | .snoop sn => sn.opc | .snpWb .. => 0x41

/-- The bytes of a sample record (Table CNT-7). -/
def sampleBytes (h : Hub) (r : Req) (t : Tag) (trunc : Bool) : List Nat :=
  let d := fun (x : Option Nat) => match x with
    | some v => leBytes 4 (min (v - t.t0) 0xFFFFFFFE)
    | none => leBytes 4 0xFFFFFFFF
  let flags := b2n t.prkHit + 2 * b2n t.specIss + 4 * b2n t.specUse + 8 * b2n t.cont + 16 * b2n t.remote +
    32 * b2n t.starved + 64 * b2n trunc
  leBytes 8 t.t0 ++ d (some t.t1) ++ d t.t2 ++ d t.t3 ++ d t.t4 ++ d (if trunc then none else some h.htime) ++
    leBytes 5 r.line ++ [classOpc r.op] ++ leBytes 2 (r.agent % 8192) ++ leBytes 2 (r.bob % 4096) ++ [flags] ++
    [r.prio % 8 + 8 * (t.age % 8)] ++ [min t.snoops 255] ++ [t.dir] ++ [0, 0] ++ leBytes 4 t.sseq ++ List.replicate 16 0

/-- Write the sample record of a tagged request at its release, or at its removal with TRUNC (R381). -/
def sampleRecord (h : Hub) (r : Req) (trunc : Bool) : Hub :=
  match r.tag with
  | none => h
  | some t =>
    let h := setFld h pSMP Fld.SMP.INFLIGHT (fld h pSMP Fld.SMP.INFLIGHT - 1)
    let log2 := fld h pSMP Fld.SMP.CFG_RING_LOG2
    let tail := fld h pSMP Fld.SMP.RING_TAIL
    if ringFree log2 tail (fld h pSMP Fld.SMP.RING_HEAD) = 0 then
      setIstat (bump h pSMP Fld.SMP.DROP_CNT) pSMP 1
    else
      let addr := fld64 h pSMP Fld.SMP.RING_BASE_LO Fld.SMP.RING_BASE_HI + tail % 2 ^ log2 * 64
      let h := ringStore h pSMP (flag h pSMP Fld.SMP.CFG_RING_INT) addr (sampleBytes h r t trunc)
      let h := setFld h pSMP Fld.SMP.RING_TAIL (tail + 1)
      let h := if trunc then bump h pSMP Fld.SMP.TRUNC_CNT else h
      setIstat h pSMP 0

/-! ### Access counters -/

/-- Slot of an agent in a counter set (R334). -/
def acnSlot (agent : AgentId) : Nat := crc32c (leBytes 2 agent) % 16

/-- Write a hot record (Table XLT-8); kind 1 COUNT, 2 ADVISE. -/
def hotRecord (h : Hub) (region kind agent cnt : Nat) : Hub :=
  let log2 := fld h pACN Fld.ACN.CFG_RING_LOG2
  let tail := fld h pACN Fld.ACN.RING_TAIL
  if ringFree log2 tail (fld h pACN Fld.ACN.RING_HEAD) = 0 then
    setIstat (bump h pACN Fld.ACN.RING_DROP_CNT) pACN 1
  else
    let bytes := leBytes 4 (region % 2 ^ 25 + kind * 2 ^ 25) ++ leBytes 2 (agent % 8192) ++ [cnt % 256, 0] ++
      leBytes 8 h.htime
    let addr := fld64 h pACN Fld.ACN.RING_BASE_LO Fld.ACN.RING_BASE_HI + tail % 2 ^ log2 * 16
    let h := ringStore h pACN (flag h pACN Fld.ACN.CFG_RING_INT) addr bytes
    let h := if kind = 1 then bump h pACN Fld.ACN.HOT_CNT else h
    setIstat (setFld h pACN Fld.ACN.RING_TAIL (tail + 1)) pACN 0

/-- The counter set of a region, allocated where none is held; the victim of a full index is the tree's (R334). -/
def acnAlloc (h : Hub) (region : Nat) : Hub :=
  let idx := Config.acnIndex region % 2048
  match mapGet? h.meter.sets region with
  | some _ => h
  | none =>
    let peers := h.meter.sets.filter (fun e => Config.acnIndex e.1 % 2048 == idx)
    let used := peers.map (·.2.way)
    let tree := mapGet h.meter.trees idx 0
    let freeW := (List.range 8).find? (fun w => !used.contains w)
    let w := freeW.getD (plruPick tree (List.range 8) 4 1 0 8)
    let h := if freeW.isSome then h else bump h pACN Fld.ACN.EVICT_CNT
    let sets := if freeW.isSome then h.meter.sets
      else h.meter.sets.filter (fun e => !(Config.acnIndex e.1 % 2048 == idx && e.2.way == w))
    { h with meter := { h.meter with sets := mapPut sets region { way := w, slots := List.replicate 16 0 } } }

/-- A request of a Table TRN-2 class reaches the head of its chain: it is counted (R334, R335). -/
def accessCount (h : Hub) (line : LineAddr) (agent : AgentId) : Hub :=
  if !flag h pACN Fld.ACN.CFG_EN then h
  else
    let region := line / 2 ^ 15
    let h := acnAlloc h region
    match mapGet? h.meter.sets region with
    | none => h
    | some st =>
      let idx := Config.acnIndex region % 2048
      let tree := plruTouch 4 1 0 8 st.way (mapGet h.meter.trees idx 0)
      let k := acnSlot agent
      let v := min (st.slots.getD k 0 + 1) 255
      let slots := st.slots.set k v
      let hit := fld h pACN Fld.ACN.CFG_THRESH ≤ v &&
        (agentNode agent != ownNode h || flag h pACN Fld.ACN.CFG_LOCAL)
      let slots := if hit then slots.map (· / 2) else slots
      let h := { h with meter := { h.meter with sets := mapPut h.meter.sets region { st with slots := slots },
                                                trees := mapSet h.meter.trees idx tree 0 } }
      if hit then hotRecord h region 1 agent v else h

end Sys2Proof.Machine
end

