-- ==== Sys2Proof/Machine/Pricking.lean ====
section
/-! DEFINITION. Pricking: the local media, directory entries and their 64-bit form, the Pricking cache with its
write-back buffer, speculative reads (R201 to R222). -/

namespace Sys2Proof.Machine

/-! ### Media ways (R201, R482) -/

/-- Bytes that go to one media way before the next. -/
def mediaGran (h : Hub) : Nat := 256 * 2 ^ fld h pPRK Fld.PRK.MEDIA_GRAN

/-- Media ways. -/
def mediaWays (h : Hub) : Nat := 2 ^ fld h pPRK Fld.PRK.MEDIA_WAYS

/-- Media way of a byte address of local media. -/
def wayOfLma (h : Hub) (a : Nat) : Nat := a / mediaGran h % mediaWays h

/-- Its address on that way's device (R201). -/
def devAddr (h : Hub) (a : Nat) : Nat := a / (mediaGran h * mediaWays h) * mediaGran h + a % mediaGran h

/-- Media way of a line's data. -/
def wayOfData (h : Hub) (key : Nat) : Nat := wayOfLma h (key * 64)

/-- LMA of a line's directory entry (R202). -/
def entryLma (h : Hub) (key : Nat) : Nat := fld h pPRK Fld.PRK.LOCAL_PROV * 2 ^ 30 + key * 8

/-- Lead D bay of a media way. -/
def wayBay (h : Hub) (w : Nat) : Nat := fld h pPRK (Fld.PRK.MEDIA_WAY.nth w)

/-- A media way is unreachable (R482). -/
def wayDown (h : Hub) (w : Nat) : Bool := !bayUp h (wayBay h w) || h.prk.timedOut.contains w

/-- Ask a media way's device for a read or a write at an address of local media; no request goes to a way that is
unreachable. -/
def mediaReq (h : Hub) (a : Nat) (write : Bool) : Hub :=
  if wayDown h (wayOfLma h a) then h else emit h (.media (wayBay h (wayOfLma h a)) (devAddr h a) write)

/-- The hub programs the HDM decoders of a D bay's device for the media ways it leads (R201). -/
def hdmProgram (h : Hub) (b : Nat) : Hub :=
  ((List.range (mediaWays h)).filter (fun w => wayBay h w == b)).foldl
    (fun h w => emit h (.hdmProg b w (mediaWays h) (mediaGran h))) h

/-- The media content of a line. -/
def mediaLine (h : Hub) (key : Nat) : MLine := mapGet h.media key .zero

/-- A 4 KiB page of a granule's data or directory is written while the granule is copied: it is marked (Table MOD-3).
Pages of the directory run count on from those of the data. -/
def hoDirty (h : Hub) (key : Nat) (dir : Bool) : Hub :=
  match h.tulle.handA with
  | some a =>
    if (a.st = .copy || a.st = .freeze) && (homeEntry h a.gran).loc = key / 2 ^ 24 then
      let p := if dir then 2 ^ 18 + key % 2 ^ 24 / 512 else key % 2 ^ 24 / 64
      if a.dirty.contains p then h
      else { h with tulle := { h.tulle with handA := some { a with dirty := a.dirty ++ [p] } } }
    else h
  | none => h

/-- Store a line in the media. -/
def setMedia (h : Hub) (key : Nat) (d : LineData) (poison : Bool) : Hub :=
  hoDirty { h with media := mapSet h.media key { data := d, poison := poison } .zero } key false

/-! ### Directory entries (R204, R205, R214) -/

/-- The current boot generation. -/
def bgen (h : Hub) : Nat := fld h pPRK Fld.PRK.BGEN

/-- STATE code of Table PRK-1. -/
def DirSt.code : DirSt → Nat
  | .uncached => 0 | .shared => 1 | .owned => 2 | .overflow => 3 | .poisoned => 4

/-- The 64-bit form of an entry (Table PRK-1). -/
def entWord (h : Hub) (e : DirEnt) : Nat :=
  let p0 := if e.v0 || e.st == .poisoned then e.p0 % 8192 else 0
  e.st.code + 2 ^ 3 * p0 + 2 ^ 16 * (if e.v1 then e.p1 % 8192 else 0) + 2 ^ 29 * (if e.v2 then e.p2 % 8192 else 0) +
    2 ^ 42 * b2n e.v0 + 2 ^ 43 * b2n e.v1 + 2 ^ 44 * b2n e.v2 + 2 ^ 45 * b2n e.f0 + 2 ^ 46 * bgen h

/-- An entry as read: the entry, or none where it is inconsistent (R205, R206). -/
def wordEnt (h : Hub) (w : Nat) : Option DirEnt :=
  if bits w 46 12 != bgen h then some .uncached
  else
    let e : DirEnt := { st := .uncached, p0 := bits w 3 13, p1 := bits w 16 13, p2 := bits w 29 13,
                        v0 := bit w 42, v1 := bit w 43, v2 := bit w 44, f0 := bit w 45 }
    let pv := e.v0 || e.v1 || e.v2
    let fok := !e.f0 || (e.v0 && e.p0 % 64 == 62)
    match bits w 0 3 with
    | 0 => if pv || e.f0 then none else some .uncached
    | 1 => if pv && fok then some { e with st := .shared } else none
    | 2 => if e.v0 && !e.v1 && !e.v2 && !e.f0 then some { e with st := .owned } else none
    | 3 => if fok then some { e with st := .overflow } else none
    | 4 => if pv || e.f0 then none else some { e with st := .poisoned }
    | _ => none

/-- The agents an entry names. -/
def DirEnt.named (e : DirEnt) : List AgentId :=
  (if e.v0 then [e.p0] else []) ++ (if e.v1 then [e.p1] else []) ++ (if e.v2 then [e.p2] else [])

/-- The owner of an OWNED entry. -/
def DirEnt.owner (e : DirEnt) : Option AgentId := if e.st = .owned then some e.p0 else none

/-- The F holder of a SHARED or OVERFLOW entry. -/
def DirEnt.fHolder (e : DirEnt) : Option AgentId :=
  if (e.st = .shared || e.st = .overflow) && e.f0 && e.v0 then some e.p0 else none

/-- Grant E or M (R214). -/
def entOwn (a : AgentId) : DirEnt :=
  { st := .owned, p0 := a, p1 := 0, p2 := 0, v0 := true, v1 := false, v2 := false, f0 := false }

/-- Removal of an agent (R214, R215). -/
def entRemove (e : DirEnt) (a : AgentId) : DirEnt :=
  let k0 := e.v0 && e.p0 == a
  let k1 := e.v1 && e.p1 == a
  let k2 := e.v2 && e.p2 == a
  let e' : DirEnt := { e with v0 := e.v0 && !k0, p0 := if k0 then 0 else e.p0, f0 := e.f0 && !k0,
                              v1 := e.v1 && !k1, p1 := if k1 then 0 else e.p1,
                              v2 := e.v2 && !k2, p2 := if k2 then 0 else e.p2 }
  if (e.st = .shared || e.st = .owned) && !(e'.v0 || e'.v1 || e'.v2) then .uncached else e'

/-- An entry without sharers becomes SHARED before it takes one. -/
def entOpen (e : DirEnt) : DirEnt := if e.st = .uncached then { DirEnt.uncached with st := .shared } else e

/-- New S sharer (R214, R176). -/
def entAddS (e : DirEnt) (a : AgentId) : DirEnt :=
  let e := entOpen e
  if e.named.contains a then e
  else if !e.v1 then { e with p1 := a, v1 := true }
  else if !e.v2 then { e with p2 := a, v2 := true }
  else if !e.v0 then { e with p0 := a, v0 := true, f0 := false }
  else { e with st := .overflow }

/-- New F holder (R214). -/
def entAddF (e : DirEnt) (a : AgentId) : DirEnt :=
  let e := entOpen e
  if e.v0 && e.p0 == a then { e with f0 := true }
  else
    let k1 := e.v1 && e.p1 == a
    let k2 := e.v2 && e.p2 == a
    let e : DirEnt := { e with v1 := e.v1 && !k1, p1 := if k1 then 0 else e.p1,
                               v2 := e.v2 && !k2, p2 := if k2 then 0 else e.p2 }
    let old := e.p0
    let had := e.v0
    let e : DirEnt := { e with p0 := a, v0 := true, f0 := true }
    if !had then e
    else if !e.v1 then { e with p1 := old, v1 := true }
    else if !e.v2 then { e with p2 := old, v2 := true }
    else { e with st := .overflow }

/-- An owner or F holder that answered with next state S stays named as a sharer. -/
def entDemote (e : DirEnt) (a : AgentId) : DirEnt :=
  if e.st = .owned && e.p0 == a then { e with st := .shared, f0 := false }
  else if e.v0 && e.p0 == a then { e with f0 := false }
  else e

/-! ### The Pricking cache (R210 to R212) -/

/-- Key of a line's set: slice and set index (R210). -/
def setKey (line : LineAddr) : Nat :=
  let c := lineCrc line
  c % 8 * 2 ^ 14 + c / 2 ^ 16 % 2 ^ 14

/-- A set of the cache. -/
def prkSet (h : Hub) (k : Nat) : PrkSet := mapGet h.prk.sets k .empty

/-- Change a set. -/
def modSet (h : Hub) (k : Nat) (f : PrkSet → PrkSet) : Hub :=
  { h with prk := { h.prk with sets := mapSet h.prk.sets k (f (prkSet h k)) .empty } }

/-- The way that holds a line's entry, with its number. -/
def wayOf (h : Hub) (line : LineAddr) : Option (Nat × Way) :=
  (prkSet h (setKey line)).ways.find? (fun w => w.2.line == line && !w.2.fetch)

/-- The way that a miss of the line has taken, its entry not yet returned (R211). -/
def fetchWay (h : Hub) (line : LineAddr) : Option Nat :=
  ((prkSet h (setKey line)).ways.find? (fun w => w.2.line == line && w.2.fetch)).map (·.1)

/-- The entry that a way's 64 bits stand for (R204, R206). -/
def wayEnt (h : Hub) (w : Way) : DirEnt := (wordEnt h w.word).getD .uncached

/-- A line is LOCKED while its chain exists (R211). -/
def locked (h : Hub) (line : LineAddr) : Bool := (mapGet? h.coh.chains line).isSome

/-- The latest entry of a line in the write-back buffer. -/
def inWbBuf (h : Hub) (line : LineAddr) : Option Way :=
  ((h.prk.wbBuf.filter (fun w => w.2.line == line)).getLast?).map (·.2)

/-- The entry of a line as the cache or the write-back buffer holds it. -/
def cachedEnt (h : Hub) (line : LineAddr) : Option DirEnt :=
  match wayOf h line with
  | some (_, w) => some (wayEnt h w)
  | none => (inWbBuf h line).map (wayEnt h)

/-- Reclaim of an entry against one dead agent (Table DED-2): the entry, and what the ledger gains. -/
def reclaimEnt (e : DirEnt) (a : AgentId) (clean : Bool) : DirEnt × Bool × Bool :=
  if e.st = .owned && e.p0 == a then
    if clean then (.uncached, false, true)
    else ({ DirEnt.uncached with st := .poisoned, p0 := a }, true, false)
  else if e.st = .shared || e.st = .overflow then (entRemove e a, false, false)
  else (e, false, false)

/-- The change of the owner count that a change of entry makes (R269). -/
def ownedShift (h : Hub) (line : LineAddr) (old new : DirEnt) : Hub :=
  if old.st = .owned && new.st != .owned then ownerAdd h line false
  else if old.st != .owned && new.st = .owned then ownerAdd h line true
  else h

/-- Reclaim of a line's entry against every open record (R254, R255). -/
def reclaimLine (h : Hub) (line : LineAddr) (e : DirEnt) : Hub × DirEnt :=
  h.dead.recs.foldl (fun acc r =>
    let (e', poi, drop) := reclaimEnt acc.2 r.2.agent (r.2.cause == 6)
    let h := ownedShift acc.1 line acc.2 e'
    let h := if poi then
        newEntry (bump h pDED Fld.DED.POISON_CNT)
          { line := line, kind := 1, cause := 1, agent := r.2.agent, epoch := r.2.epoch } none
      else if drop then bump h pDED Fld.DED.DROP_CNT
      else h
    (h, e')) (h, e)

/-- The ways of a line's set that may be a victim, in the order of R211. -/
def victimPick (h : Hub) (line : LineAddr) : Option Nat :=
  let st := prkSet h (setKey line)
  let all := List.range 16
  let used := st.ways.map (·.1)
  let free := all.filter (fun w => !used.contains w)
  let unl := st.ways.filter (fun w => !locked h w.2.line)
  let clean := (unl.filter (fun w => !w.2.dirty)).map (·.1)
  let dirty := (unl.filter (fun w => w.2.dirty)).map (·.1)
  let pick := fun (c : List Nat) => plruPick st.plru c 5 1 0 16
  match free with
  | w :: _ => some w
  | [] => if !clean.isEmpty then some (pick clean) else if !dirty.isEmpty then some (pick dirty) else none

/-- Mark a way as used last. -/
def touchWay (h : Hub) (line : LineAddr) (w : Nat) : Hub :=
  modSet h (setKey line) (fun st => { st with plru := plruTouch 5 1 0 16 w st.plru })

/-- The 64 bits of a way after a reclaim of its entry (R254). -/
def reclaimWay (h : Hub) (v : Way) : Hub × Way :=
  let e := wayEnt h v
  let (h, e') := reclaimLine h v.line e
  (h, if e' = e then v else { v with word := entWord h e', dirty := true })

/-- Put an entry into the write-back buffer: its write to the directory region begins (R212). -/
def toWbBuf (h : Hub) (v : Way) : Hub :=
  let h := mediaReq (bump h pPRK Fld.PRK.ENTRY_WB_CNT) (entryLma h (localKey h v.line)) true
  { h with prk := { h.prk with wbBuf := h.prk.wbBuf ++ [(localKey h v.line, v)] } }

/-- Take a way of a line's set for it, the victim going to the write-back buffer when DIRTY, reclaimed first (R211, R212,
R254); none while every way is LOCKED. -/
def takeWay (h : Hub) (line : LineAddr) (x : Way) : Option Hub :=
  (victimPick h line).map fun w =>
    let k := setKey line
    let h := match (prkSet h k).ways.find? (fun x => x.1 == w) with
      | some (_, v) =>
        if v.dirty then
          let (h, v) := reclaimWay h v
          toWbBuf h v
        else h
      | none => h
    let h := modSet h k (fun st => { st with ways := mapPut (mapDel st.ways w) w x })
    touchWay h line w

/-- Fill the way that the line's miss has taken, or else a way of its set; none while every way is LOCKED. -/
def fillWay (h : Hub) (line : LineAddr) (word : Nat) (dirty : Bool) : Option Hub :=
  let x : Way := { line := line, word := word, dirty := dirty }
  match fetchWay h line with
  | some w => some (modSet h (setKey line) (fun st => { st with ways := mapPut (mapDel st.ways w) w x }))
  | none => takeWay h line x

/-- Read a line's entry from the directory region: the entry, or the DETAIL of a rebuild, 1 for a media error, 2 for
an inconsistent entry (R217). -/
def regionRead (h : Hub) (line : LineAddr) : DirEnt × Nat :=
  let k := localKey h line
  if wayDown h (wayOfLma h (entryLma h k)) || h.prk.bad.contains k then (.uncached, 1)
  else
    match wordEnt h (mapGet h.prk.region k 0) with
    | some e => (e, 0)
    | none => (.uncached, 2)

/-- The entry of a line, wherever it is held. -/
def entOf (h : Hub) (line : LineAddr) : DirEnt := (cachedEnt h line).getD (regionRead h line).1

/-- A change of a line's entry waits for a way of its set (R211, R212). -/
def waitWay (h : Hub) (line : LineAddr) (w : EntWait) : Hub :=
  { h with prk := { h.prk with waits := h.prk.waits ++ [(line, w)] } }

/-- A line's entry becomes e in a way of the cache, DIRTY (R212), with the owner count (R269) and OVF_ENTER_CNT (R215). -/
def writeEnt (h : Hub) (line : LineAddr) (e : DirEnt) : Hub :=
  let old := entOf h line
  let counts := fun (h : Hub) =>
    let h := ownedShift h line old e
    if e.st = .overflow && old.st != .overflow then bump h pPRK Fld.PRK.OVF_ENTER_CNT else h
  match wayOf h line with
  | some (w, v) =>
    let h := counts h
    modSet h (setKey line) (fun st => { st with ways := mapPut st.ways w { v with word := entWord h e, dirty := true } })
  | none =>
    if (fetchWay h line).isSome then waitWay h line (.put e)
    else
      match fillWay h line (entWord h e) true with
      | some h' => counts h'
      | none => waitWay h line (.put e)

/-- Change a line's entry; one that the cache holds so already stays as it is. -/
def setEnt (h : Hub) (line : LineAddr) (e : DirEnt) : Hub :=
  if entOf h line = e && (wayOf h line).isSome then h else writeEnt h line e

/-- Remove an agent from a line's entry. -/
def dropAgent (h : Hub) (line : LineAddr) (a : AgentId) : Hub :=
  let e := entOf h line
  if e.st = .poisoned || !e.named.contains a then h else setEnt h line (entRemove e a)

/-- The line's entry can be changed now: a way holds it, or can be taken for it (R211, R212). -/
def entOpenNow (h : Hub) (line : LineAddr) : Bool :=
  (wayOf h line).isSome || ((fetchWay h line).isNone && (victimPick h line).isSome)

/-- The walk reclaims a readable entry of the region that no way and no chain holds (R254, R255); with every way LOCKED it
waits. -/
def walkReclaim (h : Hub) (line : LineAddr) : Hub :=
  if (cachedEnt h line).isSome || locked h line || (regionRead h line).2 != 0 then h
  else
    let e := (regionRead h line).1
    let (h1, e') := reclaimLine h line e
    if e' = e then h
    else if entOpenNow h line then (fillWay h1 line (entWord h1 e') true).getD h1
    else waitWay h line .walk

/-- Make a change of an entry that waited for a way. -/
def doWait (h : Hub) (line : LineAddr) : EntWait → Hub
  | .drop a => dropAgent h line a
  | .put e => writeEnt h line e
  | .walk => walkReclaim h line

/-- Make the changes of a line's entry that waited for a way, in their order. -/
def settleWaits (h : Hub) (line : LineAddr) : Hub :=
  let mine := h.prk.waits.filter (fun x => x.1 == line)
  mine.foldl (fun h x => doWait h line x.2) { h with prk := { h.prk with waits := h.prk.waits.filter (fun x => x.1 != line) } }

/-- A way taken for a miss that no longer is one is empty again. -/
def dropFetch (h : Hub) (line : LineAddr) : Hub :=
  match fetchWay h line with
  | some w => modSet h (setKey line) (fun st => { st with ways := mapDel st.ways w })
  | none => h

/-- A line becomes POISONED and gains a ledger entry (R262); a line of a marked granule needs none. -/
def poisonLine (h : Hub) (line : LineAddr) (cause : Nat) (agent : AgentId) (epoch : Nat) : Hub :=
  let h := setEnt h line { DirEnt.uncached with st := .poisoned, p0 := agent }
  if marked h (granuleOf line) then h
  else newEntry h { line := line, kind := 1, cause := cause, agent := agent, epoch := epoch } none

/-! ### Speculative reads (R218 to R222) -/

/-- Slots in use. -/
def specUsed (h : Hub) : Nat := h.prk.spec.length

/-- Change the speculative reads, with SPEC_INFLIGHT and SPEC_FULL (R219). -/
def modSpec (h : Hub) (f : List Spec → List Spec) : Hub :=
  let was := specUsed h
  let h := { h with prk := { h.prk with spec := f h.prk.spec } }
  if was < 1024 && 1024 ≤ specUsed h then setIstat h pPRK 2 else h

/-- The live speculative read of a line. -/
def liveSpec (h : Hub) (line : LineAddr) : Option Spec := h.prk.spec.find? (fun s => s.line == line && !s.discarded)

/-- Discard a line's speculative read (R220 to R222): dropped at once when its data is back, otherwise on arrival. -/
def specDiscard (h : Hub) (line : LineAddr) : Hub :=
  match liveSpec h line with
  | none => h
  | some s =>
    let h := bump h pPRK Fld.PRK.SPEC_DISCARD_CNT
    if s.back then
      let h := if s.bad then bump h pPRK Fld.PRK.SPEC_POISON_DROP_CNT else h
      modSpec h (fun l => l.filter (fun x => !(x.line == line && !x.discarded)))
    else modSpec h (fun l => l.map (fun x => if x.line == line && !x.discarded then { x with discarded := true } else x))

/-- The lookup of a request class issues a speculative read unless R218 suppresses it, the credit floor apart. -/
def specWanted (h : Hub) (op : ReqOp) : Bool :=
  flag h pPRK Fld.PRK.CFG_SPEC_EN && specUsed h < 1024 &&
    (match op with
    | .rdShared => true | .rdAny => true | .rdOwn => true | .rdCur => true | .atomic _ => true
    | .wrPart .. => true | .flush => true
    | _ => false)

/-- Issue, or suppress, the speculative read of a miss (R218). The request credits that the line's media way would hold
after the directory read are the link layer's: a free value (log entry 24). -/
def specIssue (h : Hub) (line : LineAddr) (op : ReqOp) : Hub × Bool :=
  let (credits, h) := freeDraw h
  if specWanted h op && fld h pPRK Fld.PRK.CFG_SPEC_CREDIT_MIN ≤ credits then
    (mediaReq (modSpec (bump h pPRK Fld.PRK.SPEC_ISSUE_CNT)
      (fun l => l ++ [{ line := line, back := false, discarded := false, bad := false }])) (localKey h line * 64) false, true)
  else (bump h pPRK Fld.PRK.SPEC_SUPPRESS_CNT, false)

/-! ### Write-back buffer, flush, format (R207, R212) -/

/-- The directory write of item i of the write-back buffer ends; a write that fails leaves the entry unreadable (R482). -/
def wbDone (h : Hub) (i : Nat) (ok : Bool) : Hub :=
  match h.prk.wbBuf[i]? with
  | none => h
  | some (k, w) =>
    let good := ok && !wayDown h (wayOfLma h (entryLma h k))
    let h := if good then hoDirty h k true else h
    let p := h.prk
    { h with prk := { p with wbBuf := p.wbBuf.eraseIdx i,
                             region := if good then mapSet p.region k w.word 0 else p.region,
                             bad := if good then p.bad.filter (· != k) else if p.bad.contains k then p.bad else k :: p.bad } }

/-- CTL.FLUSH: every DIRTY way goes to the write-back buffer (R212). -/
def flushStart (h : Hub) : Hub :=
  let dirty := h.prk.sets.flatMap (fun s => (s.2.ways.filter (fun w => w.2.dirty)).map (·.2))
  let h := dirty.foldl (fun h w =>
    let (h, v) := reclaimWay h w
    modSet (toWbBuf h v) (setKey w.line) (fun st =>
      { st with ways := st.ways.map (fun x => if x.2.line = w.line then (x.1, { v with dirty := false }) else x) })) h
  setFld h pPRK Fld.PRK.STAT_FLUSH_BUSY 1

/-- CTL.FORMAT starts: the cache and the write-back buffer are emptied without being written (R207). -/
def formatStart (h : Hub) : Hub :=
  setFld { h with prk := { h.prk with sets := [], wbBuf := [] } } pPRK Fld.PRK.STAT_FORMAT_BUSY 1

/-- The format ends: every entry reads UNCACHED (R207). An UNCACHED entry reads alike whatever generation it carries,
so the region lists none. -/
def formatEnd (h : Hub) : Hub :=
  setIstat (setFld { h with prk := { h.prk with region := [], bad := [] } } pPRK Fld.PRK.STAT_FORMAT_BUSY 0) pPRK 4

end Sys2Proof.Machine
end

