-- ==== Sys2Proof/Machine/Home.lean ====
section
/-! DEFINITION. The home: bobbins (R226 to R232), conflict chains (R179), the home's transient states (Tables TRN-1 to
TRN-3), write-backs (R189), completions of requests not served (R481). -/

namespace Sys2Proof.Machine

/-! ### Bobbins -/

/-- Take the free bobbin of lowest index (R226), with the ISTAT bits of the bounds (R230, R249). -/
def bobTake (h : Hub) (slice pool : Nat) (x : Bob) : Option (Nat × Hub) :=
  let (b, n) := poolRange pool
  match (List.range n).find? (fun i => (mapGet? h.coh.bobs (512 * slice + b + i)).isNone) with
  | none => none
  | some i =>
    let k := 512 * slice + b + i
    let was := atBound h
    let h := { h with coh := { h.coh with bobs := mapPut h.coh.bobs k x } }
    let h := if pool = 0 && atBound h && !was then setIstat h pBOB 0 else h
    let h := if pool != 0 && bobsFree h slice pool == 0 then setIstat h pBOB 3 else h
    some (k, h)

/-- Release a bobbin (R232). -/
def bobFree (h : Hub) (k : Nat) : Hub := { h with coh := { h.coh with bobs := mapDel h.coh.bobs k } }

/-! ### Agents and snoops -/

/-- No agent: one past the largest agent ID. -/
def noAgent : AgentId := 8192

/-- A local bay is an agent of Table COH-1 (R175). A bay whose link is down stays one until it is declared dead. -/
def bayIsAgent (h : Hub) (b : Nat) : Bool :=
  leadOf h b == b &&
    ((roleOf h b == 1 && (!bayUp h b || flag h (pBAY b) Fld.BAY.LSTAT_CXL)) || (roleOf h b == 2 && (bayRt h b).cacheDev))

/-- A pointer names an agent that holds pool lines (R149, R175). -/
def snoopable (h : Hub) (a : AgentId) : Bool :=
  if agentNode a = ownNode h then agentBay a < 48 && bayIsAgent h (agentBay a) else agentBay a == 62

/-- Every agent that could hold a line homed here (R177). -/
def allHolders (h : Hub) : List AgentId :=
  ((List.range 48).filter (fun b => bayIsAgent h b && (bayUp h b || roleOf h b == 2))).map (fun b => ownNode h * 64 + b) ++
    ((presentNodes h).filter (· != ownNode h)).map rlcAgent

/-- An agent has an open dead record. -/
def agentDead (h : Hub) (a : AgentId) : Bool := h.dead.recs.any (fun r => r.2.agent == a)

/-- Recall of a local agent's copy, in the form of its side (R163). -/
def localSnoop (h : Hub) (line : LineAddr) (b : Nat) (inv : Bool) (prio : Nat) : Hub :=
  let h := bump h pCOH Fld.COH.SNP_SENT
  bayPut h b (if roleOf h b = 1 then .biSnp b line inv else .snp b line inv) none srcInternal prio

/-- Send a snoop: kind 0x10 SNP_INV, 0x11 SNP_DATA, 0x12 SNP_FWD with its ATTR. -/
def sendSnoop (h : Hub) (line : LineAddr) (a : AgentId) (kind bob prio attr : Nat) : Hub :=
  if agentNode a = ownNode h then localSnoop h line (agentBay a) (kind == 0x10) prio
  else
    let h := bump h pCOH Fld.COH.SNP_SENT
    let h := if kind = 0x12 then bump h pCOH Fld.COH.FWD_CNT else h
    sendMsg h (agentNode a) kind (intAgent (ownNode h)) bob line prio false attr .none

/-! ### Answers to requesters -/

/-- The requester takes no grant any more: it is declared dead, or a reset has taken its host down (R47, R257). -/
def reqLost (h : Hub) (r : Req) : Bool :=
  agentDead h r.agent || (match r.who with
    | .gone _ => true
    | _ => false)

/-- The movers' record of a request's end. -/
def moverRes (h : Hub) (tok item : Nat) (d : LineData) (old : BitVec 64) (poison : Bool) (status : Nat) : Hub :=
  { h with coh := { h.coh with mres := h.coh.mres ++
      [{ tok := tok, item := item, data := d, old := old, poison := poison, status := status }] } }

/-- DATA to the requester with a grant; `ack` names the line whose ACK a local answer gives (R180). -/
def replyData (h : Hub) (r : Req) (tag : Nat) (d : LineData) (poison : Bool) (grant : Nat) (cont : Bool)
    (ack : Option LineAddr) : Hub :=
  let h := if poison && !prefetchRead h r then consumed h else h
  match r.who with
  | .peer _ => sendMsg h (agentNode r.agent) 0x30 (intAgent (ownNode h)) tag r.line r.prio poison
      (grant + 8 * b2n cont) (.line d)
  | .host b hpa => bayPut h b (.memData b hpa d poison grant) ack srcInternal r.prio
  | .gone b => bump h (pBAY b) Fld.BAY.DISCARD_CNT
  | .dev b => bayPut h b (.h2dData b r.line d poison grant) ack srcInternal r.prio
  | .mover tok item => moverRes h tok item d 0 poison (b2n poison)
  | .hub => h

/-- CMP, Cmp, GO or GO_WritePull to the requester. -/
def replyCmp (h : Hub) (r : Req) (tag : Nat) (grant : Nat) (cont : Bool) (ack : Option LineAddr) : Hub :=
  match r.who with
  | .peer _ => sendMsg h (agentNode r.agent) 0x23 (intAgent (ownNode h)) tag r.line r.prio false
      (grant + 8 * b2n cont) .none
  | .host b hpa => bayPut h b (.memCmp b hpa grant) ack srcInternal r.prio
  | .gone b => bump h (pBAY b) Fld.BAY.DISCARD_CNT
  | .dev b =>
    (match r.op with
    | .wrFull _ => bayPut h b (.goWritePull b r.line) ack srcInternal r.prio
    | .wrPart .. => bayPut h b (.goWritePull b r.line) ack srcInternal r.prio
    | .evict => bayPut h b (.goWritePull b r.line) ack srcInternal r.prio
    | _ => bayPut h b (.go b r.line grant) ack srcInternal r.prio)
  | .mover tok item => moverRes h tok item 0 0 false 0
  | .hub => h

/-- DATA_ATM to the requester (Table COH-8). -/
def replyAtm (h : Hub) (r : Req) (tag : Nat) (old : BitVec 64) (status : Nat) (cont : Bool) : Hub :=
  let h := if status = 1 then consumed h else h
  match r.who with
  | .peer _ => sendMsg h (agentNode r.agent) 0x31 (intAgent (ownNode h)) tag r.line r.prio false (8 * b2n cont)
      (.word (old.toNat + 2 ^ 64 * status))
  | .mover tok item => moverRes h tok item 0 old (status == 1) status
  | _ => h

/-- The completion of a request that is not served (R121, R481, Table COH-11). -/
def notServed (h : Hub) (r : Req) : Hub :=
  let tag := match r.who with
    | .peer t => t
    | _ => r.bob
  let drop := fun (b : Nat) => bayPut h b (.goWritePullDrop b r.line) none srcInternal r.prio
  match r.op, r.who with
  | .rdShared, _ => replyData h r tag 0 true 0 false none
  | .rdAny, _ => replyData h r tag 0 true 0 false none
  | .rdOwn, _ => replyData h r tag 0 true 0 false none
  | .rdCur, _ => replyData h r tag 0 true 0 false none
  | .upgrade, .peer _ => replyData h r tag 0 true 0 false none
  | .upgrade, _ => replyCmp h r tag 0 false none
  | .atomic _, _ => replyAtm h r tag 0 1 false
  | .nearAtomic _, _ => replyAtm h r tag 0 1 false
  | .wrFull _, .dev b => drop b
  | .wrPart .., .dev b => drop b
  | .evict, .dev b => drop b
  | _, _ => replyCmp h r tag 0 false none

/-! ### Data -/

/-- Merge the bytes that a mask enables. -/
def mergeBytes (old new : LineData) (mask : BitVec 64) : LineData :=
  (List.range 64).foldl (fun acc i =>
    if mask.getLsbD i then (acc &&& ~~~ ((0xFF#512) <<< (8 * i))) ||| (new &&& ((0xFF#512) <<< (8 * i))) else acc) old

/-- Signed value of an operand of w bits. -/
def signedOf (w v : Nat) : Int := if v < 2 ^ (w - 1) then (v : Int) else (v : Int) - 2 ^ w

/-- The far-atomic operation on w bits (Table COH-8). -/
def atomicOp (op w old arg cmp : Nat) : Nat :=
  match op with
  | 0 => (old + arg) % 2 ^ w
  | 1 => old &&& arg
  | 2 => old ||| arg
  | 3 => old ^^^ arg
  | 4 => arg
  | 5 => if old = cmp then arg else old
  | 6 => if signedOf w arg < signedOf w old then arg else old
  | 7 => if signedOf w old < signedOf w arg then arg else old
  | 8 => min old arg
  | 9 => max old arg
  | _ => old

/-- Execute an atomic on a line: the new line and the old value, zero-extended (R169). -/
def atomicExec (a : AtomicArg) (d : LineData) : LineData × BitVec 64 :=
  let w := if a.size8 then 64 else 32
  let sh := a.word.val * 64 + (if !a.size8 && a.upper then 32 else 0)
  let old := d.toNat / 2 ^ sh % 2 ^ w
  let new := atomicOp a.op w old (a.operand.toNat % 2 ^ w) (a.compare.toNat % 2 ^ w)
  (BitVec.ofNat 512 (d.toNat - old * 2 ^ sh + new * 2 ^ sh), BitVec.ofNat 64 old)

/-! ### Chains -/

/-- The chain of a line. -/
def chainOf (h : Hub) (line : LineAddr) : Chain := mapGet h.coh.chains line .empty

/-- Change a line's chain; an empty chain is not listed. -/
def modChain (h : Hub) (line : LineAddr) (f : Chain → Chain) : Hub :=
  { h with coh := { h.coh with chains := mapSet h.coh.chains line (f (chainOf h line)) .empty } }

/-- The transaction at the head. -/
def headOf (h : Hub) (line : LineAddr) : Option Txn := (chainOf h line).head

/-- Store the transaction at the head. -/
def putTxn (h : Hub) (line : LineAddr) (t : Txn) : Hub :=
  modChain h line (fun c => { c with head := some { t with since := h.htime } })

/-- A fresh transaction. -/
def txnOf (r : Req) (st : HSt) : Txn :=
  { req := r, st := st, awaited := [], dirty := none, hostWb := [], grant := 0, needAck := false, ackIn := false,
    fwdWait := false, wdata := none, contended := false, rebuild := false, since := 0 }

/-- The data-source mode in force for a line is FWD (R165, COH.CFG.FWD_DISABLE). -/
def fwdMode (h : Hub) (line : LineAddr) : Bool :=
  !(homeEntry h (granuleOf line)).memo && !flag h pCOH Fld.COH.CFG_FWD_DISABLE

/-- The requester is the RLC of another node. -/
def peerRlc (h : Hub) (a : AgentId) : Bool := agentBay a == 62 && agentNode a != ownNode h

/-- State that a shared read grants (R154): F (2) to an RLC in a FWD region, otherwise S (1). -/
def sharedGrant (h : Hub) (r : Req) : Nat := if agentBay r.agent == 62 && fwdMode h r.line then 2 else 1

/-- The entry after a grant to an agent (R186); bay code 63 and the own RLC are not recorded (R149). -/
def grantEnt (h : Hub) (e : DirEnt) (a : AgentId) (grant : Nat) : DirEnt :=
  if agentBay a ≥ 62 && !peerRlc h a then e
  else if grant = 1 then entAddS e a
  else if grant = 2 then entAddF e a
  else if grant = 3 || grant = 4 then entOwn a
  else e

/-- Stamp the head's sample record. -/
def tagTxn (t : Txn) (f : Tag → Tag) : Txn := { t with req := { t.req with tag := t.req.tag.map f } }

/-- The request is one of Table TRN-2 (R334). -/
def countedOp : ReqOp → Bool
  | .wbDirty _ => false | .evict => false | .rebuild => false | .flush => false
  | _ => true

/-- A line whose entry a way holds is reclaimed against every open record (R254, R255). -/
def reclaimCached (h : Hub) (line : LineAddr) : Hub :=
  if h.dead.recs.isEmpty then h
  else
    let e0 := entOf h line
    let (h, e) := reclaimLine h line e0
    if e = e0 then h
    else
      match wayOf h line with
      | some (w, v) =>
        modSet h (setKey line) (fun st => { st with ways := mapPut st.ways w { v with word := entWord h e, dirty := true } })
      | none => h

/-- A request comes to the head with its entry decoded: lazy reclaim (R254), CONTENDED (R170), access count (R334). -/
def comeToHead (h : Hub) (line : LineAddr) (t : Txn) : Hub :=
  let h := reclaimCached h line
  let e := entOf h line
  let others := match e.owner, e.fHolder with
    | some a, _ => a != t.req.agent
    | none, some a => a != t.req.agent
    | none, none => false
  let cont := !(chainOf h line).waiting.isEmpty || others
  let t := tagTxn { t with st := .ready, contended := cont } (fun g =>
    { g with t2 := some h.htime, t3 := some h.htime, cont := cont, dir := e.st.code })
  let h := putTxn h line t
  let h := if e.st = .poisoned || (e.owner.isSome && e.owner != some t.req.agent) then specDiscard h line else h
  if countedOp t.req.op && !cancelledRead h t.req then accessCount h line t.req.agent else h

/-- Look a line up for its new head: a hit, a fill from the write-back buffer, or a miss with its directory read and
speculative read (R211, R212, R218); with every way LOCKED it waits at HP9. -/
def lookup (h : Hub) (line : LineAddr) (t : Txn) : Hub :=
  match wayOf h line with
  | some (w, _) =>
    let h := touchWay (bump h pPRK Fld.PRK.LOOKUP_HIT_CNT) line w
    comeToHead h line (tagTxn t (fun g => { g with prkHit := true }))
  | none =>
    match inWbBuf h line with
    | some v =>
      (match fillWay h line v.word false with
      | some h => comeToHead (settleWaits (bump h pPRK Fld.PRK.LOOKUP_HIT_CNT) line) line
          (tagTxn t (fun g => { g with prkHit := true }))
      | none => putTxn (bump h pPRK Fld.PRK.WAY_STALL_CNT) line { t with st := .stall })
    | none =>
      match takeWay h line { line := line, word := 0, dirty := false, fetch := true } with
      | none => putTxn (bump h pPRK Fld.PRK.WAY_STALL_CNT) line { t with st := .stall }
      | some h =>
        let h := mediaReq (bump h pPRK Fld.PRK.LOOKUP_MISS_CNT) (entryLma h (localKey h line)) false
        let (h, iss) := specIssue h line t.req.op
        putTxn h line (tagTxn { t with st := .look } (fun g => { g with specIss := iss }))

/-! ### Completion -/

/-- Data of a completed memory write reaches the media; a write that fails, and one that carries poison, leaves the
line POISONED (R262, R482). True when the line is left POISONED. -/
def writeMedia (h : Hub) (line : LineAddr) (d : LineData) (poison ok : Bool) : Hub × Bool :=
  let k := localKey h line
  if !ok || wayDown h (wayOfData h k) then (poisonLine h line 2 0 h.tulle.epoch, true)
  else
    let h := setMedia h k d poison
    if poison then (poisonLine h line 4 0 h.tulle.epoch, true) else (h, false)

/-- A full-line write without poison clears a POISONED line outside a marked granule (R263, R267). -/
def clearOnWrite (h : Hub) (line : LineAddr) (e : DirEnt) : Hub :=
  let h := setEnt h line e
  if marked h (granuleOf line) then h else clearEntry h line

/-- Start the memory write of the head's transaction (R221). -/
def startWrite (h : Hub) (line : LineAddr) (t : Txn) (d : LineData) (poison : Bool) : Hub × Txn :=
  (mediaReq (specDiscard h line) (localKey h line * 64) true, { t with wdata := some (d, poison) })

/-- Start a snoop round that invalidates (R161, R177, R253); an agent that is none of Table COH-1 or dead is taken as
RSP_I. -/
def startInv (h : Hub) (line : LineAddr) (t : Txn) (targets : List AgentId) : Hub × Txn :=
  let live := targets.filter (fun a => snoopable h a && !agentDead h a)
  let h := live.foldl (fun h a => sendSnoop h line a 0x10 t.req.bob t.req.prio 0) h
  (h, tagTxn { t with st := .inv, awaited := live } (fun g => { g with snoops := g.snoops + live.length }))

/-- Whom to invalidate for a request: every possible holder except the requester; a broadcast is counted (R177). -/
def invTargets (h : Hub) (e : DirEnt) (self : AgentId) : List AgentId × Hub :=
  if e.st = .overflow then ((allHolders h).filter (· != self), bump h pCOH Fld.COH.BCAST_CNT)
  else (e.named.filter (· != self), h)

/-- The head's data comes from memory: a held speculative read serves it, otherwise MRD (R186, R220). Answers whether
the data is at hand, and then whether it came with poison or a media error. -/
def needMemory (h : Hub) (line : LineAddr) (t : Txn) : Hub × Txn × Option Bool :=
  match liveSpec h line with
  | some s =>
    if s.back then
      (modSpec (bump h pPRK Fld.PRK.SPEC_USE_CNT) (fun l => l.filter (fun x => !(x.line == line && !x.discarded))),
        tagTxn { t with st := .mrd } (fun g => { g with specUse := true, t4 := some h.htime }), some s.bad)
    else (h, { t with st := .mrd }, none)
  | none => (mediaReq h (localKey h line * 64) false, { t with st := .mrd }, none)

/-- A write-back whose writer is not the recorded owner: its data is discarded and its completion sent (R189). -/
def discardWb (h : Hub) (r : Req) : Hub := bobFree (replyCmp h r r.bob 0 false none) r.bob

/-- A write-back's class: the recorded owner writes. -/
def ownerWrites (h : Hub) (r : Req) : Bool := (entOf h r.line).owner == some r.agent

/-- A MemWr that is no write-back becomes a write (R231). -/
def asWrite (r : Req) : Req :=
  match r.op with
  | .memWr d mask _ => { r with op := if mask = BitVec.allOnes 64 then .wrFull d else .wrPart d mask }
  | _ => r

/-- The write-back of the recorded owner becomes the line's transaction (R189, R193); a DirtyEvict is pulled first
(R192). -/
def startWb (h : Hub) (line : LineAddr) (t : Txn) : Hub :=
  match t.req.op with
  | .wbDirty d =>
    let (h, t) := startWrite h line { t with st := .mwr } d t.req.poison
    putTxn h line t
  | .memWr d mask _ =>
    let (h, t) := startWrite h line { t with st := .mwr } (mergeBytes (mediaLine h (localKey h line)).data d mask)
      (t.req.poison || (mask != BitVec.allOnes 64 && (mediaLine h (localKey h line)).poison))
    putTxn h line t
  | .evict =>
    putTxn (replyCmp h t.req t.req.bob 0 false none) line { t with st := .pull }
  | _ => putTxn h line t

/-- A MemWr that left write staging while its granule was FROZEN and proves to be no write-back is a newly arrived request:
it waits on the handoff queue without a bobbin (R199). -/
def waitsFrozen (h : Hub) (r : Req) : Bool :=
  r.late && (homeEntry h (granuleOf r.line)).frozen && homedHere h (granuleOf r.line)

/-- Put it there. -/
def toHoQueue (h : Hub) (r : Req) : Hub :=
  let src := match r.who with
    | .host b _ => b
    | _ => srcInternal
  { h with coh := { h.coh with hoQueue := h.coh.hoQueue ++
      [{ slice := sliceOf r.line, src := src, pool := 0, req := { asWrite r with tag := none, late := false },
         since := h.htime, lane := none, link := none }] } }

/-- Begin a transaction that no row serves: an owner's write-back, a CLFlush. True when it ended at once; a rebuild that
comes to the head of a chain finds its entry in a way and has nothing to do. -/
def startAuto (h : Hub) (line : LineAddr) (t : Txn) : Hub × Bool :=
  match t.req.op with
  | .flush =>
    let e := entOf h line
    let (targets, h) := invTargets h e noAgent
    let (h, t) := startInv h line { t with st := .inv } targets
    if t.awaited.isEmpty then
      let h := if e.st = .poisoned then h else setEnt h line .uncached
      (specDiscard (replyCmp (putTxn h line t) t.req t.req.bob 0 t.contended none) line, true)
    else (putTxn h line t, false)
  | .rebuild => (h, true)
  | .wbDirty _ =>
    if ownerWrites h t.req then (startWb h line t, false)
    else (replyCmp h t.req t.req.bob 0 false none, true)
  | .evict =>
    if ownerWrites h t.req then (startWb h line t, false)
    else (replyCmp h t.req t.req.bob 0 false none, true)
  | .memWr .. =>
    if ownerWrites h t.req then (startWb h line t, false)
    else if waitsFrozen h t.req then (toHoQueue h t.req, true)
    else (putTxn h line { t with req := asWrite t.req }, false)
  | _ => (h, false)

/-- A request that a row of the table serves from READY. -/
def rowServed : ReqOp → Bool
  | .flush => false | .rebuild => false | .wbDirty _ => false | .evict => false | .memWr .. => false
  | .snoop _ => false | .snpWb .. => false
  | _ => true

/-- The head has ended: waiting write-backs are served first, then the next request comes to the head (R189, R232). -/
def settleChain : Nat → Hub → LineAddr → Hub
  | 0, h, _ => h
  | fuel + 1, h, line =>
    let c := chainOf h line
    match c.head, c.wbs, c.waiting with
    | some _, _, _ => h
    | none, w :: ws, _ =>
      let h := modChain h line (fun c => { c with wbs := ws })
      if ownerWrites h w then startWb h line (txnOf w .mwr)
      else
        (match w.op with
        | .memWr .. =>
          if waitsFrozen h w then settleChain fuel (bobFree (toHoQueue h w) w.bob) line
          else comeToHead h line (txnOf (asWrite w) .ready)
        | _ => settleChain fuel (discardWb h w) line)
    | none, [], r :: rs =>
      let h := modChain h line (fun c => { c with waiting := rs })
      let h := comeToHead h line (txnOf r .ready)
      if rowServed r.op then h
      else
        (match headOf h line with
        | none => h
        | some t =>
          let (h, ended) := startAuto h line t
          if ended then
            settleChain fuel (bobFree (modChain h line (fun c => { c with head := none })) r.bob) line
          else h)
    | none, [], [] => h

/-- The head's transaction completes: its sample record, its bobbin, the next on the chain; with a dead record open the
line is reclaimed (R232, R254, R381). -/
def releaseHead (h : Hub) (line : LineAddr) : Hub :=
  match headOf h line with
  | none => h
  | some t =>
    let h := specDiscard h line
    let h := sampleRecord h t.req false
    let h := modChain h line (fun c => { c with head := none })
    let h := reclaimCached (bobFree h t.req.bob) line
    let c := chainOf h line
    settleChain (c.wbs.length + c.waiting.length + 1) h line

/-- Finish the head when nothing is awaited any more: the grant is recorded (R186) and the bobbin released. An ACK
awaited from a dead agent is taken as given (R253). -/
def tryFinish (h : Hub) (line : LineAddr) : Hub :=
  match headOf h line with
  | none => h
  | some t =>
    if (t.st = .ackw || t.st = .fwdw) && (!t.needAck || t.ackIn || reqLost h t.req) && !t.fwdWait && t.wdata.isNone then
      let e := entOf h line
      let e' := if e.owner == some t.req.agent then DirEnt.uncached else e
      let h := if e.st = .poisoned || t.grant = 0 then h
        else setEnt h line (grantEnt h e' t.req.agent t.grant)
      releaseHead h line
    else h

/-- Send the head's data; a poisoned line grants nothing (R262, Table TRN-2), and no new grant goes to a dead agent
(R257; log entry 26). -/
def sendHead (h : Hub) (line : LineAddr) (t : Txn) (d : LineData) (poison : Bool) (grant : Nat) : Hub :=
  let g := if poison || reqLost h t.req then 0 else grant
  let ack := if g = 0 then none else some line
  let h := replyData h t.req t.req.bob d poison g t.contended ack
  let h := putTxn h line (tagTxn { t with st := .ackw, grant := g, needAck := g != 0, ackIn := false, awaited := [] }
    (fun x => { x with t4 := x.t4.orElse (fun _ => some h.htime) }))
  tryFinish h line

/-- The grant a read ends with when data comes from memory. -/
def memGrant (h : Hub) (r : Req) (e : DirEnt) : Nat :=
  match r.op with
  | .rdShared => sharedGrant h r
  | .rdAny => if e.st = .uncached then 3 else sharedGrant h r
  | .rdOwn => 3
  | .upgrade => 3
  | _ => 0

/-- Memory data is at hand for the head: send it, or execute and write (R168, R169, R158). -/
def useMemory (h : Hub) (line : LineAddr) (t : Txn) (d : LineData) (poison : Bool) : Hub :=
  let (d, poison) := match t.dirty with
    | some (x, p) => (x, p)
    | none => (d, poison)
  match t.req.op with
  | .atomic a =>
    if poison then
      match t.dirty with
      | some _ =>
        -- poisoned snoop data is written before the atomic is turned away (R262)
        let (h, t) := startWrite h line { t with st := .mwr } d true
        putTxn h line t
      | none => releaseHead (replyAtm (putTxn h line t) t.req t.req.bob 0 1 t.contended) line
    else
      -- the old value rides in `dirty` until the write ends
      let (nd, old) := atomicExec a d
      let h := bump h pCOH Fld.COH.ATOM_FAR_CNT
      let (h, t) := startWrite h line { t with st := .mwr, dirty := some (BitVec.ofNat 512 old.toNat, false) } nd false
      putTxn h line t
  | .wrPart w mask =>
    let (h, t) := startWrite h line { t with st := .mwr } (mergeBytes d w mask) (poison || t.req.poison)
    putTxn h line t
  | _ => sendHead h line t d poison t.grant

/-- A read of the media found poison or a media error: the line becomes POISONED (R262), but for a prefetch, which leaves
no trace (R16). -/
def readPoisons (h : Hub) (line : LineAddr) (r : Req) : Hub :=
  if (entOf h line).st = .poisoned || prefetchRead h r then h else poisonLine h line 2 0 h.tulle.epoch

/-- Serve the head's data need from memory (R186). -/
def fromMemory (h : Hub) (line : LineAddr) (t : Txn) (grant : Nat) : Hub :=
  match t.dirty with
  | some (d, p) => useMemory h line { t with grant := grant } d p
  | none =>
    let (h, t, here) := needMemory h line { t with grant := grant }
    match here with
    | some bad =>
      let h := putTxn h line t
      let h := if bad then readPoisons h line t.req else h
      useMemory h line t (mediaLine h (localKey h line)).data bad
    | none => putTxn h line t

/-- The data of the write is still with the device, which sends it on GO_WritePull (DEDUCED, log entry 27). -/
def pulls (r : Req) : Bool :=
  match r.who with
  | .dev _ => true
  | _ => false

/-- The completion of a write; a device has had its GO_WritePull. -/
def writeCmp (h : Hub) (r : Req) (cont : Bool) : Hub := if pulls r then h else replyCmp h r r.bob 0 cont none

/-- The head comes to be served: as a row of Table TRN-2, or at once. -/
def beginHead (h : Hub) (line : LineAddr) (t : Txn) : Hub :=
  let h := comeToHead h line t
  if rowServed t.req.op then h
  else
    match headOf h line with
    | none => h
    | some t =>
      let (h, ended) := startAuto h line t
      if ended then releaseHead h line else h

/-- A rebuild has recalled every holder and written the dirty data: the entry is UNCACHED with the current BGEN, unless the
write left the line POISONED; its bobbin is released, and the request that needed the entry is served (R217). -/
def afterRebuild (h : Hub) (line : LineAddr) (t : Txn) (bad : Bool) : Hub :=
  let h := if bad then h else writeEnt h line .uncached
  let h := match t.rbob with
    | some b => bobFree h b
    | none => h
  beginHead (settleWaits h line) line { t with rebuild := false, rbob := none, dirty := none, st := .ready }

/-- All invalidations are answered: continue as Table TRN-2 gives (R188, R190). -/
def afterInv (h : Hub) (line : LineAddr) (t : Txn) : Hub :=
  if t.rebuild then
    match t.dirty with
    | some (d, p) =>
      let (h, t) := startWrite h line { t with st := .mwr } d p
      putTxn h line t
    | none => afterRebuild (putTxn h line t) line t false
  else
    match t.req.op with
    | .rdOwn | .upgrade =>
      let upg := t.req.op = .upgrade && t.grant = 3
      if upg then
        let h := replyCmp h t.req t.req.bob 3 t.contended (some line)
        let g := if reqLost h t.req then 0 else t.grant
        tryFinish (putTxn h line { t with st := .ackw, grant := g, needAck := true, ackIn := false }) line
      else
        match t.dirty with
        | some (d, p) =>
          if fwdMode h line then
            let (h, t) := startWrite h line t d p
            sendHead h line t d p 3
          else
            let (h, t) := startWrite h line { t with st := .mwr, grant := 3 } d p
            putTxn h line t
        | none => fromMemory h line t 3
    | .wrFull d =>
      if pulls t.req && agentDead h t.req.agent then releaseHead (putTxn h line t) line
      else if pulls t.req then putTxn (replyCmp h t.req t.req.bob 0 false none) line { t with st := .pull }
      else
        let (h, t) := startWrite h line { t with st := .mwr } d t.req.poison
        putTxn h line t
    | .stash d _ =>
      let (h, t) := startWrite h line { t with st := .mwr } d t.req.poison
      putTxn h line t
    | .wrPart .. =>
      if pulls t.req && agentDead h t.req.agent then releaseHead (putTxn h line t) line
      else if pulls t.req then putTxn (replyCmp h t.req t.req.bob 0 false none) line { t with st := .pull }
      else fromMemory h line t 0
    | .atomic _ => fromMemory h line t 0
    | .flush =>
      (match t.dirty with
      | some (d, p) =>
        let (h, t) := startWrite h line { t with st := .mwr } d p
        putTxn h line t
      | none =>
        let e := entOf h line
        let h := if e.st = .poisoned then h else setEnt h line .uncached
        releaseHead (replyCmp (putTxn h line t) t.req t.req.bob 0 t.contended none) line)
    | _ => putTxn h line t

/-- Invalidate, then continue. -/
def invThen (h : Hub) (line : LineAddr) (t : Txn) (targets : List AgentId) : Hub :=
  let (h, t) := startInv h line t targets
  if t.awaited.isEmpty then afterInv h line t else putTxn h line t

/-- The poisoned answer of a read or an atomic (Table TRN-2, R267). -/
def servePoisoned (h : Hub) (line : LineAddr) (t : Txn) : Hub :=
  let h := specDiscard h line
  match t.req.op with
  | .atomic _ => releaseHead (replyAtm (putTxn h line t) t.req t.req.bob 0 1 t.contended) line
  | _ => sendHead h line t 0 true 0

/-- SNP_FWD to the holder (R187). -/
def serveFwd (h : Hub) (line : LineAddr) (t : Txn) (x : AgentId) (grant : Nat) : Hub :=
  let h := specDiscard h line
  let h := sendSnoop h line x 0x12 t.req.bob t.req.prio (t.req.agent % 8192 + 2 ^ 13 * grant)
  putTxn h line (tagTxn { t with st := .fwdw, grant := grant, needAck := true, ackIn := false, fwdWait := true,
                                 awaited := [x] } (fun g => { g with snoops := g.snoops + 1 }))

/-- SNP_DATA, or its CXL form, to the owner. -/
def serveSdat (h : Hub) (line : LineAddr) (t : Txn) (x : AgentId) (grant : Nat) : Hub :=
  let h := specDiscard h line
  if snoopable h x && !agentDead h x then
    let h := sendSnoop h line x 0x11 t.req.bob t.req.prio 0
    putTxn h line (tagTxn { t with st := .sdat, grant := grant, awaited := [x] } (fun g => { g with snoops := g.snoops + 1 }))
  else fromMemory (dropAgent h line x) line t grant

/-- Serve the request at the head of a line's chain by its directory state (R185, Table TRN-2). -/
def serveHead (h : Hub) (line : LineAddr) : Hub :=
  match headOf h line with
  | none => h
  | some t =>
    if t.st != .ready then h
    else
      let r := t.req
      let e0 := entOf h line
      let own := e0.owner == some r.agent
      let e := if own then DirEnt.uncached else e0
      let read := match r.op with
        | .rdShared => true | .rdAny => true | .rdOwn => true | .rdCur => true | .upgrade => true | .atomic _ => true
        | _ => false
      let badOp := match r.op with
        | .atomic a => decide (9 < a.op)
        | _ => false
      if badOp then
        let h := bump h pCOH Fld.COH.PROTO_ERR_CNT
        let h := setIstat (errlog h pCOH 1 (line * 64) (7 + 2 ^ 8 * (r.agent % 8192))) pCOH 0
        releaseHead (replyAtm h r r.bob 0 2 t.contended) line
      else if read && (e0.st = .poisoned || marked h (granuleOf line)) then servePoisoned h line t
      else
        let sg := sharedGrant h r
        match r.op with
        | .rdShared | .rdAny =>
          (match e.owner with
          | some x =>
            if fwdMode h line && peerRlc h r.agent && peerRlc h x then serveFwd h line t x 2 else serveSdat h line t x sg
          | none =>
            match e.fHolder with
            | some x =>
              if fwdMode h line && peerRlc h r.agent && peerRlc h x && x != r.agent then serveFwd h line t x 2
              else fromMemory h line t sg
            | none => fromMemory h line t (memGrant h r e))
        | .rdOwn =>
          (match e.owner with
          | some x =>
            if fwdMode h line && peerRlc h r.agent && peerRlc h x then serveFwd h line t x 4
            else invThen (specDiscard h line) line { t with grant := 0 } [x]
          | none =>
            let (ts, h) := invTargets h e r.agent
            invThen h line { t with grant := 0 } ts)
        | .upgrade =>
          (match e.owner with
          | some x =>
            if fwdMode h line && peerRlc h r.agent && peerRlc h x then serveFwd h line t x 4
            else invThen h line { t with grant := 0 } [x]
          | none =>
            let named := e.st = .shared && e.named.contains r.agent
            let (ts, h) := invTargets h e r.agent
            invThen h line { t with grant := if named then 3 else 0 } ts)
        | .rdCur =>
          (match e.owner with
          | some x => serveSdat h line t x 0
          | none => fromMemory h line t 0)
        | .atomic _ =>
          let (ts, h) := invTargets h e noAgent
          invThen h line { t with grant := 0 } ts
        | _ =>
          let (ts, h) := invTargets h e r.agent
          invThen h line { t with grant := 0 } ts

/-! ### Answers (Table TRN-3) -/

/-- An answer to a snoop. -/
inductive Ans where
  | rspI
  | rspS
  | wb (nextS : Bool) (d : LineData) (poison : Bool) (mask : BitVec 64)
  | fwd (nextS : Bool)
  | fwdWb (nextS : Bool) (d : LineData) (poison : Bool)
  deriving DecidableEq, Repr

/-- Handle an answer of an agent for the transaction at the head; none where Table TRN-3 gives no row. -/
def homeAnswer (h : Hub) (line : LineAddr) (a : AgentId) (ans : Ans) : Option Hub :=
  match headOf h line with
  | none => none
  | some t =>
    if !t.awaited.contains a then none
    else
      let left := t.awaited.filter (· != a)
      let base := (mediaLine h (localKey h line)).data
      let t' := tagTxn { t with awaited := left } (fun g => { g with t4 := some h.htime })
      match t.st, ans with
      | .inv, .rspI =>
        let h := dropAgent h line a
        some (if left.isEmpty then afterInv h line t' else putTxn h line t')
      | .inv, .wb false d p mask =>
        let h := dropAgent h line a
        let d' := if mask = BitVec.allOnes 64 then d else mergeBytes base d mask
        let t' := { t' with dirty := some (d', p) }
        some (if left.isEmpty then afterInv h line t' else putTxn h line t')
      | .sdat, .rspI => some (fromMemory (dropAgent h line a) line t' t.grant)
      | .sdat, .rspS => some (fromMemory (setEnt h line (entDemote (entOf h line) a)) line t' t.grant)
      | .sdat, .wb nextS d p mask =>
        let h := if nextS then setEnt h line (entDemote (entOf h line) a) else dropAgent h line a
        let d' := if mask = BitVec.allOnes 64 then d else mergeBytes base d mask
        if fwdMode h line then
          let (h, t') := startWrite h line t' d' p
          some (sendHead h line t' d' p t.grant)
        else
          let (h, t') := startWrite h line { t' with st := .mwr, dirty := some (d', p) } d' p
          some (putTxn h line t')
      | .fwdw, .fwd nextS =>
        let h := if nextS then setEnt h line (entDemote (entOf h line) a) else dropAgent h line a
        some (tryFinish (putTxn h line { t' with fwdWait := false }) line)
      | .fwdw, .fwdWb nextS d p =>
        let h := if nextS then setEnt h line (entDemote (entOf h line) a) else dropAgent h line a
        let (h, t') := startWrite h line { t' with fwdWait := false } d p
        some (putTxn h line t')
      | .fwdw, .rspI =>
        let h := dropAgent h line a
        let g := if t.grant = 4 then 3 else t.grant
        some (fromMemory h line { t' with fwdWait := false, needAck := false } g)
      | _, _ => none

/-- The data of a device's write or DirtyEvict arrives after GO_WritePull (R192); none where the home pulls none. -/
def homePulled (h : Hub) (line : LineAddr) (a : AgentId) (d : LineData) (poison : Bool) : Option Hub :=
  match headOf h line with
  | none => none
  | some t =>
    if t.st != .pull || t.req.agent != a then none
    else
      match t.req.op with
      | .wrPart _ mask =>
        some (fromMemory h line { t with req := { t.req with op := .wrPart d mask, poison := poison } } 0)
      | .wrFull _ =>
        let (h, t) := startWrite h line { t with st := .mwr, req := { t.req with op := .wrFull d, poison := poison } } d poison
        some (putTxn h line t)
      | _ =>
        let (h, t) := startWrite h line { t with st := .mwr } d poison
        some (putTxn h line t)

/-- The requester's ACK. -/
def homeAck (h : Hub) (line : LineAddr) (a : AgentId) : Option Hub :=
  match headOf h line with
  | none => none
  | some t =>
    if (t.st = .ackw || t.st = .fwdw) && t.needAck && !t.ackIn && t.req.agent == a then
      some (tryFinish (putTxn h line { t with ackIn := true }) line)
    else none

/-- The consumer's RLC may be pushed to (R173). -/
def pushEligible (h : Hub) (consumer : AgentId) (poisoned : Bool) : Bool :=
  let n := agentNode consumer
  flag h pCOH Fld.COH.CFG_STASH_EN && n != ownNode h && isPresent h n && !(nodeRt h n).fenced &&
    (nodeRt h n).mode != 3 && (nodeRt h n).mode != 4 && !poisoned

/-- STASH_ACK from the target. -/
def homeStashAck (h : Hub) (line : LineAddr) (a : AgentId) (accepted : Bool) : Option Hub :=
  match headOf h line with
  | none => none
  | some t =>
    if t.st = .push && t.awaited.contains a then
      let h := if accepted then setEnt h line (entOwn a)
        else bump (setEnt h line .uncached) pCOH Fld.COH.STASH_DECLINE_CNT
      some (releaseHead h line)
    else none

/-- A memory write of the head completes (Table TRN-3, R172, R189, R193). -/
def writeDone (h : Hub) (line : LineAddr) (ok : Bool) : Hub :=
  match headOf h line with
  | none => h
  | some t =>
    match t.wdata with
    | none => h
    | some (d, p) =>
      let was := (entOf h line).st = .poisoned
      let (h, bad) := writeMedia h line d p ok
      let t := { t with wdata := none }
      let h := putTxn h line t
      if t.st != .mwr then tryFinish h line
      else if t.rebuild then afterRebuild h line t bad
      else
        match t.req.op with
        | .rdShared | .rdAny | .rdOwn | .rdCur | .upgrade =>
          let (d', p') := t.dirty.getD (d, p)
          sendHead h line t d' (p' || bad) t.grant
        | .atomic _ =>
          let old := match t.dirty with
            | some (x, _) => BitVec.ofNat 64 x.toNat
            | none => 0
          let h := if bad then h else setEnt h line .uncached
          releaseHead (replyAtm h t.req t.req.bob (if bad then 0 else old) (b2n bad) t.contended) line
        | .wrFull _ =>
          let h := if bad then h else clearOnWrite h line .uncached
          releaseHead (writeCmp h t.req t.contended) line
        | .wrPart .. =>
          let h := if bad || was then h else setEnt h line .uncached
          releaseHead (writeCmp h t.req t.contended) line
        | .stash _ consumer =>
          let h := if bad then h else clearOnWrite h line .uncached
          let h := replyCmp h t.req t.req.bob 0 t.contended none
          if pushEligible h consumer bad then
            let dest := rlcAgent (agentNode consumer)
            let h := bump h pCOH Fld.COH.STASH_PUSH_CNT
            let h := sendMsg h (agentNode consumer) 0x32 (intAgent (ownNode h)) t.req.bob line t.req.prio false 0
              (.line d)
            putTxn h line { t with st := .push, awaited := [dest] }
          else releaseHead (bump h pCOH Fld.COH.STASH_SKIP_CNT) line
        | .wbDirty _ =>
          let h := if bad then h else setEnt h line .uncached
          releaseHead (replyCmp h t.req t.req.bob 0 false none) line
        | .evict =>
          releaseHead (if bad then h else setEnt h line .uncached) line
        | .memWr _ _ m =>
          let h := if bad then h else
            (match m with
            | .i => setEnt h line .uncached
            | .s => setEnt h line (entAddS .uncached t.req.agent)
            | .a => setEnt h line (entOwn t.req.agent))
          releaseHead (replyCmp h t.req t.req.bob 0 false none) line
        | .flush =>
          let h := if bad then h else setEnt h line .uncached
          releaseHead (replyCmp h t.req t.req.bob 0 t.contended none) line
        | .rebuild => releaseHead (if bad then h else setEnt h line .uncached) line
        | .nearAtomic _ => h
        | .snoop _ => h
        | .snpWb .. => h

/-- A memory read returns for the line: speculative data is dropped or held, otherwise MRD ends (R186, R222, R262). -/
def readDone (h : Hub) (line : LineAddr) (err : Bool) : Hub :=
  let k := localKey h line
  let m := mediaLine h k
  let bad := err || m.poison || wayDown h (wayOfData h k)
  match h.prk.spec.find? (fun s => s.line == line && !s.back) with
  | some s =>
    if s.discarded then
      let h := if bad then bump h pPRK Fld.PRK.SPEC_POISON_DROP_CNT else h
      modSpec h (fun l => l.erase s)
    else
      let h := modSpec h (fun l => l.replace s { s with back := true, bad := bad })
      (match headOf h line with
      | some t =>
        if t.st = .mrd then
          let h := modSpec (bump h pPRK Fld.PRK.SPEC_USE_CNT) (fun l => l.filter (fun x => !(x.line == line && !x.discarded)))
          let t := tagTxn t (fun g => { g with specUse := true, t4 := some h.htime })
          let h := if bad && t.dirty.isNone then readPoisons h line t.req else h
          useMemory (putTxn h line t) line t m.data bad
        else h
      | none => h)
  | none =>
    match headOf h line with
    | some t =>
      if t.st = .mrd then
        let t := tagTxn t (fun g => { g with t4 := some h.htime })
        let h := if bad then readPoisons h line t.req else h
        useMemory (putTxn h line t) line t m.data bad
      else h
    | none => h

/-- The request that stands for a rebuild's management-pool work. -/
def rebuildReq (h : Hub) (line : LineAddr) : Req :=
  { who := .hub, agent := intAgent (ownNode h), op := .rebuild, line := line, poison := false,
    prio := fld h pBOB Fld.BOB.PRI_MGT, ctx := 0, bob := 0, t0 := h.htime, hops := 31, tag := none }

/-- An entry must be rebuilt: counted and logged, DETAIL 1 for a media error and 2 for an inconsistent entry (R217). -/
def noteRebuild (h : Hub) (line : LineAddr) (why : Nat) : Hub :=
  let h := bump h pPRK Fld.PRK.REBUILD_CNT
  setIstat (errlog h pPRK 1 (entryLma h (localKey h line) / 64 * 64) why) pPRK 0

/-- The rebuild begins, its bobbin at hand: every possible holder is invalidated (R177, R217; the broadcast is counted in
BCAST_CNT, DESIGN CHOICE, log entry 89). -/
def startRebuild (h : Hub) (line : LineAddr) (t : Txn) : Hub :=
  let h := bump h pCOH Fld.COH.BCAST_CNT
  invThen h line { t with rebuild := true } (allHolders h)

/-- Management-pool work of a line waits in its ingress buffer (R227, R228). -/
def mgmtWait (h : Hub) (line : LineAddr) : Hub :=
  { h with coh := { h.coh with ingress := h.coh.ingress ++
      [{ slice := sliceOf line, src := srcInternal, pool := 3, req := rebuildReq h line, since := h.htime, lane := none,
         link := none }] } }

/-- A management-pool bobbin for a line: the lowest free one, where no other such work of the slice waits (R226, R228). -/
def mgmtTake (h : Hub) (line : LineAddr) : Option (Nat × Hub) :=
  if h.coh.ingress.any (fun x => x.pool == 3 && x.slice == sliceOf line) then none
  else bobTake h (sliceOf line) 3 { line := line, prio := fld h pBOB Fld.BOB.PRI_MGT, remote := false }

/-- A rebuild that the walk asks for has its bobbin: it is a transaction at the head of its line's chain; an entry that the
cache has come to hold needs none (R223). With every way LOCKED it waits. -/
def joinRebuild (h : Hub) (r : Req) : Hub :=
  match headOf h r.line with
  | some t =>
    if t.st = .rwait then startRebuild h r.line { t with rbob := some r.bob, st := .ready }
    else modChain h r.line (fun c => { c with waiting := c.waiting ++ [r] })
  | none =>
    if (cachedEnt h r.line).isSome then bobFree h r.bob
    else
      match fillWay h r.line (entWord h .uncached) false with
      | some h => startRebuild h r.line (txnOf r .ready)
      | none => putTxn h r.line (txnOf r .stall)

/-- The directory entry of a miss returns (R217, R220). -/
def dirReturn (h : Hub) (line : LineAddr) (err : Bool) : Hub :=
  match headOf h line with
  | none => h
  | some t =>
    if t.st != .look then h
    else
      let (e, why) := regionRead h line
      let why := if err then 1 else why
      if why != 0 && cancelledRead h t.req then releaseHead (notServed (dropFetch h line) t.req) line
      else match fillWay h line (entWord h (if why = 0 then e else .uncached)) false with
      | none => putTxn (bump h pPRK Fld.PRK.WAY_STALL_CNT) line { t with st := .stall }
      | some h =>
        if why = 0 then beginHead (settleWaits h line) line t
        else
          let h := noteRebuild (specDiscard h line) line why
          match mgmtTake h line with
          | some (b, h) => startRebuild h line { t with rbob := some b }
          | none => mgmtWait (putTxn h line { t with st := .rwait }) line

/-- A request granted into its slice joins its line's chain, or becomes the head and is looked up (R233). -/
def joinChain (h : Hub) (r : Req) : Hub :=
  let c := chainOf h r.line
  if c.head.isSome then modChain h r.line (fun c => { c with waiting := c.waiting ++ [r] })
  else
    let h := lookup h r.line (txnOf r .look)
    match headOf h r.line with
    | some t =>
      if t.st = .ready && !rowServed r.op then
        let (h, ended) := startAuto h r.line t
        if ended then releaseHead h r.line else h
      else h
    | none => h

/-! ### Media ways that are unreachable (R482) -/

/-- What waits on a media way that is unreachable: nothing on one that can be reached. -/
def mediaStep (h : Hub) : Option Hub :=
  let down := fun (line : LineAddr) => wayDown h (wayOfData h (localKey h line))
  let dirDown := fun (line : LineAddr) => wayDown h (wayOfLma h (entryLma h (localKey h line)))
  match h.prk.wbBuf.zipIdx.find? (fun x => wayDown h (wayOfLma h (entryLma h x.1.1))) with
  | some x => some (wbDone h x.2 false)
  | none =>
    match h.prk.spec.find? (fun s => !s.back && down s.line) with
    | some s => some (readDone h s.line true)
    | none =>
      (h.coh.chains.findSome? (fun c => c.2.head.bind (fun t =>
        if t.st = .look && dirDown c.1 then some (dirReturn h c.1 true)
        else if t.st = .mrd && down c.1 then some (readDone h c.1 true)
        else if t.wdata.isSome && down c.1 then some (writeDone h c.1 false)
        else none)))

/-- Every read and write directed to a media way that is unreachable completes at once as a media error, one after the
other. -/
def mediaSettle : Nat → Hub → Hub
  | 0, h => h
  | n + 1, h =>
    match mediaStep h with
    | some h => mediaSettle n h
    | none => h

/-- Steps that settle whatever is under way: each ends a read or a write, and no bobbin's work takes more than a few. -/
def mediaFuel (h : Hub) : Nat := 16 * (h.coh.bobs.length + h.prk.spec.length + h.prk.wbBuf.length + 1)

end Sys2Proof.Machine
end

