-- ==== Sys2Proof/Machine/Rlc.lean ====
section
/-! DEFINITION. The RLC: lines homed on peers, their local holders, recalls, misses, write-backs and snoop answers
(R150, R158, R161, R194 to R198, Tables COH-6 and TRN-5); the atomic predictor (R171). -/

namespace Sys2Proof.Machine

/-! ### The predictor (R171) -/

/-- Counter index of a line. -/
def predIndex (line : LineAddr) : Nat := lineCrc line % 4096

/-- A line's counter. -/
def predVal (h : Hub) (line : LineAddr) : Nat := mapGet h.coh.pred (predIndex line) 1

/-- Move a line's counter by one, saturating; a change between 1 and 2 counts PRED_FLIP_CNT. -/
def predMove (h : Hub) (line : LineAddr) (up : Bool) : Hub :=
  let v := predVal h line
  let v' := if up then min (v + 1) 3 else v - 1
  let h := { h with coh := { h.coh with pred := mapSet h.coh.pred (predIndex line) v' 1 } }
  if (v = 1 && v' = 2) || (v = 2 && v' = 1) then bump h pCOH Fld.COH.PRED_FLIP_CNT else h

/-! ### Lines -/

/-- A line of the RLC. -/
def rlcLine (h : Hub) (line : LineAddr) : RLine := mapGet h.coh.rlc line .none

/-- Store a line of the RLC; a line in I that holds nothing is not listed, and a line that is not dirty holds no write. -/
def putRlc (h : Hub) (line : LineAddr) (l : RLine) : Hub :=
  let l := if l.st = .m || l.st = .mia then l else { l with wrote := [] }
  { h with coh := { h.coh with rlc := mapSet h.coh.rlc line l .none } }

/-- The state is stable. -/
def RSt.stable : RSt → Bool
  | .i => true | .s => true | .f => true | .e => true | .m => true
  | _ => false

/-- The RLC owns the line. -/
def RSt.owns : RSt → Bool
  | .e => true | .m => true
  | _ => false

/-- Home node of a line. -/
def homeNode (h : Hub) (line : LineAddr) : Nat := (homeEntry h (granuleOf line)).home

/-- Send a message of this RLC to a line's home. -/
def rlcSend (h : Hub) (line : LineAddr) (opc tag prio : Nat) (poison : Bool) (attr : Nat) (body : Payload) : Hub :=
  sendMsg h (homeNode h line) opc (rlcAgent (ownNode h)) tag line prio poison attr body

/-- Lines of the RLC in a line's set. -/
def rlcPeers (h : Hub) (line : LineAddr) : List (Nat × RLine) :=
  h.coh.rlc.filter (fun e => Config.rlcSet e.1 % 49152 == Config.rlcSet line % 49152)

/-- The line's set has a way for it. -/
def rlcRoom (h : Hub) (line : LineAddr) : Bool :=
  (mapGet? h.coh.rlc line).isSome || (rlcPeers h line).length < 16

/-- An RLC line loses a dead local holder (Table DED-2): a holder that owned it is taken to have held it dirty. -/
def rlcReclaim (h : Hub) (line : LineAddr) (a : AgentId) : Hub :=
  let l := rlcLine h line
  if l.holders.owner == some a then putRlc h line { l with holders := .uncached, st := .m, poison := true }
  else putRlc h line { l with holders := entRemove l.holders a }

/-- A line is reclaimed against every open record before a snoop, a request or an eviction acts on it (R254, R255; log
entry 26). -/
def rlcLazy (h : Hub) (line : LineAddr) : Hub :=
  h.dead.recs.foldl (fun h r =>
    if (rlcLine h line).holders.named.contains r.2.agent then rlcReclaim h line r.2.agent else h) h

/-- A local copy of the line must be recalled for an invalidation (all holders) or a downgrade (an owner only). -/
def recallTargets (h : Hub) (l : RLine) (inv : Bool) (but : AgentId) : List AgentId :=
  let c := if l.holders.st = .overflow then ((List.range 48).filter (bayIsAgent h)).map (fun b => ownNode h * 64 + b)
    else l.holders.named
  if inv then c.filter (fun a => a != but && snoopable h a && !agentDead h a)
  else match l.holders.owner with
    | some a => if a != but && snoopable h a && !agentDead h a then [a] else []
    | none => []

/-- Holders that a recall would reach but that are no agents of Table COH-1: they are taken as having answered RSP_I (R175). -/
def rlcUnhold (h : Hub) (l : RLine) (inv : Bool) (but : AgentId) : RLine :=
  let gone := (if inv then l.holders.named else l.holders.owner.toList).filter (fun a => a != but && !snoopable h a)
  { l with holders := gone.foldl entRemove l.holders }

/-- Start a recall (R195): BISnp or Snp to each target. -/
def startRecall (h : Hub) (line : LineAddr) (l : RLine) (targets : List AgentId) (inv : Bool)
    (but : AgentId) (snoops : List Snp) (evict : Option Nat) : Hub :=
  let h := targets.foldl (fun h a => localSnoop h line (agentBay a) inv (fld h pBOB Fld.BOB.PRI_SNP)) h
  putRlc h line { l with recalled := some { awaited := targets, inv := inv, but := but, snoops := snoops, evict := evict,
                                              hostWb := [], half := [] } }

/-! ### Snoop answers (Table COH-6) -/

/-- Send an answer to a snoop, under its bobbin and priority (R156). -/
def snpAnswer (h : Hub) (line : LineAddr) (sn : Snp) (n opc : Nat) (poison : Bool) (attr : Nat) (body : Payload) : Hub :=
  sendMsg h n opc (rlcAgent (ownNode h)) sn.bob line sn.prio poison attr body

/-- A snoop for which the tables give no row (R160, R183). -/
def snpError (h : Hub) (line : LineAddr) (sn : Snp) : Hub :=
  let h := bump h pCOH Fld.COH.PROTO_ERR_CNT
  setIstat (errlog h pCOH 1 (line * 64) (sn.opc + 2 ^ 8 * (intAgent sn.home % 8192))) pCOH 0

/-- The snoop asks for a forward with grant E or M. -/
def Snp.fwdOwn (sn : Snp) : Bool := sn.opc == 0x12 && (sn.grant == 3 || sn.grant == 4)

/-- The tables give the snoop no row in a state (Tables COH-6, TRN-5): SNP_FWD with no grant of theirs, to an S copy, or for
ownership to an F copy. -/
def snpNoRow (l : RLine) (sn : Snp) : Bool :=
  sn.opc == 0x12 &&
    (match l.st with
    | .m => sn.grant != 2 && !sn.fwdOwn
    | .e => sn.grant != 2 && !sn.fwdOwn
    | .mia => sn.grant != 2 && !sn.fwdOwn
    | .f => sn.grant != 2
    | .s => true
    | .smd => sn.grant != 2 || !l.wasF
    | _ => false)

/-- Answer a snoop from a stable state, recalls being done. -/
def answerSnoop (h : Hub) (line : LineAddr) (sn : Snp) : Hub :=
  let opc := sn.opc
  let grant := sn.grant
  let h := rlcLazy h line
  let l := rlcLine h line
  let rsp := fun (h : Hub) (o attr : Nat) => snpAnswer h line sn sn.home o false attr .none
  let wb := fun (h : Hub) (attr : Nat) => snpAnswer h line sn sn.home 0x41 l.poison attr (.line l.data)
  let fwd := fun (h : Hub) (g : Nat) => snpAnswer h line sn (agentNode sn.req) 0x50 l.poison g (.line l.data)
  let toI := fun (h : Hub) => putRlc h line { l with st := .i, data := 0, poison := false, holders := .uncached }
  let toS := fun (h : Hub) => putRlc h line { l with st := .s,
                                                     holders := if l.holders.st = .owned then { l.holders with st := .shared } else l.holders }
  if snpNoRow l sn then snpError h line sn
  else
    match l.st with
    | .i => rsp (bump h pCOH Fld.COH.SNP_STALE) 0x20 0
    | .m =>
      if opc = 0x10 then toI (wb h 0)
      else if opc = 0x11 then toS (wb h 1)
      else if grant = 2 then toS (wb (fwd h 2) (1 + 8))
      else toI (rsp (fwd h 4) 0x22 0)
    | .e =>
      if opc = 0x10 then toI (rsp h 0x20 0)
      else if opc = 0x11 then toS (rsp h 0x21 0)
      else if grant = 2 then toS (rsp (fwd h 2) 0x22 1)
      else toI (rsp (fwd h 3) 0x22 0)
    | .f =>
      if opc = 0x10 then toI (rsp h 0x20 0)
      else if opc = 0x11 then toS (rsp h 0x21 0)
      else toS (rsp (fwd h 2) 0x22 1)
    | .s => if opc = 0x10 then toI (rsp h 0x20 0) else rsp h 0x21 0
    | _ => h

/-! ### Serving local requests -/

/-- End a local request: its sample record, its bobbin. -/
def localEnd (h : Hub) (r : Req) : Hub := bobFree (sampleRecord h r false) r.bob

/-- Send a miss or an UPGRADE to the home; the bobbin is the tracker (R227). -/
def rlcMiss (h : Hub) (line : LineAddr) (r : Req) (opc : Nat) (st : RSt) : Hub :=
  let l := rlcLine h line
  let r : Req := { r with missed := true, tag := r.tag.map (fun g => { g with t2 := some h.htime, t3 := some h.htime }) }
  let h := putRlc h line { l with st := st, wasF := l.st == .f, cur := some r, since := h.htime }
  rlcSend h line opc r.bob r.prio false 0 .none

/-- Send a mover's request straight to the home under the internal agent (R156, R227). -/
def moverSend (h : Hub) (line : LineAddr) (r : Req) : Hub :=
  let r := { r with t0 := h.htime, tag := r.tag.map (fun g => { g with t2 := some h.htime, t3 := some h.htime }) }
  let h := { h with coh := { h.coh with outs := mapPut h.coh.outs line r } }
  let snd := fun (opc attr : Nat) (body : Payload) =>
    sendMsg h (homeNode h line) opc (intAgent (ownNode h)) r.bob line r.prio r.poison attr body
  match r.op with
  | .wrFull d => snd 6 (r.ctx % 65536) (.line d)
  | .atomic a => snd 7 (r.ctx % 65536) (.atomic a)
  | .stash d c => snd 8 (r.ctx % 65536 + 2 ^ 16 * agentNode c) (.stash d c)
  | .rdShared => snd 1 (r.ctx % 65536) .none
  | .rdAny => snd 2 (r.ctx % 65536) .none
  | .rdOwn => snd 3 (r.ctx % 65536) .none
  | .upgrade => snd 5 (r.ctx % 65536) .none
  | _ => snd 4 (r.ctx % 65536) .none

/-- The request goes straight to the home, whatever the RLC holds. -/
def directOp (r : Req) : Bool :=
  match r.who, r.op with
  | .mover .., .wrFull _ => true
  | .mover .., .stash .. => true
  | .mover .., .atomic _ => true
  | _, _ => false

/-- Whose own copy a recall for a request spares: the requester's, but a flush spares none (R162). -/
def spared (r : Req) : AgentId :=
  match r.op with
  | .flush => noAgent
  | _ => r.agent

/-- The request needs ownership (Table TRN-5). -/
def needsOwn : ReqOp → Bool
  | .rdShared => false | .rdAny => false | .rdCur => false
  | _ => true

/-- Answer a local request from a line that suffices, no other holder standing in its way. A dead requester becomes no
holder (R257; log entry 26). -/
def rlcAnswer (h : Hub) (line : LineAddr) (r : Req) : Hub :=
  let l := rlcLine h line
  let rec' := agentBay r.agent < 48 && !agentDead h r.agent
  match r.op with
  | .rdShared =>
    let h := putRlc h line (if rec' && !l.poison then { l with holders := entAddS l.holders r.agent } else l)
    localEnd (replyData h r r.bob l.data l.poison (if l.poison then 0 else 1) false none) r
  | .rdCur => localEnd (replyData h r r.bob l.data l.poison 0 false none) r
  | .rdAny =>
    let alone := l.st.owns && (l.holders.named.filter (· != r.agent)).isEmpty && l.holders.st != .overflow
    let g := if l.poison then 0 else if alone then 3 else 1
    let h := putRlc h line (if rec' && !l.poison then
      { l with holders := if alone then entOwn r.agent else entAddS l.holders r.agent } else l)
    localEnd (replyData h r r.bob l.data l.poison g false none) r
  | .rdOwn =>
    let h := putRlc h line (if rec' && !l.poison then { l with holders := entOwn r.agent } else l)
    localEnd (replyData h r r.bob l.data l.poison (if l.poison then 0 else 3) false none) r
  | .upgrade =>
    let named := l.holders.named.contains r.agent
    let h := putRlc h line (if rec' then { l with holders := entOwn r.agent } else l)
    localEnd (if named then replyCmp h r r.bob 3 false none
      else replyData h r r.bob l.data l.poison (if l.poison then 0 else 3) false none) r
  | .wrFull d =>
    let h := putRlc h line { l with st := .m, data := d, poison := r.poison, holders := .uncached, wrote := [r.agent] }
    localEnd (writeCmp h r false) r
  | .wrPart d mask =>
    let h := putRlc h line { l with st := .m, data := mergeBytes l.data d mask, poison := l.poison || r.poison,
                                    holders := .uncached, wrote := r.agent :: l.wrote }
    localEnd (writeCmp h r false) r
  | .memWr d mask _ =>
    let h := putRlc h line { l with st := .m, data := mergeBytes l.data d mask,
                                    poison := r.poison || (l.poison && mask != BitVec.allOnes 64), holders := .uncached,
                                    wrote := r.agent :: l.wrote }
    localEnd (replyCmp h r r.bob 0 false none) r
  | .nearAtomic a =>
    if l.poison then localEnd (replyAtm h r r.bob 0 1 false) r
    else if 9 < a.op then localEnd (replyAtm h r r.bob 0 2 false) r
    else
      let (d, old) := atomicExec a l.data
      let h := putRlc (bump h pCOH Fld.COH.ATOM_NEAR_CNT) line { l with st := .m, data := d }
      localEnd (replyAtm h r r.bob old 0 false) r
  | .flush =>
    if l.st = .m then
      let h := putRlc h line { l with st := .mia, holders := .uncached, since := h.htime, wbBob := r.bob }
      let h := rlcSend h line 0x40 r.bob r.prio l.poison 0 (.line l.data)
      replyCmp (sampleRecord h r false) r r.bob 0 false none
    else localEnd (replyCmp (putRlc h line { l with st := .i, data := 0, poison := false, holders := .uncached }) r r.bob 0 false none) r
  | _ => localEnd h r

/-- Serve a local request at a line that is stable and has no recall: answer, recall other holders, miss, or upgrade
(Table TRN-5, R150). From S and F the UPGRADE goes out first, and other holders are recalled once it is granted. True when the line is still stable and free for the next request. -/
def rlcServe (h : Hub) (line : LineAddr) (r : Req) : Hub × Bool :=
  let h := rlcLazy h line
  let l := rlcLine h line
  if directOp r then (moverSend h line r, false)
  else if needsOwn r.op then
    match l.st with
    | .i => (rlcMiss h line r 3 .imd, false)
    | .s => (rlcMiss h line r 5 .smd, false)
    | .f => (rlcMiss h line r 5 .smd, false)
    | _ =>
      let l := rlcUnhold h l true (spared r)
      let ts := recallTargets h l true (spared r)
      if !ts.isEmpty then (startRecall h line { l with waiting := r :: l.waiting } ts true (spared r) [] none, false)
      else
        let h := match r.op with
          | .nearAtomic _ => if r.missed then h else predMove h line false
          | _ => h
        (rlcAnswer (putRlc h line l) line r, (rlcLine h line).st.stable)
  else if l.st = .i then
    match r.who, r.op with
    | .mover .., _ => (moverSend h line r, false)
    | _, .rdAny => (rlcMiss h line r 2 .isd, false)
    | _, _ => (rlcMiss h line r 1 .isd, false)
  else
    let l := rlcUnhold h l false r.agent
    let ts := recallTargets h l false r.agent
    if ts.isEmpty then (rlcAnswer (putRlc h line l) line r, true)
    else (startRecall h line { l with waiting := r :: l.waiting } ts false r.agent [] none, false)

/-- The line takes the next waiting request. -/
def rlcFree (h : Hub) (line : LineAddr) : Bool :=
  let l := rlcLine h line
  l.st.stable && l.recalled.isNone && (mapGet? h.coh.outs line).isNone

/-- Serve the requests that wait in a line's tracker (R194). -/
def rlcDrain : Nat → Hub → LineAddr → Hub
  | 0, h, _ => h
  | fuel + 1, h, line =>
    let l := rlcLine h line
    match l.waiting with
    | [] => h
    | r :: rs =>
      if rlcFree h line then
        let h := putRlc h line { l with waiting := rs }
        rlcDrain fuel (rlcServe h line r).1 line
      else h

/-- Drain everything that waits. -/
def rlcSettle (h : Hub) (line : LineAddr) : Hub := rlcDrain ((rlcLine h line).waiting.length + 1) h line

/-- A local request reaches the RLC with its bobbin (R194): it is served, or waits in the line's tracker. -/
def rlcLocal (h : Hub) (r : Req) : Hub :=
  let l := rlcLine h r.line
  if rlcFree h r.line && l.waiting.isEmpty then (rlcServe h r.line r).1
  else putRlc h r.line { l with waiting := l.waiting ++ [r] }

/-! ### Data and completions -/

/-- ACK to the home of a grant, with the requester's priority (R156). -/
def rlcAck (h : Hub) (line : LineAddr) (home tag prio : Nat) : Hub :=
  sendMsg h home 0x24 (rlcAgent (ownNode h)) tag line prio false 0 .none

/-- The RLC state of a grant code (R156). -/
def grantSt : Nat → RSt
  | 1 => .s | 2 => .f | 3 => .e | 4 => .m
  | _ => .i

/-- Poisoned data with grant I ends a miss: the local requester receives poisoned data, an atomic STATUS 0x01 (Table
TRN-5, R259, R260). -/
def missPoisoned (h : Hub) (line : LineAddr) : Hub :=
  let l := rlcLine h line
  let h := putRlc h line { l with st := .i, data := 0, poison := false, holders := .uncached, cur := none, wasF := false }
  match l.cur with
  | some r => rlcSettle (localEnd (notServed h r) r) line
  | none => rlcSettle h line

/-- A miss is filled with a grant: ACK, install, serve the request it was for (Table TRN-5). -/
def missFilled (h : Hub) (line : LineAddr) (home tag : Nat) (d : Option LineData) (poison : Bool) (grant : Nat)
    (cont : Bool) : Hub :=
  let l := rlcLine h line
  let h := rlcAck h line home tag ((l.cur.map (·.prio)).getD 0)
  let near := match l.cur with
    | some r => (match r.op with
      | .nearAtomic _ => true
      | _ => false)
    | none => false
  -- data came: the RD_OWN, or the UPGRADE that the home served as one (R155, R171)
  let h := if near && cont && d.isSome then predMove h line true else h
  let h := putRlc h line { l with st := grantSt grant, data := d.getD l.data, poison := if d.isSome then poison else l.poison,
                                  cur := none, wasF := false }
  match l.cur with
  | some r =>
    let r := { r with tag := r.tag.map (fun g => { g with t4 := some h.htime, cont := cont }) }
    let l' := rlcUnhold h (rlcLine h line) (needsOwn r.op) (spared r)
    -- a read that a poisoned forward fills hands on the poison; a NEAR atomic that missed has not found the line
    let ts := recallTargets h l' (needsOwn r.op) (spared r)
    let h := if !ts.isEmpty then startRecall h line { l' with waiting := r :: l'.waiting } ts (needsOwn r.op) (spared r) [] none
      else if needsOwn r.op && !l'.st.owns then (rlcServe h line r).1
      else rlcAnswer (putRlc h line l') line r
    rlcSettle h line
  | none => rlcSettle h line

/-- DATA or DATA_FWD for a miss of the RLC; none where Table TRN-5 gives no row. -/
def rlcData (h : Hub) (line : LineAddr) (home tag : Nat) (d : LineData) (poison : Bool) (grant : Nat) (cont fwd : Bool) :
    Option Hub :=
  match (rlcLine h line).st with
  | .isd =>
    if grant = 0 && poison && !fwd then some (missPoisoned h line)
    else if grant = 1 || grant = 2 || grant = 3 then some (missFilled h line home tag (some d) poison grant (cont || fwd))
    else none
  | .imd =>
    if grant = 0 && poison && !fwd then some (missPoisoned h line)
    else if grant = 3 || (fwd && grant = 4) then some (missFilled h line home tag (some d) poison grant (cont || fwd))
    else none
  | .smd =>
    if grant = 0 && poison && !fwd then some (missPoisoned h line)
    else if grant = 3 && !fwd then some (missFilled h line home tag (some d) poison grant cont)
    else none
  | _ => none

/-- The line in I, what waits for it and the data that devices still send kept. -/
def RLine.emptied (l : RLine) : RLine := { RLine.none with waiting := l.waiting, evicts := l.evicts, pulled := l.pulled }

/-- A write-back of the RLC is complete: CMP in MIA or MIX (Table TRN-5). -/
def wbComplete (h : Hub) (line : LineAddr) : Hub :=
  let l := rlcLine h line
  rlcSettle (putRlc (bobFree h l.wbBob) line l.emptied) line

/-- CMP at this hub; none where nothing awaits it. -/
def rlcCmp (h : Hub) (line : LineAddr) (home tag grant : Nat) (cont : Bool) : Option Hub :=
  let l := rlcLine h line
  match l.st with
  | .smd => if grant = 3 then some (missFilled h line home tag none false 3 cont) else none
  | .mia => some (wbComplete h line)
  | .mix => some (wbComplete h line)
  | _ => none

/-- A mover's direct request ends. -/
def outEnd (h : Hub) (line : LineAddr) (r : Req) : Hub :=
  rlcSettle (localEnd { h with coh := { h.coh with outs := mapDel h.coh.outs line } } r) line

/-! ### Evictions (R150) -/

/-- An eviction whose local copies are recalled ends: a clean line is dropped, an M line is written back. -/
def evictEnd (h : Hub) (line : LineAddr) (bob : Nat) : Hub :=
  let l := rlcLine h line
  match l.st with
  | .m =>
    let h := putRlc h line { l with st := .mia, holders := .uncached, recalled := none, since := h.htime, wbBob := bob }
    rlcSend h line 0x40 bob (fld h pBOB Fld.BOB.PRI_WB) l.poison 0 (.line l.data)
  | _ => bobFree (putRlc h line l.emptied) bob

/-- The line is homed on a peer and this agent owns it locally. -/
def rlcOwned (h : Hub) (line : LineAddr) (a : AgentId) : Bool := (rlcLine h line).holders.owner == some a

/-- Pool of a staged message: a write-back by what the slice holds on die (R231). -/
def stagedPool (h : Hub) (r : Req) : Nat :=
  match r.op with
  | .wbDirty _ => 1
  | _ =>
    if homedHere h (granuleOf r.line) then
      match cachedEnt h r.line with
      | some e => if e.owner == some r.agent then 1 else 0
      | none => 0
    else if rlcOwned h r.line r.agent then 1 else 0

/-- A pool's starvation lane in a slice has a head that could take its next free bobbin: other work leaves it the bobbin
(R239). -/
def laneWaits (h : Hub) (slice pool : Nat) : Bool :=
  h.coh.ingress.any (fun x => x.slice == slice && x.pool == pool && x.lane.isSome) ||
    h.coh.staging.any (fun x => x.slice == slice && x.lane.isSome && stagedPool h x.req == pool)

/-- Evict a stable line: silently when clean with no holder, otherwise with a wbp bobbin, recall first. -/
def evictLine (h : Hub) (line : LineAddr) : Hub :=
  let h := rlcLazy h line
  let l := rlcUnhold h (rlcLine h line) true noAgent
  let ts := recallTargets h l true noAgent
  if l.st != .m && ts.isEmpty then putRlc h line l.emptied
  else if laneWaits h (sliceOf line) 1 then h
  else
    match bobTake h (sliceOf line) 1 { line := line, prio := fld h pBOB Fld.BOB.PRI_WB, remote := true } with
    | none => h
    | some (bob, h) => if ts.isEmpty then evictEnd (putRlc h line l) line bob else startRecall h line l ts true noAgent [] (some bob)

/-- Make room in a line's set: an eviction of a stable line of the set, the choice being a free value (log entry 25).
True when the set has a way. -/
def rlcMakeRoom (h : Hub) (line : LineAddr) : Hub × Bool :=
  if rlcRoom h line then (h, true)
  else
    let cands := (rlcPeers h line).filter (fun e => e.2.st.stable && e.2.recalled.isNone && e.2.waiting.isEmpty &&
      (mapGet? h.coh.outs e.1).isNone)
    if cands.isEmpty || (rlcPeers h line).any (fun e => e.2.st == .mia || e.2.st == .mix || (match e.2.recalled with
        | some r => r.evict.isSome
        | none => false)) then (h, false)
    else
      let (n, h) := freeDraw h
      match cands[n % cands.length]? with
      | some v =>
        let h := evictLine h v.1
        (h, rlcRoom h line)
      | none => (h, false)

/-! ### Recalls and snoops -/

/-- A snoop that invalidates local copies (R195). -/
def snoopInv (sn : Snp) : Bool := sn.opc == 0x10 || sn.fwdOwn

/-- A snoop has been answered: its snoop-pool bobbin is free (R227). -/
def snpFree (h : Hub) (sn : Snp) : Hub := bobFree h sn.sbob

/-- A line homed on a node that left the domain is dropped, its local copies being invalid: one in M leaves a foreign entry
(R259). A DirtyEvict that waited is complete. -/
def departEnd (h : Hub) (line : LineAddr) (n : Nat) : Hub :=
  let l := rlcLine h line
  let h := if l.st = .m then
      newEntry h { line := line, kind := 2, cause := 5, agent := rlcAgent n, epoch := h.tulle.epoch } none
    else h
  let h := l.evicts.foldl (fun h r => localEnd (replyCmp h r r.bob 0 false none) r) h
  l.waiting.foldl (fun h r => localEnd (notServed h r) r) (putRlc h line { RLine.none with pulled := l.pulled })

/-- The copies of a departed line are recalled, or the line is dropped where none is left (R259). -/
def departRecall (h : Hub) (line : LineAddr) (n : Nat) : Hub :=
  let l := rlcUnhold h (rlcLine h line) true noAgent
  let ts := recallTargets h l true noAgent
  if ts.isEmpty then departEnd (putRlc h line l) line n
  else
    let h := startRecall h line l ts true noAgent [] none
    let l := rlcLine h line
    putRlc h line { l with recalled := l.recalled.map (fun rc => { rc with depart := some n }) }

/-- A recall has all its answers: a snoop that was merged into it and invalidates has the copies left recalled first; then
the snoops are answered, then the eviction goes on, then waiting requests (R195, R196, Table TRN-5). -/
def recallDone (h : Hub) (line : LineAddr) : Hub :=
  let l := rlcLine h line
  match l.recalled with
  | none => h
  | some rc =>
    -- an overflowed list does not name the holders that are gone: after an invalidation none is left but the one spared
    let l := if rc.inv && l.holders.st = .overflow then
        { l with holders := if rc.but == noAgent then .uncached else entAddS .uncached rc.but } else l
    let inv := rc.snoops.any (fun sn => snoopInv sn && !snpNoRow l sn)
    let l := if inv then rlcUnhold h l true noAgent else l
    let ts := if inv then recallTargets h l true noAgent else []
    if let some n := rc.depart then departRecall (putRlc h line { l with recalled := none }) line n
    else if !ts.isEmpty then startRecall h line l ts true noAgent rc.snoops rc.evict
    else
      let h := putRlc h line { l with recalled := none }
      let h := rc.snoops.foldl (fun h sn =>
        snpFree (if (rlcLine h line).st = .smd then
          snpAnswer (putRlc h line { rlcLine h line with st := .imd, holders := .uncached }) line sn sn.home 0x20 false 0 .none
        else answerSnoop h line sn) sn) h
      let h := match rc.evict with
        | none => h
        | some bob => if (rlcLine h line).st = .i then bobFree h bob else evictEnd h line bob
      rlcSettle h line

/-- A device's answer is in: its DirtyEvict that waited for it is complete, and what it still sends is not wanted (R192). -/
def evictsDone (h : Hub) (line : LineAddr) (a : AgentId) : Hub :=
  let l := rlcLine h line
  let mine := l.evicts.filter (fun r => r.agent == a)
  mine.foldl (fun h r => localEnd (replyCmp h r r.bob 0 false none) r)
    (putRlc h line { l with evicts := l.evicts.filter (fun r => r.agent != a) })

/-- A local holder answers a recall; dirty data is merged and the copy becomes M (R195). While the data of its DirtyEvict is
on its way, an answer without data waits for it (R192). None where no recall awaits it. -/
def recallAnswer (h : Hub) (line : LineAddr) (a : AgentId) (keepS : Bool) (dirty : Option (LineData × BitVec 64 × Bool)) :
    Option Hub :=
  let l := rlcLine h line
  match l.recalled with
  | none => none
  | some rc =>
    if !rc.awaited.contains a || rc.half.any (fun x => x.1 == a) then none
    else if dirty.isNone && l.pulled.contains a then
      some (putRlc h line { l with recalled := some { rc with half := (a, keepS) :: rc.half } })
    else
      let hold := if keepS then entDemote l.holders a else entRemove l.holders a
      let l := match dirty with
        | some (d, mask, p) => { l with data := mergeBytes l.data d mask, st := if l.st = RSt.e then .m else l.st,
                                        poison := p || (l.poison && mask != BitVec.allOnes 64), wrote := a :: l.wrote }
        | none => l
      let left := rc.awaited.filter (· != a)
      let h := putRlc h line { l with holders := hold, recalled := some { rc with awaited := left } }
      let h := evictsDone h line a
      some (if left.isEmpty then recallDone h line else h)

/-- A Tulle snoop is handled, its snoop-pool bobbin at hand (R161, R195, Tables COH-6 and TRN-5). It is answered at once, or
once the recall of the local copies that it starts or joins is done. -/
def snoopAct (h : Hub) (line : LineAddr) (sn : Snp) : Hub :=
  let h := rlcLazy h line
  let l := rlcLine h line
  let rsp := fun (h : Hub) (o attr : Nat) => snpAnswer h line sn sn.home o false attr .none
  let inv := snoopInv sn
  match l.st with
  | .isd => snpFree (rsp h 0x20 0) sn
  | .imd => snpFree (rsp h 0x20 0) sn
  | .mix => snpFree (rsp h 0x20 0) sn
  | .mia =>
    if snpNoRow l sn then snpFree (snpError h line sn) sn
    else
      let h := putRlc h line { l with st := .mix }
      let h := if sn.opc = 0x12 then
          let h := snpAnswer h line sn (agentNode sn.req) 0x50 l.poison (if sn.grant = 2 then 2 else 4) (.line l.data)
          if sn.grant = 2 then snpAnswer h line sn sn.home 0x41 l.poison 8 (.line l.data) else rsp h 0x22 0
        else snpAnswer h line sn sn.home 0x41 l.poison 0 (.line l.data)
      snpFree h sn
  | .smd =>
    if snpNoRow l sn then snpFree (snpError h line sn) sn
    else if sn.opc = 0x10 then
      match l.recalled with
      | some rc => putRlc h line { l with recalled := some { rc with snoops := rc.snoops ++ [sn] } }
      | none =>
        let l := rlcUnhold h l true noAgent
        let ts := recallTargets h l true noAgent
        if ts.isEmpty then snpFree (rsp (putRlc h line { l with st := .imd, holders := .uncached }) 0x20 0) sn
        else startRecall h line l ts true noAgent [sn] none
    else if sn.opc = 0x11 then snpFree (rsp h 0x21 0) sn
    else
      let h := putRlc h line { l with wasF := false }
      snpFree (rsp (snpAnswer h line sn (agentNode sn.req) 0x50 l.poison 2 (.line l.data)) 0x22 1) sn
  | _ =>
    match l.recalled with
    | some rc => putRlc h line { l with recalled := some { rc with snoops := rc.snoops ++ [sn] } }
    | none =>
      if snpNoRow l sn then snpFree (snpError h line sn) sn
      else
        let l := rlcUnhold h l inv noAgent
        let ts := recallTargets h l inv noAgent
        if ts.isEmpty then rlcSettle (snpFree (answerSnoop (putRlc h line l) line sn) sn) line
        else startRecall h line l ts inv noAgent [sn] none

/-- STASH_PUSH: accepted in I when a way is free of dirty data and local holders (R174). -/
def rlcPush (h : Hub) (line : LineAddr) (home tag prio : Nat) (d : LineData) : Hub :=
  let l := rlcLine h line
  let ack := fun (h : Hub) (a : Nat) => sendMsg h home 0x25 (rlcAgent (ownNode h)) tag line prio false a .none
  let clean := (rlcPeers h line).filter (fun e => (e.2.st == RSt.s || e.2.st == RSt.f || e.2.st == RSt.e) && e.2.recalled.isNone &&
    e.2.waiting.isEmpty && e.2.holders.named.isEmpty && e.2.holders.st != .overflow)
  if l.st != .i then ack h 0
  else if rlcRoom h line then ack (putRlc h line { l with st := .e, data := d, poison := false }) 1
  else
    let (n, h) := freeDraw h
    match clean[n % clean.length]? with
    | some v => ack (putRlc (putRlc h v.1 v.2.emptied) line { l with st := .e, data := d, poison := false }) 1
    | none => ack h 0

/-- A write-back of a local holder to a line homed on a peer (R150, R193): merged into the RLC's copy. -/
def rlcWriteBack (h : Hub) (line : LineAddr) (a : AgentId) (d : LineData) (mask : BitVec 64) (poison : Bool) (m : Meta0) : Hub :=
  let l := rlcLine h line
  let hold := match m with
    | .i => entRemove l.holders a
    | .s => entDemote l.holders a
    | .a => l.holders
  putRlc h line { l with st := .m, data := mergeBytes l.data d mask, holders := hold,
                         poison := poison || (l.poison && mask != BitVec.allOnes 64), wrote := a :: l.wrote }

end Sys2Proof.Machine
end

