-- ==== Sys2Proof/Machine/DeadAgents.lean ====
section
/-! DEFINITION. Dead agents: declaration (R250, R251), their transactions (R253), reclaim by sweep and walk (R254 to
R256), homes that leave the domain (R259), transaction timeouts (R260). -/

namespace Sys2Proof.Machine

/-- A request was made by the dead agent; the RLC of a peer stands for every request of its node. -/
def ofDead (a : AgentId) (r : Req) : Bool := r.agent == a || (agentBay a == 62 && agentNode r.agent == agentNode a)

/-- Remove the requests of a dead agent that wait in a list, with their sample records and bobbins (R253, R381). -/
def dropReqs (h : Hub) (a : AgentId) (rs : List Req) : Hub × List Req :=
  (((rs.filter (ofDead a)).foldl (fun h r => bobFree (sampleRecord h r true) r.bob) h), rs.filter (fun r => !ofDead a r))

/-- The channel and the credit units that a waiting request holds (R133, R230). -/
def heldCredits (r : Req) : Nat × Nat :=
  match r.op with
  | .snoop _ => (1, 1)
  | .wrFull _ => (0, 5)
  | .stash .. => (0, 5)
  | .atomic _ => (0, 3)
  | _ => (0, 1)

/-- A request leaves its ingress buffer: its credits are owed to the link or the bay it came from. A host's write came by
M2S RwD, whose credits returned as it left write staging. -/
def giveBack (h : Hub) (x : Ing) : Hub :=
  match x.link, x.req.who, x.req.op with
  | some b, _, _ => oweCredits h b (heldCredits x.req).1 (heldCredits x.req).2
  | none, .host _ _, .wrFull _ => h
  | none, .host _ _, .wrPart .. => h
  | none, .host b _, _ => modBay h b (fun r => { r with reqOwed := r.reqOwed + 1 })
  | none, .gone b, _ => modBay h b (fun r => { r with reqOwed := r.reqOwed + 1 })
  | none, .dev b, _ => modBay h b (fun r => { r with reqOwed := r.reqOwed + 1 })
  | none, _, _ => h

/-- The owner of the line at the head died: the line is POISONED before the transaction continues (R253, Table DED-2). -/
def ownerDied (h : Hub) (line : LineAddr) (t : Txn) (a : AgentId) (cause ledger : Nat) : Hub :=
  let rsp := fun (h : Hub) => (homeAnswer h line a .rspI).getD h
  let poi := fun (h : Hub) =>
    poisonLine (if ledger = 1 then bump h pDED Fld.DED.POISON_CNT else h) line ledger a h.tulle.epoch
  if t.rebuild then rsp h
  else
    match t.req.op with
    | .wrFull _ => rsp (if ledger = 3 then poi h else h)
    | .stash .. => rsp (if ledger = 3 then poi h else h)
    | .rebuild => rsp h
    | _ =>
    if cause = 6 then rsp (bump h pDED Fld.DED.DROP_CNT)
    else
    match t.req.op with
    | .wrPart .. => rsp (poi h)
    | .flush => rsp (poi h)
    | _ => servePoisoned (poi h) line { t with awaited := [], fwdWait := false, needAck := false }

/-- A transaction that waits for the dead agent goes on (R253). -/
def txnOfDead (h : Hub) (line : LineAddr) (a : AgentId) (cause ledger : Nat) : Hub :=
  match headOf h line with
  | none => h
  | some t =>
    if t.awaited.contains a then
      if t.st = .push then (homeStashAck h line a false).getD h
      else if (entOf h line).owner == some a then ownerDied h line t a cause ledger
      else (homeAnswer h line a .rspI).getD h
    else if (t.st = .ackw || t.st = .fwdw) && t.needAck && !t.ackIn && ofDead a t.req then
      (homeAck h line t.req.agent).getD h
    else if t.st = .pull && ofDead a t.req then releaseHead h line
    else h

/-- Close a record (R256). -/
def closeRec (h : Hub) (i : Nat) : Hub :=
  setIstat { h with dead := { h.dead with recs := mapDel h.dead.recs i } } pDED 1

/-- Directory lines of the region (R202). -/
def walkTotal (h : Hub) : Nat := fld h pPRK Fld.PRK.LOCAL_PROV * 2 ^ 21

/-- Close every record whose sweep has ended and whose walk is back at its stored position, once no reclaim of the walk waits
for a way. -/
def closeDone (h : Hub) : Hub :=
  if h.prk.waits.any (fun x => x.2 == .walk) then h
  else
  ((h.dead.recs.filter (fun r => !r.2.sweeping && walkTotal h ≤ r.2.walked)).map (·.1)).foldl closeRec h

/-- Declare an agent dead (R251, R253). An agent with an open record is not declared again. -/
def declareDead (h : Hub) (a : AgentId) (cause : Nat) : Hub :=
  if agentDead h a then h
  else
    match (List.range 256).find? (fun i => (mapGet? h.dead.recs i).isNone) with
    | none => h
    | some i =>
      let first := h.dead.recs.isEmpty
      let rec' : DeadRec := { agent := a, cause := cause, epoch := h.tulle.epoch, time := h.htime, walkFrom := h.prk.pos,
                              sweeping := true, walked := 0 }
      let h := { h with dead := { h.dead with recs := mapPut h.dead.recs i rec',
                                              alerts := h.dead.alerts ++ [h.htime],
                                              walkAt := if first then h.htime else h.dead.walkAt,
                                              ran := if first then false else h.dead.ran } }
      let h := bump h pDED Fld.DED.DEAD_CNT
      let h := errlog h pDED 1 0 (a + 2 ^ 13 * cause)
      let h := setIstat h pDED 0
      let h := atPage h pDED (fun h => { h with alerts := { h.alerts with deaths := h.alerts.deaths + 1 } })
      -- what waits for a dead local agent whose link is down never leaves
      let h := if agentNode a = ownNode h && (goneCause h (agentBay a)).isSome then
          { h with bayOut := mapDel h.bayOut (agentBay a) } else h
      -- requests that wait anywhere are removed
      let h := ((h.coh.ingress ++ h.coh.hoQueue).filter (fun x => ofDead a x.req)).foldl giveBack h
      let h := { h with coh := { h.coh with ingress := h.coh.ingress.filter (fun x => !ofDead a x.req),
                                            hoQueue := h.coh.hoQueue.filter (fun x => !ofDead a x.req) } }
      let late := h.coh.staging.filter (fun x => ofDead a x.req)
      let h := late.foldl (fun h x => match x.link with
        | some b => oweCredits h b 4 5
        | none => h) (bumpBy h pDED Fld.DED.LATE_MSG_CNT late.length)
      let h := { h with coh := { h.coh with staging := h.coh.staging.filter (fun x => !ofDead a x.req) } }
      let (h, ps) := dropReqs h a h.coh.pulls
      let h := { h with coh := { h.coh with pulls := ps } }
      let lines := h.coh.chains.map (·.1)
      let h := lines.foldl (fun h line =>
        let c := chainOf h line
        let (h, ws) := dropReqs h a c.waiting
        let (h, bs) := dropReqs h a c.wbs
        modChain h line (fun c => { c with waiting := ws, wbs := bs })) h
      let h := lines.foldl (fun h line => txnOfDead h line a cause 1) h
      -- local requests in the RLC, and recalls that wait for a dead local agent
      (h.coh.rlc.map (·.1)).foldl (fun h line =>
        let l := rlcLine h line
        let (h, ws) := dropReqs h a l.waiting
        let (h, es) := dropReqs h a l.evicts
        let l := { l with
          waiting := ws
          evicts := es
          pulled := l.pulled.filter (· != a)
          recalled := l.recalled.map (fun rc => { rc with half := rc.half.filter (fun x => x.1 != a) }) }
        let h := putRlc h line l
        match l.recalled with
        | some rc =>
          if rc.awaited.contains a then
            let own := l.holders.owner == some a
            let h := if own then rlcReclaim h line a else h
            (recallAnswer h line a false none).getD h
          else h
        | none => h) h

/-- The RLC agent of a peer is declared dead. -/
def declareNode (h : Hub) (n cause : Nat) : Hub := declareDead h (rlcAgent n) cause

/-- The cache sweep of a record ends (R254, R256): cached entries and the write-back buffer are reclaimed, and for a
local agent the RLC's lines. -/
def sweepEnd (h : Hub) (i : Nat) : Hub :=
  match mapGet? h.dead.recs i with
  | none => h
  | some r =>
    if !r.sweeping then h
    else
      let h := advanceTo h (r.time + 262144)
      let cached := (h.prk.sets.flatMap (fun s => s.2.ways.map (fun w => w.2.line))).filter (fun l => !locked h l)
      let h := cached.foldl (fun h line =>
        match wayOf h line with
        | none => h
        | some (w, v) =>
          let (h1, v') := reclaimWay h v
          if v' = v then h1
          else modSet h1 (setKey line) (fun st => { st with ways := mapPut st.ways w v' })) h
      let (h, buf) := h.prk.wbBuf.foldl (fun (acc : Hub × List (Nat × Way)) x =>
        if (wayOf acc.1 x.2.line).isSome then (acc.1, acc.2 ++ [x])
        else
          let (h1, v) := reclaimWay acc.1 x.2
          (h1, acc.2 ++ [(x.1, v)])) (h, [])
      let h := { h with prk := { h.prk with wbBuf := buf } }
      let h := if agentNode r.agent = ownNode h then
          ((h.coh.rlc.filter (fun e => e.2.holders.named.contains r.agent)).map (·.1)).foldl
            (fun h line => rlcReclaim h line r.agent) h
        else h
      closeDone { h with dead := { h.dead with recs := mapPut h.dead.recs i { r with sweeping := false } } }

/-- The line whose directory entry lies at a key, where the home map gives the local granule to this hub. -/
def lineOfKey (h : Hub) (k : Nat) : Option LineAddr :=
  (h.tulle.homeMap.find? (fun e => homedHere h e.1 && e.2.loc == k / 2 ^ 24)).map
    (fun e => e.1 * 2 ^ 24 + k % 2 ^ 24)

/-- The walk rebuilds one entry of a line that it could not read: by a management-pool bobbin, for which it waits (R223,
R227). -/
def walkRebuild (h : Hub) (line : LineAddr) : Hub :=
  if (cachedEnt h line).isSome || locked h line then h
  else
    let h := noteRebuild h line 1
    match mgmtTake h line with
    | some (bob, h) => joinRebuild h { rebuildReq h line with bob := bob }
    | none => mgmtWait h line

/-- The walk reads a directory line: a media error in it leads to a rebuild of its entries, an open record to a reclaim of
each (R223, R254, R255). -/
def walkLine (h : Hub) (p : Nat) : Hub :=
  let ks := (List.range 8).map (fun i => p * 8 + i)
  let bad := wayDown h (wayOfLma h (entryLma h (p * 8))) || ks.any (fun k => h.prk.bad.contains k)
  (ks.filterMap (lineOfKey h)).foldl (fun h line => if bad then walkRebuild h line else walkReclaim h line) h

/-- The walk reads n directory lines from its position (R223). -/
def walkStep : Nat → Hub → Hub
  | 0, h => h
  | n + 1, h =>
    let total := walkTotal h
    if total = 0 then h
    else
      let p := h.prk.pos
      let h := walkLine (mediaReq h (entryLma h (p * 8)) false) p
      let h := if p + 1 = total then setIstat h pPRK 3 else h
      let h := { h with prk := { h.prk with pos := (p + 1) % total },
                        dead := { h.dead with recs := h.dead.recs.map (fun r => (r.1, { r.2 with walked := r.2.walked + 1 })) } }
      walkStep n (closeDone h)

/-- One batch of the walk: with a record open at least DED.CFG.RECLAIM_BATCH (R254). -/
def walkBatch (h : Hub) : Nat :=
  let b := fld h pPRK Fld.PRK.SCRUB_BATCH
  if h.dead.recs.isEmpty then (if flag h pPRK Fld.PRK.CFG_SCRUB_EN then b else 0)
  else max b (fld h pDED Fld.DED.CFG_RECLAIM_BATCH)

/-- A run of the SCRUB_STEP task (R223, R254). -/
def scrubTask (h : Hub) : Hub :=
  walkStep (walkBatch h) { h with dead := { h.dead with ran := true } }

/-! ### Homes that leave the domain (R259) -/

/-- A line of a departed home (R259): its tracker ends, with poisoned data or STATUS 0x01 for those that wait, and its local
copies are recalled, or the recall under way goes on, before it is dropped. A write-back under way has lost its home: its data
is dirty. -/
def departLine (h : Hub) (line : LineAddr) (n : Nat) : Hub :=
  let l := rlcLine h line
  let h := if l.st = .mia || l.st = .mix then bobFree h l.wbBob else h
  let rs := l.cur.toList ++ l.waiting
  let st : RSt := match l.st with
    | .mia => .m
    | .smd => .s
    | .isd => .i
    | .imd => .i
    | .mix => .i
    | x => x
  let h := putRlc h line { l with st := st, cur := none, waiting := [] }
  let h := rs.foldl (fun h r => localEnd (notServed h r) r) h
  match l.recalled with
  | some rc =>
    let h := rc.evict.toList.foldl bobFree (rc.snoops.foldl snpFree h)
    let l := rlcLine h line
    putRlc h line { l with recalled := some { rc with depart := some n, evict := none, snoops := [] } }
  | none => departRecall h line n

/-- Every line, tracker and mover request toward a departed home ends (R259). -/
def departHome (h : Hub) (n : Nat) (gone : List Nat) : Hub :=
  let lines := (h.coh.rlc.map (·.1)).filter (fun line => gone.contains (granuleOf line))
  let h := lines.foldl (fun h line => departLine h line n) h
  (h.coh.outs.filter (fun o => gone.contains (granuleOf o.1))).foldl (fun h o =>
    localEnd (notServed { h with coh := { h.coh with outs := mapDel h.coh.outs o.1 } } o.2) o.2) h

/-! ### Transaction timeouts (R260) -/

/-- Log a transaction timeout. -/
def txnTimeoutLog (h : Hub) (line : LineAddr) : Hub :=
  let h := bump h pDED Fld.DED.TXN_TO_CNT
  setIstat (errlog h pDED 2 (line * 64) 0) pDED 2

/-- hc of TXN_TO_MS. -/
def txnLimit (h : Hub) : Nat := fld h pDED Fld.DED.CFG_TXN_TO_MS * 2000000

/-- A transaction of the line has waited longer than TXN_TO_MS (R260). A write-back that awaits its CMP ends too (log entry 93). -/
def txnTimeout (h : Hub) (line : LineAddr) : Hub :=
  match headOf h line with
  | some t =>
    if (t.st = .inv || t.st = .sdat || (t.st = .fwdw && t.fwdWait) || t.st = .push) && !t.awaited.isEmpty then
      let h := txnTimeoutLog (advanceTo h (t.since + txnLimit h + 1)) line
      t.awaited.foldl (fun h a => txnOfDead h line a 0 3) h
    else if (t.st = .ackw || t.st = .fwdw) && t.needAck && !t.ackIn then
      let h := txnTimeoutLog (advanceTo h (t.since + txnLimit h + 1)) line
      (homeAck h line t.req.agent).getD h
    else h
  | none =>
    let l := rlcLine h line
    if l.st = .isd || l.st = .imd || l.st = .smd then
      missPoisoned (txnTimeoutLog (advanceTo h (l.since + txnLimit h + 1)) line) line
    else if l.st = .mia || l.st = .mix then
      wbComplete (txnTimeoutLog (advanceTo h (l.since + txnLimit h + 1)) line) line
    else
      match mapGet? h.coh.outs line with
      | some r =>
        let h := txnTimeoutLog (advanceTo h (r.t0 + txnLimit h + 1)) line
        outEnd (notServed h r) line r
      | none => h

end Sys2Proof.Machine
end

