-- ==== Sys2Proof/Machine/Ingress.lean ====
section
/-! DEFINITION. How requests, write-backs and notices reach a slice: the checks on arrival (R21, R121, R127, R160, R203,
R257), ingress queues and their arbiter (R233 to R239), write staging (R231), forwarding (R483). -/

namespace Sys2Proof.Machine

/-! ### Errors of R160 -/

/-- A protocol error. -/
def protoErr (h : Hub) (line opc src : Nat) : Hub :=
  let h := bump h pCOH Fld.COH.PROTO_ERR_CNT
  setIstat (errlog h pCOH 1 (line * 64) (opc % 256 + 2 ^ 8 * (src % 8192))) pCOH 0

/-- An orphan response. -/
def orphan (h : Hub) (line opc src : Nat) : Hub :=
  setIstat (errlog h pCOH 2 (line * 64) (opc % 256 + 2 ^ 8 * (src % 8192))) pCOH 1

/-- The source carries a reserved bay code (R148). -/
def reservedSrc (a : AgentId) : Bool := 48 ≤ agentBay a && agentBay a ≤ 61

/-! ### Where a line is served -/

/-- Where a request for a line goes. -/
inductive Where where
  | unmapped | noMedia | here | peer (node : Nat)
  deriving DecidableEq, Repr

/-- The home of a line (R121, R162, R203). -/
def whereIs (h : Hub) (line : LineAddr) : Where :=
  let e := homeEntry h (granuleOf line)
  if 2 ^ 40 ≤ line || !e.valid then .unmapped
  else if e.home != ownNode h then .peer e.home
  else if fld h pPRK Fld.PRK.LOCAL_PROV ≤ e.loc then .noMedia
  else .here

/-- Log a request to an unmapped granule (R121, R203). -/
def unmappedLog (h : Hub) (line : LineAddr) (opc agent : Nat) : Hub :=
  let h := setIstat (errlog h pHMAP 1 (line * 64) (opc % 256 + 2 ^ 8 * (agent % 8192))) pHMAP 2
  match whereIs h line with
  | .noMedia =>
    setIstat (errlog h pPRK 2 (line * 64) (homeEntry h (granuleOf line)).loc) pPRK 1
  | _ => h

/-- Coherent traffic runs (Table OVW-3). -/
def serving (h : Hub) : Bool :=
  (h.mode.mode == .serve || h.mode.mode == .drain) && !flag h pCLK Fld.CLK.STAT_HOLDOVER

/-- A request of a local agent is refused by R21 or R257. -/
def modeRejects (h : Hub) (a : AgentId) : Bool :=
  h.mode.mode == .assemble || h.mode.mode == .maintain || (h.mode.mode == .bench && h.mode.tier) || agentDead h a

/-- Count a refused request on its bay (R21, R53). -/
def modeReject (h : Hub) (b : Nat) : Hub :=
  let zero := fld h (pBAY b) Fld.BAY.MODE_REJECT_CNT = 0
  let h := bump h (pBAY b) Fld.BAY.MODE_REJECT_CNT
  if zero then setIstat h (pBAY b) 6 else h

/-! ### Ingress -/

/-- A new request for the granule waits on its handoff queue: the granule is FROZEN here, or requests received before are
still on that queue (R127, R200). -/
def hoWaits (h : Hub) (g : Nat) : Bool :=
  ((homeEntry h g).frozen && homedHere h g) || h.coh.hoQueue.any (fun x => granuleOf x.req.line == g)

/-- Put a request into its ingress queue, or into the handoff queue of its granule (R127, R233). -/
def ingressPut (h : Hub) (src pool : Nat) (r : Req) (link : Option Nat) : Hub :=
  let x : Ing := { slice := sliceOf r.line, src := src, pool := pool, req := { r with t0 := h.htime },
                   since := h.htime, lane := none, link := link }
  if pool = 0 && hoWaits h (granuleOf r.line) then { h with coh := { h.coh with hoQueue := h.coh.hoQueue ++ [x] } }
  else { h with coh := { h.coh with ingress := h.coh.ingress ++ [x] } }

/-- Forward a request or write-back to the home its granule's entry names (R127, R200, R483). With no hop left it is
dropped and logged as it was received (R132). -/
def forwardReq (h : Hub) (r : Req) (node : Nat) : Hub :=
  let body : Payload := match r.op with
    | .wrFull d => .line d
    | .atomic a => .atomic a
    | .stash d c => .stash d c
    | .wbDirty d => .line d
    | _ => .none
  let attr := r.ctx % 65536 + (match r.op with
    | .stash _ c => 2 ^ 16 * agentNode c
    | _ => 0)
  let opc := classOpc r.op + 128
  let hd : Hdr := { opc := opc, src := r.agent, dstn := node, tag := ownNode h, addr := r.line, seq := 0,
                    hops := r.hops - 1, prio := r.prio, poison := r.poison, attr := attr }
  if r.hops = 0 then dropLog h { hd with opc := classOpc r.op + 128 * b2n r.fwd, dstn := ownNode h }
  else
    let (n, h) := takeSeq h node (vcOf opc)
    routeMsg h { hdr := { hd with seq := n }, body := body, src := srcOwn (vcOf opc), since := 0 }

/-- A request of a peer's agent arrives on a T link (R121, R127, R131, R148, R160, R290). -/
def peerArrive (h : Hub) (b : Nat) (hd : Hdr) (op : ReqOp) (body : Payload) : Hub :=
  let (h, mine) := receive h b hd body true
  if !mine then h
  else
    let n := unitsOf hd.opc body
    let vc := vcOf hd.opc
    let r : Req := { who := .peer hd.tag, agent := hd.src, op := op, line := hd.addr, poison := hd.poison,
                     prio := hd.prio % 8, ctx := hd.attr % 65536, bob := hd.tag, t0 := h.htime, hops := hd.hops, tag := none,
                     fwd := decide (128 ≤ hd.opc) }
    if !hd.sized || hd.opc % 128 != classOpc op || reservedSrc hd.src || (agentBay hd.src = 63 && hd.attr % 65536 = 0 && vc = 0) then
      oweCredits (protoErr h hd.addr hd.opc hd.src) b vc n
    else if agentDead h (rlcAgent (agentNode hd.src)) then
      oweCredits (bump h pDED Fld.DED.LATE_MSG_CNT) b vc n
    else
      if vc = 4 then
        { h with coh := { h.coh with staging := h.coh.staging ++
            [{ slice := sliceOf hd.addr, src := srcLink b, req := r, link := some b, since := h.htime }] } }
      else
        match whereIs h hd.addr with
        | .peer node =>
          if hd.hops = 0 then oweCredits (dropLog h hd) b vc n
          else if hoWaits h (granuleOf hd.addr) then ingressPut h (srcLink b) 0 r (some b)
          else oweCredits (forwardReq h r node) b vc n
        | .here => ingressPut h (srcLink b) 0 r (some b)
        | _ => oweCredits (notServed (unmappedLog h hd.addr (classOpc op) hd.src) r) b vc n

/-- A request of a host or device arrives on a bay: refused by mode or death, unmapped, or queued (R21, R121, R257). -/
def localArrive (h : Hub) (b : Nat) (who : Who) (op : ReqOp) (line : LineAddr) (poison : Bool) (pool : Nat) : Hub :=
  let a := ownNode h * 64 + leadOf h b
  let prio := if pool = 1 then fld h pBOB Fld.BOB.PRI_WB else whoPrio h who 0
  let r : Req := { who := who, agent := a, op := op, line := line, poison := poison, prio := prio, ctx := 0, bob := 0,
                   t0 := h.htime, hops := 31, tag := none }
  if !bayUp h b then h
  else if modeRejects h a then notServed (modeReject h b) r
  else
    match whereIs h line with
    | .unmapped => notServed (unmappedLog h line (classOpc op) a) r
    | .noMedia => notServed (unmappedLog h line (classOpc op) a) r
    | _ => ingressPut h b pool r none

/-! ### Write-backs -/

/-- A host's MemWr for a line with a snoop outstanding to it is the answer's dirty data (R189, R191). -/
def absorbs (h : Hub) (r : Req) : Bool :=
  match r.op with
  | .memWr .. =>
    (match whereIs h r.line with
    | .here => (match headOf h r.line with
      | some t => (t.st = .inv || t.st = .sdat) && t.awaited.contains r.agent
      | none => false)
    | .peer _ => (match (rlcLine h r.line).recalled with
      | some rc => rc.awaited.contains r.agent
      | none => false)
    | _ => false)
  | _ => false

/-- Take the MemWr as the answer's data; its completion is sent at once. -/
def absorb (h : Hub) (r : Req) : Hub :=
  match r.op with
  | .memWr d mask _ =>
    let x := (r.agent, d, mask, r.poison)
    let h := replyCmp h r r.bob 0 false none
    (match headOf h r.line with
    | some t => if homedHere h (granuleOf r.line) then putTxn h r.line { t with hostWb := x :: t.hostWb } else h
    | none =>
      let l := rlcLine h r.line
      match l.recalled with
      | some rc => putRlc h r.line { l with recalled := some { rc with hostWb := x :: rc.hostWb } }
      | none => h)
  | _ => h

/-- A write-back with its wbp bobbin is served, or waits for the line's transaction (R189). -/
def takeWb (h : Hub) (r : Req) : Hub :=
  match whereIs h r.line with
  | .here =>
    if (headOf h r.line).isSome then
      if absorbs h r then bobFree (absorb h r) r.bob
      else modChain h r.line (fun c => { c with wbs := c.wbs ++ [r] })
    else joinChain h r
  | .peer node =>
    (match r.op with
    | .memWr d mask m =>
      if rlcOwned h r.line r.agent && (rlcLine h r.line).st.owns then
        localEnd (replyCmp (rlcWriteBack h r.line r.agent d mask r.poison m) r r.bob 0 false none) r
      else rlcLocal h r
    | .evict =>
      let l := rlcLine h r.line
      (match l.recalled with
      | some rc =>
        -- GO_WritePull only once the device's answer is in (R192)
        if rc.awaited.contains r.agent then putRlc h r.line { l with evicts := l.evicts ++ [r] }
        else localEnd (replyCmp (putRlc h r.line { l with pulled := r.agent :: l.pulled }) r r.bob 0 false none) r
      | none => localEnd (replyCmp (putRlc h r.line { l with pulled := r.agent :: l.pulled }) r r.bob 0 false none) r)
    | _ => bobFree (forwardReq h r node) r.bob)
  | _ => bobFree (notServed (unmappedLog h r.line (classOpc r.op) r.agent) r) r.bob

/-- An answer at the home takes effect where a row takes it (R183): none is matched to a transaction whose bobbin is not in
use, and one that finds no open transaction is an orphan; otherwise it is a protocol error (R160). -/
def answerAt (h : Hub) (line : LineAddr) (opc src tag : Nat) (f : Hub → Option Hub) : Hub :=
  if agentDead h (rlcAgent (agentNode src)) then bump h pDED Fld.DED.LATE_MSG_CNT
  else if (mapGet? h.coh.bobs tag).isNone || (headOf h line).isNone then orphan h line opc src
  else
    match f h with
    | some h' => h'
    | none => protoErr h line opc src

/-- A staged SNP_WB is handled (Table TRN-3): its next state is I or S. -/
def snpWbAct (h : Hub) (r : Req) : Hub :=
  match r.op with
  | .snpWb d attr =>
    answerAt h r.line 0x41 r.agent r.bob (fun h =>
      if 1 < attr % 8 then none
      else homeAnswer h r.line r.agent
        (if bit attr 3 then .fwdWb (attr % 8 == 1) d r.poison else .wb (attr % 8 == 1) d r.poison (BitVec.allOnes 64)))
  | _ => h

/-- An answer leaves write staging without a bobbin (Table BOB-2). -/
def isAnswer (r : Req) : Bool :=
  match r.op with
  | .snpWb .. => true
  | _ => false

/-- A general bobbin may be taken for the line (R229, R230, Table OVW-3). -/
def generalOpen (h : Hub) (slice : Nat) (line : LineAddr) : Bool :=
  bobsFree h slice 0 != 0 && serving h &&
    (homedHere h (granuleOf line) || bobsOut h slice < fld h pBOB Fld.BOB.OUT_MAX)

/-- A request with its bobbin enters the slice: the line's chain, or the RLC (R227, R233). A peer's request for a
granule that has moved on is forwarded. -/
def enterSlice (h : Hub) (r : Req) : Hub :=
  match whereIs h r.line, r.who with
  | .here, _ => joinChain h r
  | .peer node, .peer _ => bobFree (forwardReq h r node) r.bob
  | .peer _, .dev _ =>
    (match r.op with
    | .wrFull _ => { replyCmp h r r.bob 0 false none with coh := { h.coh with pulls := h.coh.pulls ++ [r] } }
    | .wrPart .. => { replyCmp h r r.bob 0 false none with coh := { h.coh with pulls := h.coh.pulls ++ [r] } }
    | _ => rlcLocal h r)
  | .peer _, _ => rlcLocal h r
  | _, _ => bobFree (sampleRecord (notServed (unmappedLog h r.line (classOpc r.op) r.agent) r) r false) r.bob

/-- Take a bobbin for a request and give it its sample tag. -/
def equip (h : Hub) (slice pool : Nat) (r : Req) (starved : Bool) (age : Nat) : Option (Req × Hub) :=
  let remote := !homedHere h (granuleOf r.line)
  match bobTake h slice pool { line := r.line, prio := r.prio, remote := remote } with
  | none => none
  | some (k, h) =>
    let (h, tag) := if pool = 0 then sampleGrant h slice r remote starved age else (h, none)
    some ({ r with bob := k, tag := tag }, h)

/-- Base priority of waiting work of a pool (R235). -/
def poolPrio (h : Hub) (pool : Nat) (r : Req) : Nat :=
  match pool with
  | 1 => fld h pBOB Fld.BOB.PRI_WB
  | 2 => fld h pBOB Fld.BOB.PRI_SNP
  | 3 => fld h pBOB Fld.BOB.PRI_MGT
  | _ => whoPrio h r.who r.prio

/-- Base priority of a waiting request. -/
def basePrio (h : Hub) (x : Ing) : Nat := poolPrio h x.pool x.req

/-! ### Write staging -/

/-- A staged message is a candidate: none of its line stands before it (R231). -/
def stagedFirst (h : Hub) (x : Staged) : Bool := (h.coh.staging.find? (fun y => y.req.line == x.req.line)) == some x

/-- A staged message takes no bobbin: it is an answer. -/
def needsNone (h : Hub) (x : Staged) : Bool := isAnswer x.req || absorbs h x.req

/-- Its pool has a bobbin for it, no earlier lane head of the pool wanting it (R229, R239). -/
def stagedOpen (h : Hub) (x : Staged) : Bool :=
  if stagedPool h x.req = 1 then bobsFree h x.slice 1 != 0 else generalOpen h x.slice x.req.line

/-- The staged messages of a slice that could be granted a bobbin now. -/
def stagedCands (h : Hub) (s : Nat) : List Staged :=
  h.coh.staging.filter (fun x => x.slice == s && stagedFirst h x && !needsNone h x && stagedOpen h x)

/-- The next staged message of a line becomes a candidate. -/
def nextStaged (l : List Staged) (line : LineAddr) (now : Nat) : List Staged :=
  match l.findIdx? (fun y => y.req.line == line) with
  | some i => l.modify i (fun y => { y with since := now })
  | none => l

/-- The earlier entry into a starvation lane. -/
def laneMin (a b : Option Nat) : Option Nat :=
  match a, b with
  | some x, some y => some (min x y)
  | some x, none => some x
  | none, y => y

/-! ### The ingress arbiter -/

/-- The heads of a slice's ingress queues, with their places. -/
def ingressHeads (h : Hub) (s : Nat) : List (Nat × Ing) :=
  h.coh.ingress.zipIdx.foldl (fun acc x =>
    if x.1.slice = s && !acc.any (fun y => y.2.src == x.1.src && y.2.pool == x.1.pool) then acc ++ [(x.2, x.1)] else acc) []

/-- A mover's atomic. -/
def moverAtomic (r : Req) : Bool :=
  match r.who, r.op with
  | .mover .., .atomic _ => true
  | .mover .., .nearAtomic _ => true
  | _, _ => false

/-- A mover's atomic keeps its place behind those of the hub's movers that were issued to its line before it (R198). -/
def atomicBehind (h : Hub) (i : Nat) (r : Req) : Bool :=
  moverAtomic r && (h.coh.ingress.take i).any (fun y => y.req.line == r.line && moverAtomic y.req)

/-- A candidate can be granted: a free bobbin of its pool, traffic that runs, no fence of its node (R139), room under
the cap of R229, a way in the RLC, its turn among the atomics of its line. -/
def grantable (h : Hub) (s : Nat) (x : Nat × Ing) : Bool :=
  let r := x.2.req
  if x.2.pool = 0 then
    generalOpen h s r.line && !(agentNode r.agent != ownNode h && (nodeRt h (agentNode r.agent)).fenced) &&
      (homedHere h (granuleOf r.line) || directOp r || rlcRoom h r.line) && !atomicBehind h x.1 r
  else bobsFree h s x.2.pool != 0

/-- The first entry of a pool's starvation lane that could be granted: among the heads of the slice's ingress queues and its
staged messages, whose place in the one lane it is (R239). -/
def laneFirst (h : Hub) (s pool : Nat) : Option Nat :=
  let ing := ((ingressHeads h s).filter (fun x => x.2.pool == pool && grantable h s x)).foldl (fun m x => laneMin m x.2.lane) none
  ((stagedCands h s).filter (fun x => stagedPool h x.req == pool)).foldl (fun m x => laneMin m x.lane) ing

/-- No earlier lane head of the pool holds the work back: the lane is empty, or the work is its head. -/
def laneLets (h : Hub) (s pool : Nat) (lane : Option Nat) : Bool :=
  match laneFirst h s pool with
  | none => true
  | some n => lane == some n

/-- The best of some candidates, by effective priority, then the earlier wait, then the lower source (R236). -/
def bestOf (h : Hub) {α : Type} (prio since src : α → Nat) (cs : List α) : Option α :=
  cs.foldl (fun best x =>
    match best with
    | none => some x
    | some y => if ahead h (prio x) (since x) (src x) (prio y) (since y) (src y) then some x else best) none

/-- The request the arbiter grants: the head of a starvation lane that can be granted, else by effective priority
(R236, R239). -/
def ingressPick (h : Hub) (s : Nat) : Option (Nat × Ing) :=
  let cands := (ingressHeads h s).filter (fun x => grantable h s x && laneLets h s x.2.pool x.2.lane)
  let lane := cands.foldl (fun m x => laneMin m x.2.lane) none
  match lane, cands.find? (fun x => x.2.lane == lane) with
  | some _, some x => some x
  | _, _ => bestOf h (fun x => basePrio h x.2) (fun x => x.2.since) (fun x => x.2.src) cands

/-- The staged message that leaves next: an answer that needs no bobbin, the earliest first; else the head of a lane, else by
effective priority (R231, R236, R239). -/
def stagedPick (h : Hub) (s : Nat) : Option Staged :=
  match h.coh.staging.find? (fun x => x.slice == s && stagedFirst h x && needsNone h x) with
  | some x => some x
  | none =>
    let cands := (stagedCands h s).filter (fun x => laneLets h s (stagedPool h x.req) x.lane)
    let lane := cands.foldl (fun m x => laneMin m x.lane) none
    match lane, cands.find? (fun x => x.lane == lane) with
    | some _, some x => some x
    | _, _ => bestOf h (fun x => poolPrio h (stagedPool h x.req) x.req) (·.since) (·.src) cands

/-- A message has left write staging, and its credits return (R231). -/
def unstage (h : Hub) (x : Staged) : Hub :=
  let h := { h with coh := { h.coh with staging := nextStaged (h.coh.staging.erase x) x.req.line h.htime } }
  match x.link with
  | some b => oweCredits h b 4 5
  | none => h

/-- A message leaves write staging (R231). One of a granule that is FROZEN here is marked, so that it
waits like a new request where it proves to be no write-back (R199). -/
def stagingDequeue (h : Hub) (s : Nat) : Hub :=
  match stagedPick h s with
  | none => h
  | some x =>
    let pool := stagedPool h x.req
    let none' := needsNone h x
    let h := unstage h x
    if isAnswer x.req then snpWbAct h x.req
    else if none' then absorb h x.req
    else
      let late := (homeEntry h (granuleOf x.req.line)).frozen && homedHere h (granuleOf x.req.line)
      let r := { x.req with prio := poolPrio h pool x.req, late := late }
      match equip h s pool r x.lane.isSome (ageLevel h x.since) with
      | none => h
      | some (r, h) => if pool = 1 then takeWb h r else enterSlice h r

/-- Evictions start for the lines of candidates that wait for a way of the RLC. -/
def roomForHeads (h : Hub) (s : Nat) : Hub :=
  (ingressHeads h s).foldl (fun h x =>
    if x.2.pool = 0 && !homedHere h (granuleOf x.2.req.line) && !directOp x.2.req &&
        (match x.2.req.who with
        | .peer _ => false
        | _ => true) then (rlcMakeRoom h x.2.req.line).1 else h) h

/-- The next request of a queue comes to its head. -/
def nextHead (h : Hub) (l : List Ing) (src slice pool : Nat) : List Ing :=
  match l.zipIdx.find? (fun y => y.1.src == src && y.1.slice == slice && y.1.pool == pool) with
  | some (y, j) => l.set j { y with since := h.htime }
  | none => l

/-- Management-pool work has its bobbin: a rebuild begins, unless the granule has moved on. -/
def mgmtEnter (h : Hub) (r : Req) : Hub :=
  if whereIs h r.line = .here then joinRebuild h r else bobFree h r.bob

/-- Work with its bobbin enters the slice, by its pool. -/
def enterPool (h : Hub) (pool : Nat) (r : Req) : Hub :=
  match pool with
  | 1 => takeWb h r
  | 2 => (match r.op with
    | .snoop sn => snoopAct h r.line { sn with sbob := r.bob }
    | _ => h)
  | 3 => mgmtEnter h r
  | _ => enterSlice h r

/-- The requests of a granule's handoff queue that this hub no longer homes go on in queue order: a peer's is forwarded, a
local agent's goes as a request of this hub once it has a general bobbin, and those behind it wait for it (R200). -/
def drainHo : Nat → Hub → Nat → Hub
  | 0, h, _ => h
  | n + 1, h, g =>
    if (homeEntry h g).frozen && homedHere h g then h
    else
      match h.coh.hoQueue.find? (fun x => granuleOf x.req.line == g) with
      | none => h
      | some x =>
        let rest := { h with coh := { h.coh with hoQueue := h.coh.hoQueue.erase x } }
        match x.req.who, whereIs h x.req.line with
        | .peer _, .peer node => drainHo n (giveBack (forwardReq rest x.req node) x) g
        | _, _ =>
          if generalOpen h x.slice x.req.line &&
              (homedHere h g || directOp x.req || (rlcRoom h x.req.line)) then
            match equip rest x.slice 0 { x.req with prio := basePrio h x } false (ageLevel h x.since) with
            | none => h
            | some (r, h) => drainHo n (enterSlice (giveBack h x) r) g
          else if !homedHere h g && !directOp x.req then (rlcMakeRoom h x.req.line).1
          else h

/-- Every handoff queue whose granule is not FROZEN here goes on. -/
def drainAll (h : Hub) : Hub :=
  ((h.coh.hoQueue.map (fun x => granuleOf x.req.line)).eraseDups).foldl
    (fun h g => drainHo (h.coh.hoQueue.length + 1) h g) h

/-- What an ingress arbiter picks from: where the hub serves, requests that waited for a handoff are back in the queues, and
evictions have made room for their heads. -/
def ingressReady (h : Hub) (s : Nat) : Hub := if serving h then roomForHeads (drainAll h) s else h

/-- One grant of a slice's ingress arbiter into HP0 (R233). -/
def ingressGrant (h : Hub) (s : Nat) : Hub :=
  let h := ingressReady h s
  match ingressPick h s with
  | none => h
  | some (i, x) =>
    let age := ageLevel h x.since
    let r := { x.req with prio := basePrio h x }
    match equip h s x.pool r x.lane.isSome age with
    | none => h
    | some (r, h) =>
      let h := { h with coh := { h.coh with ingress := nextHead h (h.coh.ingress.eraseIdx i) x.src x.slice x.pool } }
      let h := if age = 7 then bump h pBOB Fld.BOB.AGE_SAT_CNT else h
      enterPool (giveBack h x) x.pool r

/-- A Tulle snoop arrives: it is handled at once with a free snoop-pool bobbin, no other snoop of the slice waiting; else it
waits in its ingress buffer, with its VC1 credit (R161, R227, R228, R241). -/
def rlcSnoop (h : Hub) (b : Nat) (line : LineAddr) (sn : Snp) : Hub :=
  let s := sliceOf line
  let r : Req := { who := .hub, agent := intAgent sn.home, op := .snoop sn, line := line, poison := false,
                   prio := fld h pBOB Fld.BOB.PRI_SNP, ctx := 0, bob := 0, t0 := h.htime, hops := 0, tag := none }
  let take := if h.coh.ingress.any (fun x => x.pool == 2 && x.slice == s) then none
    else bobTake h s 2 { line := line, prio := r.prio, remote := true }
  match take with
  | some (k, h) => snoopAct (oweCredits h b 1 1) line { sn with sbob := k }
  | none => ingressPut h (srcLink b) 2 r (some b)

/-- The first transaction of a slice that waits for a way and whose set has an unlocked one (R211), with its line. -/
def stalledHead (h : Hub) (s : Nat) : Option (LineAddr × Txn) :=
  (h.coh.chains.filterMap (fun c => c.2.head.map (fun t => (c.1, t)))).find? (fun x =>
    sliceOf x.1 == s && x.2.st == .stall && (victimPick h x.1).isSome)

/-- The first entry change of a slice that waits for a way and whose set has an unlocked one (R212). -/
def stalledEntry (h : Hub) (s : Nat) : Option LineAddr :=
  (h.prk.waits.find? (fun x => sliceOf x.1 == s && entOpenNow h x.1)).map (·.1)

/-- A transaction that has its way is looked up again and, where no row of its own serves it, begins (R184). -/
def resumeHead (h : Hub) (line : LineAddr) (t : Txn) : Hub :=
  let h := lookup h line t
  match headOf h line with
  | some t' =>
    if t'.st = .ready && !rowServed t'.req.op then
      let (h, ended) := startAuto h line t'
      if ended then releaseHead h line else h
    else h
  | none => h

/-- The transactions and the entry changes that wait for a way of a slice: the first whose set has an unlocked way (R211). -/
def stallResume (h : Hub) (s : Nat) : Hub :=
  match stalledHead h s with
  | some (line, t) =>
    if t.req.op = .rebuild then joinRebuild (modChain h line (fun c => { c with head := none })) t.req
    else resumeHead h line t
  | none =>
    match stalledEntry h s with
    | some line => closeDone (settleWaits h line)
    | none => h

/-! ### Clean-eviction notices (R163, R176, R215) -/

/-- An agent's clean-eviction notice: its pointer is cleared, in the directory or in the RLC's holder list. -/
def notice (h : Hub) (line : LineAddr) (a : AgentId) : Hub :=
  match whereIs h line with
  | .here =>
    if (fetchWay h line).isSome || h.prk.waits.any (fun x => x.1 == line) then waitWay h line (.drop a)
    else if (cachedEnt h line).isNone && (regionRead h line).2 != 0 then h
    else if !(entOf h line).named.contains a then h
    else if !entOpenNow h line then waitWay h line (.drop a)
    else dropAgent h line a
  | .peer _ =>
    let l := rlcLine h line
    if l.holders.named.contains a then putRlc h line { l with holders := entRemove l.holders a } else h
  | _ => h

/-! ### What follows every act on the slices -/

/-- REQ-class credits owed to the bays return, unless they are withheld (R230), or the bay's quad is not ON (R459). -/
def returnReq (h : Hub) : Hub :=
  if reqWithheld h (atBound h) then h
  else ((h.bays.filter (fun e => e.2.reqOwed != 0 && quadOpen h e.1)).map (·.1)).foldl (fun h b =>
    modBay (emit h (.reqCredit b (bayRt h b).reqOwed)) b (fun r => { r with reqOwed := 0 })) h

/-- The lead bays of a role whose link is up with CXL.mem. -/
def memBays (h : Hub) (role : Nat) : List Nat :=
  (leadsOf h role).filter (fun b => bayUp h b && flag h (pBAY b) Fld.BAY.LSTAT_CXL)

/-- A write of the host of a bay waits somewhere: among the requests, as an answer's dirty data (R191), or in a dirty RLC line
that its home does not have yet. Dirty data on its way to the media may be any host's (DEDUCED, log entry 92). -/
def hostWritesDone (h : Hub) (b : Nat) : Bool :=
  let from_ := fun (a : AgentId) => agentIn h [b] a
  let mine := fun (r : Req) => from_ r.agent && (match r.op with
    | .memWr .. => true
    | .wbDirty _ => true
    | .wrFull _ => true
    | .wrPart .. => true
    | _ => false)
  !(h.coh.ingress.any (fun x => mine x.req)) && !(h.coh.hoQueue.any (fun x => mine x.req)) &&
    !(h.coh.staging.any (fun x => mine x.req)) &&
    h.coh.chains.all (fun c => !c.2.waiting.any mine && !c.2.wbs.any mine &&
      !c.2.head.toList.any (fun t => mine t.req || t.dirty.isSome || t.wdata.isSome || t.hostWb.any (fun x => from_ x.1))) &&
    h.coh.rlc.all (fun l => !l.2.waiting.any mine && !l.2.cur.toList.any mine && !l.2.wrote.any from_ &&
      !l.2.recalled.toList.any (fun r => r.hostWb.any (fun x => from_ x.1)))

/-- A GPF phase 2 request completes, and the bay is recorded as flushed for this boot (R462). -/
def gpfEnds (h : Hub) (b : Nat) : Hub :=
  emit (modBay h b (fun r => { r with gpfAsked := false, gpfFlushed := true })) (.gpfDone b)

/-- The GPF phase 2 requests that waited for their hosts' writes complete (R462). -/
def gpfSettle (h : Hub) : Hub :=
  ((h.bays.filter (fun e => e.2.gpfAsked && (memBays h 1).contains e.1 && hostWritesDone h e.1)).map (·.1)).foldl gpfEnds h

/-- What waits on an unreachable media way ends (R482), credits return (R230), and GPF requests complete (R462). -/
def cohSettle (h : Hub) : Hub := gpfSettle (returnReq (mediaSettle (mediaFuel h) h))

/-- Act on the slices. -/
def State.onCoh (s : State) (f : Hub → Hub) : State := s.onHub (fun h => cohSettle (f h))

end Sys2Proof.Machine
end

