-- ==== Sys2Proof/Machine/Port.lean ====
section
/-! DEFINITION. The register port: which access is served, refused or logged (R85 to R111, R478), the fields a write
changes, the low-half latches and the staging registers. The registers with an effect beyond their value are joined
to their blocks in Machine/Registers.lean. -/

namespace Sys2Proof.Machine

/-! ### Registers at an offset -/

/-- The field, or member of an array, that a definition places at an offset. -/
def fieldAt (f : FieldDef) (off : Nat) : Option FieldDef :=
  if f.stride = 0 then if f.off = off then some f else none
  else if f.off ≤ off && (off - f.off) % f.stride = 0 && (off - f.off) / f.stride < f.count then
    some (f.nth ((off - f.off) / f.stride))
  else none

/-- A field marked "lead only", on the page of a bay that is not the first of its quad, where it is RSVD (R51). -/
def leadOnly (pg : Nat) (f : FieldDef) : Bool :=
  64 ≤ pg && pg < 112 && pg % 4 != 0 && (f == Fld.BAY.ROLECFG_QBOND || f == Fld.BAY.QRST_CNT)

/-- The fields of the register at an offset of a page. -/
def regFields (pg off : Nat) : List FieldDef :=
  ((if off < 0x100 then fieldsHdr else blockFields pg).filterMap (fun f => fieldAt f off)).filter
    (fun f => !leadOnly pg f)

/-- The low halves of the 64-bit registers (Table CAT-2), TASK_IRQ apart (R362). Pairs that the table lists as two registers
of 32 bits, not as one "_LO/_HI" (GLB.SERIAL, TUL.DIGEST, BOB.PEEK_ADDR), are none (DEDUCED, log entry 60). -/
def lowHalf (pg off : Nat) : Bool :=
  if off < 0x100 then off == 0x030 || (0x0A0 ≤ off && off < 0x0E0 && off % 8 == 0)
  else if pg < 26 then
    (match pg with
    | 1 => off == 0x100 || off == 0x108 || off == 0x110
    | 3 => off == 0x114
    | 7 => off == 0x100
    | 8 => off == 0x100 || off == 0x108
    | 9 => off == 0x180 || off == 0x198
    | 11 => off == 0x118 || off == 0x140
    | 13 => off == 0x110 || off == 0x118 || off == 0x138
    | 15 => off == 0x12C
    | 16 => off == 0x140 || off == 0x154
    | 17 => off == 0x104
    | 18 => off == 0x100 || (0x200 ≤ off && off < 0x280 && off % 16 == 0) || (0x400 ≤ off && off < 0xC00 && off % 32 == 0)
    | 20 => off == 0x108 || off == 0x124
    | 21 => off == 0x108
    | 23 => off == 0x100 || off == 0x108 || off == 0x110
    | 25 => off == 0x100 || off == 0x108 || off == 0x110 || off == 0x11C || off == 0x158
    | _ => false)
  else if pg < 112 then false
  else off == 0x11C

/-- The offset is the high half of a 64-bit register. -/
def highHalf (pg off : Nat) : Bool := 4 ≤ off && lowHalf pg (off - 4)

/-- Every field of the register is RC. -/
def isRc (pg off : Nat) : Bool :=
  let fs := regFields pg off
  !fs.isEmpty && fs.all (fun f => f.acc == .rc)

/-! ### Writing fields -/

/-- The value is one that the field's table lists as reserved, or lies outside the range it gives (R8). -/
def reservedEnc (pg : Nat) (f : FieldDef) (x : Nat) : Bool :=
  if f = Fld.HDR.LOCK_LEVEL then x == 3
  else if f.off < 0x100 then false
  else if pg < 26 then
    (match pg with
    | 3 => (f = Fld.PWR.PFAIL_CFG_DISC_US && (x < 5 || 5000 < x)) || (0x140 ≤ f.off && f.off < 0x180 && x == 3)
    | 5 => (f = Fld.MOD.HO_CTL_FREEZE_MAX_US && (x == 0 || 4000 < x)) || (f = Fld.MOD.CTL_REQ && 4 ≤ x)
    | 9 => (f = Fld.PRK.LOCAL_PROV && 8192 < x) || (f = Fld.PRK.MEDIA_WAYS && 4 < x) ||
        (f = Fld.PRK.MEDIA_GRAN && x == 7)
    | 10 => f = Fld.COH.CFG_ATOM_FORCE && x == 3
    | 11 => (f = Fld.BOB.CFG_AGE_SHIFT && (x < 6 || 16 < x)) || (f = Fld.BOB.CFG_STARVE_US && x == 0) ||
        (f = Fld.BOB.OUT_MAX && (x < 32 || 384 < x))
    | 13 => (f = Fld.DED.CFG_SNP_TO_MS || f = Fld.DED.CFG_LINK_TO_MS || f = Fld.DED.CFG_TXN_TO_MS) && x == 0
    | 16 => (f = Fld.XLT.CFG_PF_DEPTH && 4 < x) || ((f = Fld.XLT.CFG_FAULT_TO_MS || f = Fld.XLT.CFG_MIG_HOLD_MS) && x == 0)
    | 17 => (f = Fld.ACN.CFG_THRESH && x == 0) || (f = Fld.ACN.CFG_DECAY_LOG2 && 20 < x) ||
        (f = Fld.ACN.CFG_RING_LOG2 && (x < 4 || 16 < x))
    | 18 => ((f = Fld.PIC.STALE_US || f = Fld.PIC.SYNC_WIDTH) && x == 0) ||
        (0x200 ≤ f.off && f.off < 0x280 && f.off % 16 == 8 && f.lo == 0 &&
          (0x84 < x && (x < 0x90 || 0x9B < x)))
    | 22 => (f = Fld.TRU.MB_CMD_REQ_LEN && 512 < x) || (f = Fld.TRU.MB_BUF_LEN && 16 * 2 ^ 20 < x)
    | 20 => (f = Fld.CNT.DUMP_CFG_K && 20 < x) || (f = Fld.CNT.DUMP_CFG_RING_LOG2 && (x < 4 || 16 < x))
    | 21 => (f = Fld.SMP.CFG_N && (x < 4 || 24 < x)) || (f = Fld.SMP.CFG_RING_LOG2 && (x < 4 || 16 < x)) ||
        (f = Fld.SMP.SEED && x == 0)
    | _ => false)
  else if pg < 112 then
    (f = Fld.BAY.ROLECFG_QBOND && 4 < x) || (f = Fld.BAY.LINKCFG_MIN_WIDTH && 4 < x) ||
      ((f = Fld.BAY.LINKCFG_MIN_RATE || f = Fld.BAY.LINKCFG_MAX_RATE) && 5 < x)
  else false

/-- The bits of a field that are assigned: ISTAT, IEN and IFORCE hold only the page's assigned positions (R105). -/
def fieldMask (pg : Nat) (f : FieldDef) : Nat :=
  if f = Fld.HDR.ISTAT || f = Fld.HDR.IEN || f = Fld.HDR.IFORCE then pageCap pg else 2 ^ f.width - 1

/-- Apply a written word to the fields of a register that the class may reach: RW takes the value, W1C and W1S act on
the bits written with 1, the other codes take nothing. Under a LOCK that refuses the write only W1C fields take it
(R94). The flag says that a reserved encoding was left out (R8). -/
def applyFields (h : Hub) (c : Cls) (locked : Bool) (pg : Nat) (fs : List FieldDef) (v : Nat) : Hub × Bool :=
  fs.foldl (fun (acc : Hub × Bool) f =>
    let x := bits v f.lo f.width &&& fieldMask pg f
    if c.rank < f.cls.rank then acc
    else
      match f.acc with
      | .rw =>
        if locked then acc
        else if reservedEnc pg f x then (acc.1, true)
        else (setFld acc.1 pg f x, acc.2)
      | .w1c => (setFld acc.1 pg f (fld acc.1 pg f &&& (2 ^ f.width - 1 - x)), acc.2)
      | .w1s => if locked then acc else (setFld acc.1 pg f (fld acc.1 pg f ||| x), acc.2)
      | .wo => if !locked && reservedEnc pg f x then (acc.1, true) else acc
      | _ => acc) (h, false)

/-- A field software can write. -/
def writable (f : FieldDef) : Bool := f.acc == .rw || f.acc == .w1c || f.acc == .w1s || f.acc == .wo

/-- The value a write of a field is compared with (R92). -/
def presentValue (h : Hub) (pg : Nat) (f : FieldDef) : Nat := if f.acc == .wo then 0 else viewField h pg f

/-! ### Who may write -/

/-- H-class writes need the page's owner (R93). U-class fields of a REGWIN page are reached as if of class H. -/
def ownerRefuses (h : Hub) (o : Origin) (pg : Nat) : Bool :=
  match o with
  | .hostH b => !(flag h pg Fld.HDR.OWNER_VALID && fld h pg Fld.HDR.OWNER_BAY == b.val)
  | .hostU b => !(flag h pg Fld.HDR.OWNER_VALID && fld h pg Fld.HDR.OWNER_BAY == b.val)
  | _ => false

/-- LOCK.LEVEL refuses a write of a class (R94). -/
def lockRefuses (h : Hub) (c : Cls) (pg : Nat) : Bool :=
  match fld h pg Fld.HDR.LOCK_LEVEL with
  | 1 => c.rank ≤ 1
  | 2 => c.rank ≤ 2
  | _ => false

/-- SEAL and BENCH refuse H- and U-class writes (R96). -/
def modeRefuses (h : Hub) (c : Cls) : Bool :=
  (h.mode.mode == .seal || h.mode.mode == .bench) && c.rank ≤ 1

/-- A field of a higher class, whatever its access code, is written with a value that differs from the present one (R92). -/
def classDiffers (h : Hub) (c : Cls) (pg : Nat) (fs : List FieldDef) (v : Nat) : Bool :=
  fs.any (fun f => c.rank < f.cls.rank && bits v f.lo f.width != presentValue h pg f)

/-- An access reaches the windows: a host's while Memory Space Enable of its function is set (R87). -/
def decodes (h : Hub) : Origin → Bool
  | .hostH b => (bayRt h b.val).memSpaceEn
  | .hostU b => (bayRt h b.val).memSpaceEn
  | _ => true

/-- A LOCK that refuses the class refuses something of the write: a field that is not W1C, or, where the register has no
W1C field, the write of a register that takes none (R94). The read-only fields beside a W1C field refuse nothing
(DEDUCED, log entry 60). -/
def lockRefusesPart (fs : List FieldDef) : Bool :=
  fs.any (fun f => writable f && f.acc != .w1c) || fs.all (fun f => f.acc != .w1c)

/-- The kinds a write of a register logs before its own rules are judged, and whether it is dropped whole. -/
def writeKinds (h : Hub) (o : Origin) (pg off v : Nat) : List AccKind × Bool :=
  let c := clsOf o
  let fs := regFields pg off
  if !decodes h o then ([], true)
  else if !pageExists pg then ([.noPage], true)
  else
    let own := ownerRefuses h o pg
    let lck := lockRefuses h c pg && lockRefusesPart fs
    let md := modeRefuses h c
    ((if own || classDiffers h c pg fs v then [.classWrite] else []) ++ (if lck then [.locked] else []) ++
      (if md then [.stateRefused] else []), own || md)

/-- Log the first kind in the order of Table PAG-9 (R110). -/
def logKinds (h : Hub) (ks : List AccKind) (a : Access) (write : Bool) : Hub :=
  match ks with
  | [] => h
  | k :: t => accErr h (t.foldl (fun m k => if k.code < m.code then k else m) k) a write

/-- Every field of the register that the class may reach. -/
def reaches (c : Cls) (pg off : Nat) : Bool :=
  (regFields pg off).any (fun f => writable f && f.cls.rank ≤ c.rank)

/-- A write of a register whose effect is `act`: refused or logged by class, owner, lock and mode (R92 to R96), and
otherwise done. `act` answers a kind to log (a state refusal or a reserved encoding) with the hub it leaves. -/
def guardedK (h : Hub) (o : Origin) (pg off v : Nat) (act : Hub → Hub × List AccKind) : Hub :=
  let a := regAccess o pg off
  let (ks, drop) := writeKinds h o pg off v
  let stop := drop || lockRefuses h (clsOf o) pg || !reaches (clsOf o) pg off
  if stop then logKinds h ks a true
  else
    let (h1, ks1) := act h
    logKinds h1 (ks ++ ks1) a true

/-- A guarded write whose effect refuses nothing. -/
def guarded (h : Hub) (o : Origin) (pg off v : Nat) (act : Hub → Hub) : Hub :=
  guardedK h o pg off v (fun h => (act h, []))

/-- A write that stores fields (with W1C and W1S), under class, owner, lock, mode and reserved encodings. `post` is what
follows a write that was not dropped; `refuse` says that the block's state refuses the write whole. -/
def fieldWrite (h : Hub) (o : Origin) (pg off v : Nat) (refuse : Bool) (post : Hub → Hub) : Hub :=
  let a := regAccess o pg off
  let c := clsOf o
  let (ks, drop) := writeKinds h o pg off v
  if drop then logKinds h ks a true
  else if refuse && !lockRefuses h c pg && reaches c pg off then logKinds h (ks ++ [.stateRefused]) a true
  else
    let (h1, rsv) := applyFields h c (lockRefuses h c pg) pg (regFields pg off) v
    logKinds (post h1) (ks ++ (if rsv then [.reservedEnc] else [])) a true

/-- A write that only stores fields. -/
def plainWrite (h : Hub) (o : Origin) (pg off v : Nat) : Hub := fieldWrite h o pg off v false (fun h => h)

/-! ### Latches and stages (R100 to R102) -/

/-- The latch of an origin. -/
def latchOf (h : Hub) (o : Origin) : Option Latch := h.port.latches.find? (fun l => l.origin == o)

/-- Disarm an origin's latch, logging nothing. -/
def latchDrop (h : Hub) (o : Origin) : Hub :=
  { h with port := { h.port with latches := h.port.latches.filter (fun l => l.origin != o) } }

/-- Disarm an origin's latch that was not consumed: a lost non-zero half of an RC register is logged (R101). -/
def latchLose (h : Hub) (o : Origin) : Hub :=
  match latchOf h o with
  | none => h
  | some l =>
    let h1 := latchDrop h o
    if l.rc && l.value != 0 then accErr h1 .rcHalfLost (regAccess o l.page l.off) false else h1

/-- Arm an origin's latch with the high half. A latch that another low-half read replaces, be it of the same register, was
not consumed (R101, Table PAG-10). -/
def latchArm (h : Hub) (o : Origin) (pg off value : Nat) (rc : Bool) : Hub :=
  let h1 := latchLose h o
  { h1 with port := { h1.port with latches :=
      { origin := o, page := pg, off := off, value := value, time := h1.htime, rc := rc } :: h1.port.latches } }

/-- The stage of an origin. -/
def stageOf (h : Hub) (o : Origin) : Option Stage := h.port.stages.find? (fun t => t.origin == o)

/-- Discard an origin's staged value, logging nothing. -/
def stageDrop (h : Hub) (o : Origin) : Hub :=
  { h with port := { h.port with stages := h.port.stages.filter (fun t => t.origin != o) } }

/-- The low half that an origin's stage holds for the register whose high half is at an offset. -/
def stageFor (h : Hub) (o : Origin) (pg off : Nat) : Option Stage :=
  match stageOf h o with
  | some t => if t.page = pg && t.off + 4 = off then some t else none
  | none => none

/-- Discard an origin's staged value and log STAGE_EXPIRED (R102). -/
def stageLose (h : Hub) (o : Origin) : Hub :=
  match stageOf h o with
  | none => h
  | some t => accErr (stageDrop h o) .stageExpired (regAccess o t.page t.off) true

/-- Stage a low half (R102). -/
def stagePut (h : Hub) (o : Origin) (pg off value : Nat) : Hub :=
  let h1 := match stageOf h o with
    | some t => if t.page = pg && t.off = off then stageDrop h o else stageLose h o
    | none => h
  { h1 with port := { h1.port with stages :=
      { origin := o, page := pg, off := off, value := value, time := h1.htime } :: h1.port.stages } }

/-- Reset an origin: its latch and stage are discarded and nothing is logged (R111). -/
def originReset (h : Hub) (o : Origin) : Hub := stageDrop (latchDrop h o) o

/-! ### Reading -/

/-- H-class reads need the owner or SHARED_RD (R93); U-class origins read no REGWIN page as their own. -/
def readRefused (h : Hub) (o : Origin) (pg : Nat) : Bool :=
  ownerRefuses h o pg && !(match o with
    | .hostH _ => flag h pg Fld.HDR.OWNER_SHARED_RD
    | _ => false)

/-- The word a class reads at an offset: fields of a higher class read zero (R92). -/
def wordAs (h : Hub) (c : Cls) (pg off : Nat) : Nat :=
  ((regFields pg off).filter (fun f => f.cls.rank ≤ c.rank)).foldl
    (fun acc f => acc + viewField h pg f * 2 ^ f.lo) 0

/-- The word an origin reads at an offset. -/
def wordFor (h : Hub) (o : Origin) (pg off : Nat) : Nat :=
  ((regFields pg off).filter (fun f => f.cls.rank ≤ (clsOf o).rank)).foldl
    (fun acc f => acc + viewFor h o pg f * 2 ^ f.lo) 0

/-- A write of a high half (R102): `act` takes the new low half. A refusal discards what is staged for the register. -/
def highWriteK (h : Hub) (o : Origin) (pg off v : Nat) (act : Hub → Nat → Hub × List AccKind) : Hub :=
  let a := regAccess o pg off
  let (ks, drop) := writeKinds h o pg off v
  if drop || lockRefuses h (clsOf o) pg || !reaches (clsOf o) pg off then
    logKinds (if (stageFor h o pg off).isSome then stageDrop h o else h) ks a true
  else
    let present := wordAs h .z pg (off - 4)
    let (lo, h1) := match stageFor h o pg off with
      | some t => if h.htime - t.time < 1024 then (t.value, stageDrop h o) else (present, stageLose h o)
      | none => (present, h)
    let (h2, ks1) := act h1 lo
    logKinds h2 (ks ++ ks1) a true

/-- A write of a low half (R102): staged, unless it is refused. -/
def lowWriteK (h : Hub) (o : Origin) (pg off v : Nat) (refused : Bool) : Hub :=
  let a := regAccess o pg off
  let (ks, drop) := writeKinds h o pg off v
  if drop || lockRefuses h (clsOf o) pg || !reaches (clsOf o) pg off then logKinds h ks a true
  else if refused then logKinds h (ks ++ [.stateRefused]) a true
  else logKinds (stagePut h o pg off v) ks a true

/-- Clear the RC fields of a register that the class may reach. -/
def clearRc (h : Hub) (c : Cls) (pg off : Nat) : Hub :=
  ((regFields pg off).filter (fun f => f.acc == .rc && f.cls.rank ≤ c.rank)).foldl (fun h f => setFld h pg f 0) h

/-- Every non-RSVD field of the register is of a higher class (R92). -/
def allHidden (c : Cls) (pg off : Nat) : Bool :=
  let fs := regFields pg off
  !fs.isEmpty && fs.all (fun f => c.rank < f.cls.rank)

/-- An aligned 32-bit read of a REGWIN page that exists: value, hub after it, kinds to log. -/
def readDw (h : Hub) (o : Origin) (pg off : Nat) : Nat × Hub × List AccKind :=
  let c := clsOf o
  if readRefused h o pg then (0, h, [.classRead])
  else
    let ks : List AccKind := if allHidden c pg off then [.classRead] else []
    let v := wordFor h o pg off
    if lowHalf pg off then
      let rc := isRc pg off
      let hi := wordFor h o pg (off + 4)
      let h1 := if rc then clearRc (clearRc h c pg off) c pg (off + 4) else h
      (v, latchArm h1 o pg off hi rc, ks)
    else if highHalf pg off then
      match latchOf h o with
      | some l =>
        if l.page = pg && l.off = off - 4 then
          if h.htime - l.time < 1024 then (l.value, latchDrop h o, ks) else (v, latchLose h o, ks)
        else (v, h, ks)
      | none => (v, h, ks)
    else if isRc pg off then (v, clearRc h c pg off, ks)
    else (v, h, ks)

/-- A read inside one DW that does not take the whole of it (Table PAG-5, narrow). -/
def readNarrow (h : Hub) (o : Origin) (pg off n : Nat) : Nat × Hub × List AccKind :=
  let dw := off / 4 * 4
  if isRc pg dw then (0, h, [.narrowRcRead])
  else if readRefused h o pg then (0, h, [.classRead])
  else (bits (wordFor h o pg dw) (8 * (off - dw)) (8 * n), h,
    if allHidden (clsOf o) pg dw then [.classRead] else [])

/-- Byte enables that Table PAG-5 calls unaligned. -/
def unaligned (a : Access) : Bool :=
  !a.contig || ((a.nbytes == 2 || a.nbytes == 4 || a.nbytes == 8) && a.off % a.nbytes != 0)

/-- The DWs an access touches, each as (offset of its first enabled byte, enabled bytes). -/
def dwParts : Nat → Nat → Nat → List (Nat × Nat)
  | 0, _, _ => []
  | fuel + 1, off, n =>
    if n = 0 then []
    else
      let k := min n (4 - off % 4)
      (off, k) :: dwParts fuel (off + k) (n - k)

/-- The parts of a multi-DW read in ascending order, one hc each, each logging its own error (R98). -/
def readParts (h : Hub) (a : Access) : List (Nat × Nat) → Nat × Hub
  | [] => (0, h)
  | (off, n) :: t =>
    let (v, h1, ks) := if n = 4 then readDw h a.origin a.page off else readNarrow h a.origin a.page off n
    let h2 := logKinds h1 ks { a with off := off, nbytes := a.nbytes - (off - a.off) } false
    let (rest, h3) := readParts (if t.isEmpty then h2 else advance h2 1) a t
    (v + 2 ^ (8 * n) * rest, h3)

/-- The bytes of an access from the first, each as a function of its position gives it, and zero in the lanes that are not
enabled. -/
def lanes (a : Access) (f : Nat → Nat) : Nat :=
  (List.range a.nbytes).foldr (fun k v => (if a.gaps.contains k then 0 else f k % 256) + 256 * v) 0

/-- A read of REGWIN by Table PAG-5: the value of its enabled bytes, from the first. A page that does not exist logs one
NO_PAGE for the whole access, whatever its shape (DEDUCED, log entry 60). -/
def readRegwin (h : Hub) (a : Access) : Nat × Hub :=
  if !pageExists a.page then (lanes a (fun _ => 0xFF), accErr h .noPage a false)
  else if unaligned a then (lanes a (fun _ => 0xFF), accErr h .unalignedRead a false)
  else if a.nbytes < 4 && a.off % 4 + a.nbytes ≤ 4 then
    let (v, h1, ks) := readNarrow h a.origin a.page a.off a.nbytes
    (v, logKinds h1 ks a false)
  else if a.nbytes = 8 && lowHalf a.page a.off then
    let c := clsOf a.origin
    if readRefused h a.origin a.page then (0, accErr h .classRead a false)
    else
      let v := wordFor h a.origin a.page a.off + 2 ^ 32 * wordFor h a.origin a.page (a.off + 4)
      let h1 := if isRc a.page a.off then clearRc (clearRc h c a.page a.off) c a.page (a.off + 4) else h
      (v, logKinds h1 (if allHidden c a.page a.off then [.classRead] else []) a false)
  else readParts h a (dwParts (a.nbytes + 1) a.off a.nbytes)

/-! ### Header registers with an effect of their own -/

/-- What follows a write of ISTAT or IEN: the interrupt's edge, or a fresh message while it stays active (R106). -/
def afterIrqWrite (before after : Hub) (pg : Nat) : Hub :=
  if irqActive before pg && irqActive after pg then msixPage (settle before after pg) pg else settle before after pg

/-- IFORCE sets the assigned ISTAT bits (R105); such a set is no hardware event for the counters (Table CNT-2). -/
def iforce (h : Hub) (pg v : Nat) : Hub :=
  atPage h pg (fun h => setFld h pg Fld.HDR.ISTAT (fld h pg Fld.HDR.ISTAT ||| (v &&& pageCap pg)))

/-- What follows a write of OWNER or CTL that changed the routing of an active interrupt (R106). -/
def afterRouteWrite (before after : Hub) (pg : Nat) : Hub :=
  let changed := fld before pg Fld.HDR.OWNER_VALID != fld after pg Fld.HDR.OWNER_VALID ||
    fld before pg Fld.HDR.OWNER_BAY != fld after pg Fld.HDR.OWNER_BAY ||
    fld before pg Fld.HDR.CTL_ROUTE_H != fld after pg Fld.HDR.CTL_ROUTE_H ||
    fld before pg Fld.HDR.CTL_VECTOR != fld after pg Fld.HDR.CTL_VECTOR
  let h1 := settle before after pg
  if changed && irqActive h1 pg then msixPage h1 pg else h1

/-- A write of LOCK (R95). -/
def lockWrite (h : Hub) (o : Origin) (pg v : Nat) : Hub × List AccKind :=
  let old := fld h pg Fld.HDR.LOCK_LEVEL
  let lvl := bits v 0 2
  if flag h pg Fld.HDR.LOCK_STICKY && lvl < old then (h, [.locked])
  else if lvl = 2 && clsOf o = .f then (h, [.classWrite])
  else
    let h1 := if bit v 2 then setFld h pg Fld.HDR.LOCK_STICKY 1 else h
    if lvl = 3 then (h1, [.reservedEnc]) else (setFld h1 pg Fld.HDR.LOCK_LEVEL lvl, [])

/-- The register write of LOCK: an F-class write that sets LEVEL to 0x2 is logged with CLASS_WRITE, also where LEVEL is
0x2 and LOCKED would follow (R95, Table PAG-9). -/
def lockRegWrite (h : Hub) (o : Origin) (pg v : Nat) : Hub :=
  if pageExists pg && clsOf o == .f && bits v 0 2 == 2 then accErr h .classWrite (regAccess o pg 0x040) true
  else guardedK h o pg 0x040 v (fun h => lockWrite h o pg v)

/-- A write of OWNER (R93, R106). -/
def ownerWrite (h : Hub) (pg v : Nat) : Hub :=
  let h1 := setFld h pg Fld.HDR.OWNER_BAY (bits v 0 6)
  let h2 := setFld h1 pg Fld.HDR.OWNER_VALID (bits v 6 1)
  afterRouteWrite h (setFld h2 pg Fld.HDR.OWNER_SHARED_RD (bits v 7 1)) pg

/-- Writing 1 to ACCERR.VALID clears 0x100 to 0x10C (Table PAG-8). -/
def accerrClear (h : Hub) : Hub :=
  ([Fld.PAG.ACCERR_PAGE, Fld.PAG.ACCERR_OFFSET, Fld.PAG.ACCERR_WIN, Fld.PAG.ACCERR_WRITE, Fld.PAG.ACCERR_KIND,
    Fld.PAG.ACCERR_CLASS, Fld.PAG.ACCERR_ORIGIN, Fld.PAG.ACCERR_BE, Fld.PAG.ACCERR_VALID, Fld.PAG.ACCERR_MORE,
    Fld.PAG.ACCERR_TIME_LO, Fld.PAG.ACCERR_TIME_HI] : List FieldDef).foldl (fun h f => setFld h pPAG f 0) h

/-- CCTL.CLEAR sets the eight counts of a page to zero (R371). -/
def countersClear (h : Hub) (pg : Nat) : Hub :=
  ([0, 1, 2, 3, 4, 5, 6, 7] : List Nat).foldl (fun h k => setCval h pg k 0) h

/-! ### The MSI-X table and the PBA (R478) -/

/-- The pending bits of an H function in one DW of its PBA. -/
def pbaWord (h : Hub) (b i : Nat) : Nat :=
  ((List.range 32).filter (fun j => h.port.pba.contains (b * 2048 + 32 * i + j))).foldl (fun acc j => acc + 2 ^ j) 0

/-- Send what a cleared mask lets go: a pending entry whose mask and function mask are clear (PCIe 6.2). -/
def msixRelease (h : Hub) (b i : Nat) : Hub :=
  if h.port.pba.contains (b * 2048 + i) && !(bayRt h b).funcMask && !bit (msixDw h b i 3) 0 && (bayRt h b).msixEn then
    msixSend { h with port := { h.port with pba := h.port.pba.filter (· != b * 2048 + i) } } b i
  else h

/-- Release every pending entry of an H function. -/
def msixReleaseAll (h : Hub) (b : Nat) : Hub :=
  ((h.port.pba.filter (fun k => k / 2048 == b)).map (· % 2048)).foldl (fun h i => msixRelease h b i) h

/-- Write a DW of an MSI-X entry; only the mask bit of the vector control DW is writable. -/
def msixWrite (h : Hub) (b i dw v : Nat) : Hub :=
  let v' := if dw = 3 then v % 2 else if dw = 0 then v / 4 * 4 else v
  msixRelease { h with port := { h.port with
    msix := mapSet h.port.msix ((b * 2048 + i) * 4 + dw) v' (if dw = 3 then 1 else 0) } } b i

/-- The byte at an offset of BAR0 from 0x20_0000 on: the MSI-X table, the PBA, zero elsewhere (R85). -/
def barByte (h : Hub) (b o : Nat) : Nat :=
  if o < 0x8000 then msixDw h b (o / 16) (o % 16 / 4) / 2 ^ (8 * (o % 4)) % 256
  else if 0x10000 ≤ o && o < 0x10100 then pbaWord h b ((o - 0x10000) / 4) / 2 ^ (8 * (o % 4)) % 256
  else 0

/-- The offset of an access from 0x20_0000 of BAR0. -/
def barOff (a : Access) : Nat := (a.page - 512) * 4096 + a.off

/-- A read there returns the addressed bytes, whatever its shape, the other byte lanes zero (R85, R478); nothing is
logged. -/
def barRead (h : Hub) (a : Access) : Nat :=
  match a.origin with
  | .hostH b => lanes a (fun k => barByte h b.val (barOff a + k))
  | _ => 0

/-- A write there: an aligned DW or QW of the MSI-X table, the QW in one hc; any other is dropped (R85, R478). -/
def barWrite (h : Hub) (a : Access) (v : Nat) : Hub :=
  match a.origin with
  | .hostH b =>
    let o := barOff a
    let dw := fun (h : Hub) (o v : Nat) => msixWrite h b.val (o / 16) (o % 16 / 4) v
    if !a.contig || 0x8000 ≤ o then h
    else if a.nbytes = 4 && o % 4 = 0 then dw h o v
    else if a.nbytes = 8 && o % 8 = 0 then dw (dw h o (v % 2 ^ 32)) (o + 4) (v / 2 ^ 32)
    else h
  | _ => h

/-! ### PERFWIN (R376, R377) -/

/-- The word of a PERFWIN page: the mirror of the counter area, the identification and HTIME (Table CNT-5). -/
def perfWord (h : Hub) (pg off : Nat) : Nat :=
  if off = 0x000 || off = 0x004 || (0x080 ≤ off && off < 0x100) then wordAs h .z pg off
  else if off = 0x008 then h.htime % 2 ^ 32
  else if off = 0x00C then h.htime / 2 ^ 32
  else 0

/-- A read of PERFWIN is served: at internal addresses always, through BAR4 by grant and owner (R377). -/
def perfServed (h : Hub) (o : Origin) (pg : Nat) : Bool :=
  match o with
  | .zhozha => true
  | .core _ => true
  | .hostH b => flag h pg Fld.HDR.CCTL_USER_EN && !flag h pg Fld.HDR.CCTL_USER_DENY &&
      flag h pg Fld.HDR.OWNER_VALID && fld h pg Fld.HDR.OWNER_BAY == b.val
  | .hostU b => flag h pg Fld.HDR.CCTL_USER_EN && !flag h pg Fld.HDR.CCTL_USER_DENY &&
      flag h pg Fld.HDR.OWNER_VALID && fld h pg Fld.HDR.OWNER_BAY == b.val

/-- One DW, or part of one, of a PERFWIN read, with the latch of the 64-bit registers (R99, R100); nothing clears. For the
latch a register of PERFWIN is another one than the REGWIN register it mirrors: its pages count from 0x200 (DESIGN CHOICE,
log entry 60). -/
def perfPart (h : Hub) (o : Origin) (pg off n : Nat) : Nat × Hub :=
  let dw := off / 4 * 4
  let v := perfWord h pg dw
  if n != 4 then (bits v (8 * (off - dw)) (8 * n), h)
  else if dw = 0x008 || (0x0A0 ≤ dw && dw < 0x0E0 && dw % 8 == 0) then
    (v, latchArm h o (0x200 + pg) dw (perfWord h pg (dw + 4)) false)
  else if dw = 0x00C || (0x0A0 ≤ dw && dw < 0x0E0 && dw % 8 == 4) then
    match latchOf h o with
    | some l =>
      if l.page = 0x200 + pg && l.off = dw - 4 then
        if h.htime - l.time < 1024 then (l.value, latchDrop h o) else (v, latchLose h o)
      else (v, h)
    | none => (v, h)
  else (v, h)

/-- The parts of a PERFWIN read. -/
def perfParts (h : Hub) (o : Origin) (pg : Nat) : List (Nat × Nat) → Nat × Hub
  | [] => (0, h)
  | (off, n) :: t =>
    let (v, h1) := perfPart h o pg off n
    let (rest, h2) := perfParts (if t.isEmpty then h1 else advance h1 1) o pg t
    (v + 2 ^ (8 * n) * rest, h2)

/-- A read of PERFWIN (R97, R376, R377, R476). -/
def readPerfwin (h : Hub) (a : Access) : Nat × Hub :=
  if !pageExists a.page then (lanes a (fun _ => 0xFF), accErr h .noPage a false)
  else if unaligned a then (lanes a (fun _ => 0xFF), accErr h .unalignedRead a false)
  else if !perfServed h a.origin a.page then (0, accErr h .classRead a false)
  else if a.nbytes = 8 && (a.off = 0x008 || (0x0A0 ≤ a.off && a.off < 0x0E0)) then
    (perfWord h a.page a.off + 2 ^ 32 * perfWord h a.page (a.off + 4), h)
  else perfParts h a.origin a.page (dwParts (a.nbytes + 1) a.off a.nbytes)

end Sys2Proof.Machine
end

