-- ==== Sys2Proof/Machine/PortCmd.lean ====
section
/-! DEFINITION. Meanings of the rows of the register port that touch no block: interrupt registers, error logs, LOCK,
OWNER, latches and stages, the MSI-X table, PERFWIN. -/

namespace Sys2Proof.Machine

/-- What a command answers. -/
abbrev Res := Host.Outcome State Fault Refusal

/-- LATCH_EXPIRY (R101): at 1,024 hc an unconsumed latch expires. -/
def execLatchExpiry (o : Origin) (s : State) : Res :=
  .next (s.onHub fun h =>
    match latchOf h o with
    | some l => latchLose (advanceTo h (l.time + 1024)) o
    | none => h)

/-- STAGE_EXPIRED (R102): at 1,024 hc a staged low half is discarded and logged. -/
def execStageExpired (o : Origin) (s : State) : Res :=
  .next (s.onHub fun h =>
    match stageOf h o with
    | some t => stageLose (advanceTo h (t.time + 1024)) o
    | none => h)

/-- IFORCE_WRITE (R105). -/
def execIforceWrite (o : Origin) (page : Nat) (v : Word) (s : State) : Res :=
  .next (s.onHub fun h => guarded h o page 0x020 v.toNat (fun h => iforce h page v.toNat))

/-- A write of ISTAT or IEN, and what follows it (R106). -/
def irqWrite (h : Hub) (o : Origin) (pg off v : Nat) : Hub :=
  fieldWrite h o pg off v false (fun h1 =>
    if off = 0x01C && lockRefuses h (clsOf o) pg then h1 else afterIrqWrite h h1 pg)

/-- ISTAT_CLEAR (R106): a W1C write to ISTAT, or a write of IEN. -/
def execIstatClear (o : Origin) (page : Nat) (ien : Bool) (v : Word) (s : State) : Res :=
  .next (s.onHub fun h => irqWrite h o page (if ien then 0x01C else 0x018) v.toNat)

/-- A write of ERRLOG_A (R108). LOCK does not refuse it: VALID is W1C (R94). -/
def errlogWrite (h : Hub) (o : Origin) (pg v : Nat) : Hub :=
  fieldWrite h o pg 0x024 v false (fun h => if bit v 0 then errlogClear h pg else h)

/-- ERRLOG_CLEAR (R108). -/
def execErrlogClear (o : Origin) (page : Nat) (s : State) : Res := .next (s.onHub fun h => errlogWrite h o page 1)

/-- A write of the high half of ACCERR (R110): an error logged by the write itself is captured afresh. -/
def accerrWrite (h : Hub) (o : Origin) (v : Nat) : Hub :=
  fieldWrite h o pPAG 0x104 v false (fun h => if bit v 20 then accerrClear h else h)

/-- ACCERR_CLEAR (R110). -/
def execAccerrClear (o : Origin) (s : State) : Res := .next (s.onHub fun h => accerrWrite h o (2 ^ 20))

/-- LOCK_WRITE (R95). -/
def execLockWrite (o : Origin) (page : Nat) (v : Word) (s : State) : Res :=
  .next (s.onHub fun h => lockRegWrite h o page v.toNat)

/-- OWNER_WRITE (R93). -/
def execOwnerWrite (o : Origin) (page : Nat) (v : Word) (s : State) : Res :=
  .next (s.onHub fun h => guarded h o page 0x044 v.toNat (fun h => ownerWrite h page v.toNat))

/-- MSIX_TABLE_ACCESS (R478). The table and the PBA are reached while Memory Space Enable is set (R87). -/
def execMsixTableAccess (m : MsixAccess) (s : State) : Res :=
  .next (s.onHub fun h =>
    if !(bayRt h m.bay.val).memSpaceEn then h
    else
      match m.write with
      | some v => if m.pba then h else msixWrite h m.bay.val (m.i % 2048) m.dw.val v.toNat
      | none =>
        emit h (.readData (.hostH m.bay)
          (if m.pba then pbaWord h m.bay.val (m.i % 64) else msixDw h m.bay.val (m.i % 2048) m.dw.val)))

/-- PERFWIN_READ (R377). -/
def execPerfwinRead (o : Origin) (page off nbytes : Nat) (s : State) : Res :=
  .next (s.onHub fun h =>
    if !decodes h o then h
    else
      let (v, h1) := readPerfwin h
        { origin := o, win := .perfwin, page := page, off := off, nbytes := nbytes, gaps := [] }
      emit h1 (.readData o v))

/-- COUNTER_CLEAR (R371). -/
def execCounterClear (o : Origin) (page : Nat) (s : State) : Res :=
  .next (s.onHub fun h => guarded h o page 0x0E0 (wordAs h .z page 0x0E0 ||| 2) (fun h => countersClear h page))

end Sys2Proof.Machine
end

