-- ==== Sys2Proof/Machine/Queues.lean ====
section
/-! DEFINITION. Queue pairs: assignment (R275), doorbell pages (R276 to R279), SQ entries and their limits (R285 to R288),
reach handles (R289, R290), acceptance (R283, R284, R439, R440) and retirement (R296 to R299). -/

namespace Sys2Proof.Machine

/-! ### State of queues and ops -/

/-- Change a queue. -/
def modQueue (h : Hub) (q : Nat) (f : Queue → Queue) : Hub :=
  { h with mov := { h.mov with queues := mapSet h.mov.queues q (f (queue h q)) .reset } }

/-- The op that holds a token. -/
def opOf (h : Hub) (tok : Nat) : Option Op := mapGet? h.mov.toks tok

/-- Store the op that holds a token. -/
def putOp (h : Hub) (tok : Nat) (o : Op) : Hub := { h with mov := { h.mov with toks := mapPut h.mov.toks tok o } }

/-- Change the op that holds a token. -/
def modOp (h : Hub) (tok : Nat) (f : Op → Op) : Hub :=
  match opOf h tok with
  | some o => putOp h tok (f o)
  | none => h

/-- The ops of a queue, by token. -/
def opsOf (h : Hub) (q : Nat) : List (Nat × Op) := h.mov.toks.filter (fun t => t.2.q == q)

/-- Queues 0 to 63 are management queues (R274). -/
def mgmtQueue (q : Nat) : Bool := q < 64

/-- Owner code of a queue: its bay, or 0x3F for Chakacon (R282, R289). -/
def ownerCode (x : Queue) : Nat := if x.int then 0x3F else x.bay

/-- a - b on free-running 32-bit counts. -/
def sub32 (a b : Nat) : Nat := (a + 2 ^ 32 - b % 2 ^ 32) % 2 ^ 32

/-! ### Assignment and doorbells -/

/-- A write of QASSIGN to the queue QSEL names (R275). -/
def qassign (h : Hub) (v : Nat) : Hub × List AccKind :=
  let q := fld h pQCTL Fld.QCTL.QSEL
  let x := queue h q
  let free := x.st == .unassigned || x.st == .idle || x.st == .stopped
  if !free || !(opsOf h q).isEmpty then (h, [.stateRefused])
  else if bit v 7 then
    (modQueue h q (fun x => { x with bay := bits v 0 6, int := bit v 6, st := if x.st = .unassigned then .idle else x.st }), [])
  else (modQueue h q (fun x => { x with bay := bits v 0 6, int := bit v 6, st := .unassigned }), [])

/-- The origin may write and read the queue's DBWIN page (R276). An UNASSIGNED queue has no owner (DEDUCED, log entry 94). -/
def ringsQueue (h : Hub) (o : Origin) (q : Nat) : Bool :=
  let x := queue h q
  x.st != .unassigned && (match o with
    | .zhozha => x.int
    | .core _ => x.int
    | .hostH b => !x.int && b.val == x.bay
    | .hostU b => !x.int && b.val == x.bay)

/-- A write of a 64-byte unit to a DBWIN page. -/
def dbAccess (o : Origin) (q off : Nat) : Access :=
  { origin := o, win := .dbwin, page := q, off := off, nbytes := 64, gaps := [] }

/-- A queue stops with a cause. -/
def queueStopped (h : Hub) (q cause : Nat) : Hub :=
  setIstat (modQueue h q (fun x => { x with st := .stopped, cause := cause })) pQCTL 2

/-- A doorbell unit or a push is logged and counted (R277, R279). -/
def dbError (h : Hub) (o : Origin) (q code first4 : Nat) : Hub :=
  let h := errlogAs h pQCTL code (clsOf o).code (originCode o) q first4
  setIstat (bump h pQCTL Fld.QCTL.DB_ERR_CNT) pQCTL 0

/-- The ring bases are aligned to their ring sizes and the depths lie in range (R278, R281). -/
def ringsOk (sqLog2 cqLog2 sqBase cqBase : Nat) : Bool :=
  4 ≤ sqLog2 && sqLog2 ≤ 16 && 4 ≤ cqLog2 && cqLog2 ≤ 16 && sqBase % (64 * 2 ^ sqLog2) == 0 && cqBase % (32 * 2 ^ cqLog2) == 0

/-- A doorbell unit reaches its queue (R276 to R278). -/
def doorbell (h : Hub) (o : Origin) (q : Nat) (u : DbUnit) : Hub :=
  let x := queue h q
  let broken := fun (h : Hub) => dbError (queueStopped h q 0x1D) o q 1 u.first4
  if 16384 ≤ q || !decodes h o then h
  else if !ringsQueue h o q then accErr h .classWrite (dbAccess o q 0) true
  else if u.setup then
    if mgmtQueue q && (x.st == .idle || x.st == .stopped) && (opsOf h q).isEmpty && u.zeroOk &&
        ringsOk u.sqLog2 u.cqLog2 u.sqBase u.cqBase && u.vector < 2048 then
      modQueue h q (fun x => { x with st := .enabled, cause := 0, sqBase := u.sqBase, cqBase := u.cqBase,
                                      sqLog2 := u.sqLog2, cqLog2 := u.cqLog2, vector := u.vector, accept := 0,
                                      complete := 0, tail := 0, head := 0, pushed := [] })
    else broken h
  else if x.st != .enabled then h
  else
    let sqOk := !u.sqValid || (sub32 x.tail x.accept ≤ sub32 u.sqTail x.accept && sub32 u.sqTail x.accept ≤ 2 ^ x.sqLog2)
    let cqOk := !u.cqValid || (sub32 u.cqHead x.head ≤ sub32 x.complete x.head)
    if !u.zeroOk || !sqOk || !cqOk then broken h
    else modQueue h q (fun x => { x with tail := if u.sqValid then u.sqTail % 2 ^ 32 else x.tail,
                                         head := if u.cqValid then u.cqHead % 2 ^ 32 else x.head })

/-- A descriptor push (R279). -/
def push (h : Hub) (o : Origin) (q : Nat) (e : BitVec 512) : Hub :=
  let x := queue h q
  if 16384 ≤ q || !decodes h o then h
  else if !ringsQueue h o q then accErr h .classWrite (dbAccess o q 0x40) true
  else if x.st != .enabled then h
  else if 2 ^ x.sqLog2 ≤ sub32 x.tail x.accept || 4 ≤ x.pushed.length then dbError h o q 2 (e.toNat % 2 ^ 32)
  else modQueue h q (fun x => { x with pushed := x.pushed ++ [(x.tail, e)], tail := (x.tail + 1) % 2 ^ 32 })

/-! ### SQ entries (Tables MOV-4 to MOV-6) -/

/-- n bytes of an SQ entry from byte i, as a number. -/
def eB (e : BitVec 512) (i n : Nat) : Nat := bits e.toNat (8 * i) (8 * n)

/-- Opcode of an entry. -/
def eOpc (e : BitVec 512) : Nat := eB e 0 1

/-- FLAGS bits of an entry: FENCE, DURABLE, IRQ. -/
def eFence (e : BitVec 512) : Bool := bit (eB e 1 1) 0
def eDurable (e : BitVec 512) : Bool := bit (eB e 1 1) 1
def eIrq (e : BitVec 512) : Bool := bit (eB e 1 1) 2

/-- LEN of a work entry. -/
def eLen (e : BitVec 512) : Nat := eB e 8 8

/-- An operand. -/
structure Opd where
  addr   : Nat
  handle : Nat
  kind   : Nat
  zeros  : Nat
  deriving DecidableEq, Repr

/-- The operand at byte i. -/
def opdAt (e : BitVec 512) (i : Nat) : Opd :=
  { addr := eB e i 8, handle := eB e (i + 8) 4, kind := eB e (i + 12) 1, zeros := eB e (i + 13) 3 }

/-- SRC and DST. -/
def eSrc (e : BitVec 512) : Opd := opdAt e 16
def eDst (e : BitVec 512) : Opd := opdAt e 32

/-- A command marked durable in Table MOV-6. -/
def durableCmd (opc : Nat) : Bool := 0x41 ≤ opc && opc ≤ 0x44

/-- An entry of durable class (R284). -/
def durableClass (q : Nat) (e : BitVec 512) : Bool := eDurable e || (mgmtQueue q && durableCmd (eOpc e))

/-- Two byte ranges overlap. -/
def overlaps (a b n : Nat) : Bool := a < b + n && b < a + n

/-- An operand has a kind of the list, a zero HANDLE where it is host memory, and zeros where R285 has them. A Chakacon queue
has no host operand (R282). -/
def opdOk (int : Bool) (o : Opd) (kinds : List Nat) : Bool :=
  kinds.contains o.kind && o.zeros == 0 && (o.kind != 1 || o.handle == 0) && !(int && o.kind == 1)

/-- Status and DETAIL of a work entry that breaks Tables MOV-4 and MOV-5 (R285, R286, R332); 0 when it is valid. Bytes and bits
that the tables neither name nor mark as zero are not looked at (DEDUCED, log entry 55). -/
def checkWork (int : Bool) (e : BitVec 512) : Nat × Nat :=
  let opc := eOpc e
  let len := eLen e
  let s := eSrc e
  let d := eDst e
  let p := eB e 48 16
  let anyK : List Nat := [1, 2]
  let srcK : List Nat := if opc = 2 || opc = 7 then [0] else if opc = 6 || opc = 8 then [1] else anyK
  let dstK : List Nat := if opc = 4 then [0] else if opc = 5 || opc = 6 then [2]
    else if opc = 7 then (if p % 256 < 2 then [1] else [2]) else anyK
  let al := match opc with
    | 5 => d.addr % 64 == 0 && len % 64 == 0
    | 6 => len % 32 == 0 && s.addr % 32 == 0
    | 8 => s.addr % 4096 == 0 && d.addr % 4096 == 0 && len % 4096 == 0
    | _ => true
  let pOk := match opc with
    | 2 => true
    | 4 => true
    | 5 => true
    | 6 => p % 16 == 0
    | 7 => p % 256 < 4
    | _ => p == 0
  if opc = 0 || 8 < opc then (0x10, 0)
  else if eB e 1 1 / 8 != 0 || eB e 2 2 != 0 then (0x11, 0)
  else if !opdOk int s srcK then (0x11, 1)
  else if !opdOk int d dstK then (0x11, 2)
  else if len = 0 || 2 ^ 30 < len || !al then (0x11, 0)
  else if !pOk then (0x11, 3)
  else if (opc = 1 || opc = 8) && s.kind = d.kind && s.handle = d.handle && overlaps s.addr d.addr len then (0x12, 0)
  else (0, 0)

/-- Status of a management entry that breaks Table MOV-6 or XLT-4 by itself; 0 when it is valid. A Chakacon QUEUE_CREATE
ignores XLT, PASID and VECTOR (R282). -/
def checkMgmt (int : Bool) (e : BitVec 512) : Nat :=
  let opc := eOpc e
  if !(0x40 ≤ opc && opc ≤ 0x45) && !(0x50 ≤ opc && opc ≤ 0x54) then 0x10
  else if eB e 1 1 / 8 != 0 || eB e 2 2 != 0 then 0x11
  else
    let ok := match opc with
      | 0x41 => eB e 8 8 % 64 == 0 && eB e 16 8 % 64 == 0 && eB e 16 8 != 0 && eB e 16 8 ≤ 2 ^ 43 && eB e 24 2 != 0 && eB e 26 1 < 8
      | 0x43 => ringsOk (eB e 10 1) (eB e 11 1) (eB e 16 8) (eB e 24 8) && eB e 12 1 < 8 && eB e 14 1 < 4 &&
          eB e 36 2 != 0 && (int || (eB e 13 1 < 2 && eB e 32 4 < 2 ^ 20 && eB e 38 2 < 2048))
      | 0x45 => eB e 10 1 < 8
      | 0x50 => eB e 8 3 < 2 ^ 20 && eB e 16 8 % 4096 == 0
      | 0x51 => eB e 8 3 < 2 ^ 20 && eB e 11 1 < 2 && eB e 16 8 % 4096 == 0 && eB e 24 8 % 4096 == 0
      | 0x52 => eB e 9 1 < 2
      | 0x53 => 8 ≤ eB e 8 1 && eB e 8 1 ≤ 16 && eB e 10 2 < 2048 && eB e 16 8 % (32 * 2 ^ eB e 8 1) == 0
      | 0x54 => eB e 8 3 < 2 ^ 20
      | _ => true
    if ok then 0 else 0x11

/-! ### Reach handles (R289, R290) -/

/-- Node, index and generation of a handle. -/
def hNode (x : Nat) : Nat := bits x 25 7
def hIdx (x : Nat) : Nat := bits x 5 20
def hGen (x : Nat) : Nat := x % 32

/-- Store a reach entry. -/
def putReach (h : Hub) (i : Nat) (r : Reach) : Hub := { h with mov := { h.mov with reach := mapPut h.mov.reach i r } }

/-- The check of R290 of a range within a handle, for an owner and a CTX, with the permission bits it needs; 0 when it
passes. -/
def handleCheck (h : Hub) (handle owner ctx perm off len : Nat) : Nat :=
  let r := reachOf h (hIdx handle)
  if hNode handle != ownNode h then 0x15
  else if 65536 ≤ hIdx handle || !r.valid then 0x13
  else if hGen handle != r.gen then 0x14
  else if r.bay != owner || r.ctx != ctx || r.perm &&& perm != perm || r.lines * 64 < off + len then 0x16
  else 0

/-- First line of a byte of a handle's range. -/
def handleByte (h : Hub) (handle off : Nat) : Nat := (reachOf h (hIdx handle)).base * 64 + off

/-- The TPA lines that a host physical range maps to through one decoder of a bay (R289), as the first line. -/
def resolveHpa (h : Hub) (bay hpaLine lines : Nat) : Option Nat :=
  (hdmDecs h bay).findSome? (fun d =>
    if hpaLine + lines ≤ d.hpa + d.lines &&
        (d.ways == 1 || (hpaLine - d.hpa) / d.gran == (hpaLine + lines - 1 - d.hpa) / d.gran) then d.line? hpaLine
    else none)

/-- Base of the cores' internal pool window (R282). -/
def poolWindow : Nat := 0x0004000000000000

/-- The lines that a Chakacon REACH_CREATE names (R282). -/
def resolveInternal (h : Hub) (addr lines : Nat) : Option Nat :=
  if addr < poolWindow || poolWindow + 2 ^ 46 < addr + 64 * lines then none
  else
    let first := (addr - poolWindow) / 64
    let gs := (List.range ((first % 2 ^ 24 + lines + 2 ^ 24 - 1) / 2 ^ 24)).map (· + first / 2 ^ 24)
    if gs.all (fun g => (homeEntry h g).valid) then some first else none

/-- The lowest free reach index (R289, R291). -/
def freeReach : Nat → List (Nat × Reach) → Nat → Option Nat
  | 0, _, _ => none
  | fuel + 1, l, i =>
    match l with
    | [] => some i
    | (k, r) :: t => if i < k then some i else if r.valid || r.retired then freeReach fuel t (i + 1) else some i

/-! ### Acceptance -/

/-- The ring slot of the next sequence is free (R439). -/
def ringFree439 (h : Hub) : Bool :=
  match mapGet? h.scb.ring (nextScbSeq h % 65536) with
  | some r => r.done
  | none => true

/-- The mode accepts the entry (R283, R449): SERVE without BRACE, or DRAIN; in BRACE a management command that is not of
durable class. -/
def modeAccepts (h : Hub) (q : Nat) (e : BitVec 512) : Bool :=
  !h.mode.toMaintain && !flag h pCLK Fld.CLK.STAT_HOLDOVER &&
    (h.mode.mode == .drain || (h.mode.mode == .serve && (!h.mode.brace || (mgmtQueue q && !durableClass q e))))

/-- The conditions of R283 that the queue itself gives. -/
def queueReady (x : Queue) : Bool :=
  x.st == .enabled && x.accept != x.tail && sub32 x.accept x.head < 2 ^ x.cqLog2

/-- Address of the SQ entry at ACCEPT_IDX. -/
def sqAddr (x : Queue) : Nat := x.sqBase + x.accept % 2 ^ x.sqLog2 * 64

/-- The entry at ACCEPT_IDX where the hub holds it: pushed, or in management SRAM. -/
def heldEntry (ram : List Host.Cell) (x : Queue) : Option (BitVec 512) :=
  match x.pushed.find? (fun p => p.1 == x.accept) with
  | some p => some p.2
  | none =>
    if x.int then
      some (BitVec.ofNat 512 (ofLeBytes ((List.range 64).map (fun i => (ramGet ram (sqAddr x + i)).toNat))))
    else none

/-- The queue comes before q in the round of the accept engine. -/
def soonerThan (turn a q : Nat) : Bool := (a + 16384 - turn - 1) % 16384 < (q + 16384 - turn - 1) % 16384

/-- Another queue whose entry the hub holds and may accept comes first in the round (R283). -/
def turnOther (h : Hub) (ram : List Host.Cell) (q : Nat) : Bool :=
  h.mov.queues.any (fun x => x.1 != q && soonerThan h.mov.turn x.1 q && queueReady x.2 &&
    (match heldEntry ram x.2 with
    | some e => modeAccepts h x.1 e && !(durableClass x.1 e && durBlocked h)
    | none => false))

/-- The lowest free token (R283). -/
def freeTok : Nat → List (Nat × Op) → Nat → Option Nat
  | 0, _, _ => none
  | fuel + 1, l, i =>
    match l with
    | [] => some i
    | (k, _) :: t => if i < k then some i else freeTok fuel t (i + 1)

/-- Number of tiles of an op (R293): an ATOMIC_BATCH item is one tile, an ADVISE has pages or none. -/
def tileCount (e : BitVec 512) : Nat :=
  let b := if eOpc e = 4 then (eSrc e).addr else (eDst e).addr
  match eOpc e with
  | 6 => eLen e / 32
  | 7 => if eB e 48 1 = 0 then ((eDst e).addr % 4096 + eLen e + 4095) / 4096 else 0
  | _ => (b % 4096 + eLen e + 4095) / 4096

/-- Earlier ops of the queue are outstanding (FENCE). -/
def earlierOut (h : Hub) (o : Op) : Bool := (opsOf h o.q).any (fun t => t.2.seq != o.seq && sub32 t.2.sqIdx o.sqIdx ≥ 2 ^ 31)

/-- An op joins its group's dispatch queue (R292). -/
def joinDispatch (h : Hub) (tok : Nat) : Hub :=
  modOp { h with mov := { h.mov with dq := h.mov.dq ++ [tok] } } tok (fun o => { o with st := .queued })

/-- FENCE ops whose earlier ops have retired join the dispatch queue (R292). -/
def fencePump (h : Hub) (q : Nat) : Hub :=
  (opsOf h q).foldl (fun h t => if t.2.st == .fence && !earlierOut h t.2 then joinDispatch h t.1 else h) h

/-- The head of a group's dispatch queue. -/
def groupHead (h : Hub) (g : Nat) : Option Nat :=
  h.mov.dq.find? (fun t => match opOf h t with
    | some o => (queue h o.q).group == g
    | none => false)

/-- A mover of the group is enabled. -/
def groupEnabled (h : Hub) (g : Nat) : Bool := (List.range 8).any (fun i => flag h (pMOV (8 * g + i)) Fld.MOV.CTL_EN)

/-- NO_MOVER sets as the head op of a group begins to wait for want of an enabled mover (R292). -/
def noMoverCheck (h : Hub) : Hub :=
  ([0, 1, 2, 3] : List Nat).foldl (fun h g =>
    let waits := (groupHead h g).isSome && !groupEnabled h g && domState h (12 + g) == 0
    if waits && !h.mov.noMover.contains g then
      setIstat { h with mov := { h.mov with noMover := g :: h.mov.noMover } } pQCTL 5
    else if !waits then { h with mov := { h.mov with noMover := h.mov.noMover.filter (· != g) } }
    else h) h

/-- An op ends with a status; its completion is then posted by OP_COMPLETION. -/
def opEnds (h : Hub) (tok status result detail : Nat) : Hub :=
  modOp { h with mov := { h.mov with dq := h.mov.dq.filter (· != tok) } } tok
    (fun o => { o with st := .done, status := status, result := result, detail := detail })

/-- Acceptance of an entry (R283): a token, the Scorebook record (R437 to R440), ACCEPT_IDX; then validation. -/
def accept (h : Hub) (q tok : Nat) (e : BitVec 512) : Hub :=
  let x := queue h q
  let seq := nextScbSeq h
  let dur := durableClass q e
  let rec' : RingRec := { seq := seq, queue := q, sqIdx := x.accept, opc := eOpc e, status := 0, owner := x.bay,
                          int := x.int, done := false, durable := dur, noCqe := false, committed := false,
                          userTag := eB e 4 4, ecrc := crc32c (leBytes 64 e.toNat), time := h.htime }
  let h := { h with scb := { h.scb with issued := h.scb.issued + 1, ring := mapPut h.scb.ring (seq % 65536) rec',
                                        accepts := if dur then h.scb.accepts ++ [seq] else h.scb.accepts } }
  let (st, det) := if mgmtQueue q then (checkMgmt x.int e, 0) else checkWork x.int e
  let o : Op := { q := q, sqIdx := x.accept, seq := seq, entry := e, durable := dur,
                  st := if st != 0 then .done else if mgmtQueue q then .mgmt else .fence,
                  status := st, result := 0, detail := det, next := 0, total := if mgmtQueue q then 0 else tileCount e,
                  flight := [], tilesDone := 0, pfNext := 0, fail := none, poisonAt := none, diffAt := none,
                  crc := (eB e 48 4) ^^^ 0xFFFFFFFF, crcNext := 0, kept := [], items := 0, itemErr := false,
                  aborted := false, inval := false, begun := false }
  let h := putOp h tok o
  let h := modQueue h q (fun x => { x with accept := (x.accept + 1) % 2 ^ 32, pushed := x.pushed.filter (fun p => p.1 != x.accept) })
  let h := { h with mov := { h.mov with turn := q, durWait := h.mov.durWait.filter (· != q) } }
  let h := bump h pQCTL Fld.QCTL.ACCEPT_CNT
  let h := if 1024 ≤ tokensHeld h then setIstat h pQCTL 1 else h
  if o.st != .fence then h
  else if eFence e && earlierOut h o then h
  else noMoverCheck (joinDispatch h tok)

/-! ### Retirement (R296, R297, R299) -/

/-- The ring record of an op takes DONE and STATUS; a durable op leaves a note (R439, R440). -/
def recordDone (h : Hub) (o : Op) (noCqe : Bool) : Hub :=
  let x := queue h o.q
  let ring := match mapGet? h.scb.ring (o.seq % 65536) with
    | some r => if r.seq = o.seq then mapPut h.scb.ring (o.seq % 65536) { r with done := true, status := o.status, noCqe := noCqe }
        else h.scb.ring
    | none => h.scb.ring
  let h := { h with scb := { h.scb with ring := ring } }
  if o.durable then
    { h with scb := { h.scb with notes := h.scb.notes ++
      [{ seq := o.seq, status := o.status, owner := ownerCode x, noCqe := noCqe }] } }
  else h

/-- A waiter belongs to an op. -/
def Waiter.ofTok (tok : Nat) : Waiter → Bool
  | .op t _ => t == tok
  | .cq t => t == tok
  | .advise t => t == tok
  | .sq _ => false

/-- The waiters for which a test holds lose their fault entries and their turn; their translations in flight are
cancelled (R321, R328). A fault entry nobody waits for frees. -/
def forget (h : Hub) (p : Waiter → Bool) : Hub :=
  let keep := fun (f : FaultE) => { f with waiters := f.waiters.filter (fun w => !p w) }
  { h with xlt := { h.xlt with
      slots := h.xlt.slots.map (fun s => (s.1, if p s.2.who then { s.2 with cancelled := true } else s.2)),
      faults := (h.xlt.faults.map (fun f => (f.1, keep f.2))).filter (fun f => !f.2.waiters.isEmpty),
      fullWait := h.xlt.fullWait.filter (fun w => !p w) } }

/-- A queue that is DESTROYING with no op left is IDLE (R298). -/
def destroyCheck (h : Hub) (q : Nat) : Hub :=
  if (queue h q).st == .destroying && (opsOf h q).isEmpty then modQueue h q (fun x => { x with st := .idle, cause := 0 })
  else h

/-- An op retires: its record, COMPLETE_IDX, its token, its hold, what waited on it. -/
def opRetire (h : Hub) (tok : Nat) (o : Op) (noCqe : Bool) : Hub :=
  let h := recordDone h o noCqe
  let h := modQueue h o.q (fun x => { x with complete := (x.complete + 1) % 2 ^ 32 })
  let h := { h with mov := { h.mov with toks := mapDel h.mov.toks tok, dq := h.mov.dq.filter (· != tok) } }
  let holds := if noCqe then h.xlt.holds.filter (fun x => !(x.2.tok == tok && x.2.posted.isNone))
    else h.xlt.holds.map (fun x => (x.1, if x.2.tok = tok && x.2.posted.isNone then { x.2 with posted := some h.htime } else x.2))
  let h := { h with xlt := { h.xlt with holds := holds } }
  let h := { h with coh := { h.coh with mres := h.coh.mres.filter (fun r => r.tok != tok) } }
  destroyCheck (fencePump (forget h (Waiter.ofTok tok)) o.q) o.q

/-- A completion counts as an error (R300, R302). -/
def errCount (h : Hub) (status : Nat) : Hub :=
  if 0x10 ≤ status then setIstat (bump h pQCTL Fld.QCTL.ERR_CPL_CNT) pQCTL 3 else h

/-- Bytes of a CQ entry (Table MOV-8). -/
def cqBytes (x : Queue) (o : Op) : List Nat :=
  leBytes 4 (eB o.entry 4 4) ++ leBytes 4 o.sqIdx ++ leBytes 8 o.result ++ leBytes 6 o.seq ++ [0, 0] ++ [o.status, o.detail] ++
    List.replicate 5 0 ++ [1 - x.complete / 2 ^ x.cqLog2 % 2]

/-- Address of the CQ slot at COMPLETE_IDX. -/
def cqAddr (x : Queue) : Nat := x.cqBase + x.complete % 2 ^ x.cqLog2 * 32

/-- The signal of a completion with FLAGS[2] set (R282, R296). -/
def cqSignal (h : Hub) (x : Queue) (o : Op) : Hub :=
  if !eIrq o.entry then h
  else if x.int then setIstat h pQCTL 4
  else msixSend h x.bay x.vector

/-- A CQ write has failed: the queue stops and the completion retires without an entry (R297). -/
def cqFailed (h : Hub) (tok : Nat) (o : Op) : Hub := errCount (opRetire (queueStopped h o.q 0x18) tok o true) o.status

end Sys2Proof.Machine
end

