-- ==== Sys2Proof/Machine/Xlt.lean ====
section
/-! DEFINITION. Translation for movers: the TLBs (R306 to R309), lookups and slots (R310 to R315), mirror walks (R316,
R317), faults (R322 to R326), invalidation (R329, R330), migration holds (R333). -/

namespace Sys2Proof.Machine

/-! ### TLB entries (R307, R308) -/

/-- log2 of a page size code. -/
def sizeLog : Nat → Nat
  | 0 => 12 | 1 => 21 | _ => 30

/-- VA of the block a VA lies in. -/
def blockVa (size va : Nat) : Nat := va / 2 ^ (sizeLog size + 4) * 2 ^ (sizeLog size + 4)

/-- Index of a VA's page within its block. -/
def pageOf (size va : Nat) : Nat := va / 2 ^ sizeLog size % 16

/-- The entry covers the VA for a key: same block and the page present. -/
def TlbEnt.covers (e : TlbEnt) (bay pasid va : Nat) : Bool :=
  e.bay == bay && e.pasid == pasid && e.va == blockVa e.size va && bit e.present (pageOf e.size va)

/-- Physical address of a VA that the entry covers. -/
def TlbEnt.phys (e : TlbEnt) (va : Nat) : Nat := (e.pa + (va - e.va)) % 2 ^ 64

/-- L2 set of a key and VA at a size (R308). -/
def l2Index (bay pasid size va : Nat) : Nat :=
  crc32c (leBytes 3 pasid ++ [bay] ++ leBytes 8 (va / 2 ^ (sizeLog size + 4))) % 2048

/-- A set of the L2 TLB. -/
def l2Set (h : Hub) (i : Nat) : TlbSet := mapGet h.xlt.l2 i { ways := [], plru := 0 }

/-- Store a set of the L2 TLB. -/
def putL2 (h : Hub) (i : Nat) (s : TlbSet) : Hub :=
  { h with xlt := { h.xlt with l2 := mapSet h.xlt.l2 i s { ways := [], plru := 0 } } }

/-- The uTLB of a mover. -/
def utlb (h : Hub) (m : Nat) : List TlbEnt := mapGet h.xlt.utlb m []

/-- Store the uTLB of a mover, at most 64 entries, the least recently used falling out (R306). -/
def putUtlb (h : Hub) (m : Nat) (l : List TlbEnt) : Hub :=
  { h with xlt := { h.xlt with utlb := mapSet h.xlt.utlb m (l.take 64) [] } }

/-- Two entries are of one block. -/
def sameBlock (a b : TlbEnt) : Bool := a.bay == b.bay && a.pasid == b.pasid && a.size == b.size && a.va == b.va

/-- A new translation meets the entry of its block: it merges where physical base, permission and UNTR agree, and
otherwise replaces the entry (R307). -/
def mergeEnt (old new : TlbEnt) : TlbEnt :=
  if old.pa = new.pa && old.write = new.write && old.untr = new.untr then
    { old with present := old.present ||| new.present, pf := old.pf ||| new.pf }
  else new

/-- Install in a uTLB. -/
def installU (h : Hub) (m : Nat) (e : TlbEnt) : Hub :=
  let l := utlb h m
  match l.find? (sameBlock e) with
  | some o => putUtlb h m (mergeEnt o e :: l.filter (fun x => !sameBlock e x))
  | none => putUtlb h m (e :: l)

/-- Install in the L2 TLB: the block's way, a free way, or the tree's victim. -/
def installL2 (h : Hub) (e : TlbEnt) : Hub :=
  let i := l2Index e.bay e.pasid e.size e.va
  let s := l2Set h i
  let used := s.ways.map (·.1)
  let (w, v) := match s.ways.find? (fun x => sameBlock e x.2) with
    | some (w, o) => (w, mergeEnt o e)
    | none => (((List.range 8).find? (fun w => !used.contains w)).getD (plruPick s.plru (List.range 8) 4 1 0 8), e)
  putL2 h i { ways := mapPut s.ways w v, plru := plruTouch 4 1 0 8 w s.plru }

/-- Install a result in the L2 TLB and in the uTLB of the mover that asked (R309); a prefetch marks the pages where it
puts them first. -/
def install (h : Hub) (m : Option Nat) (e : TlbEnt) (prefetch : Bool) : Hub :=
  match m with
  | some m => installU (installL2 h { e with pf := 0 }) m { e with pf := if prefetch then e.present else 0 }
  | none => installL2 h { e with pf := if prefetch then e.present else 0 }

/-- Count the first use of a prefetched page. -/
def usePf (h : Hub) (e : TlbEnt) (va : Nat) : Hub × TlbEnt :=
  let i := pageOf e.size va
  if bit e.pf i then (bump h pXLT Fld.XLT.PF_USE_CNT, { e with pf := e.pf - 2 ^ i }) else (h, e)

/-! ### Lookups -/

/-- What a lookup answers. -/
inductive Look where
  | hit (pa : Nat) (untr : Bool)
  | wait
  | fault
  | unreach
  deriving DecidableEq, Repr

/-- Bits [63:48] of a VA equal bit 47 (R305). -/
def canonical (va : Nat) : Bool := va < 2 ^ 47 || (2 ^ 64 - 2 ^ 47 ≤ va && va < 2 ^ 64)

/-- A physical address falls inside an HDM decoder range of the bay (R304). -/
def inHdm (h : Hub) (bay pa : Nat) : Bool :=
  (hdmDecs h bay).any (fun d => d.hpa ≤ pa / 64 && pa / 64 < d.hpa + d.lines)

/-- A failed fault (R304, R314, R315, R324 to R326, R338). -/
def faultFail (h : Hub) (bay pasid va : Nat) : Hub :=
  let h := bump h pXLT Fld.XLT.FAULT_FAIL_CNT
  setIstat (errlog h pXLT 1 (va % 2 ^ 52) (pasid + 2 ^ 20 * bay)) pXLT 1

/-- A page that a hold covers stalls at lookup, but for the MIGRATE's own source (R333). -/
def heldPage (h : Hub) (bay pasid page : Nat) (own : Nat) : Bool :=
  h.xlt.holds.any (fun x => x.2.tok != own && x.2.bay == bay && x.2.pasid == pasid && x.2.va < page + 4096 && page < x.2.va + x.2.len)

/-- Look up the TLBs: uTLB, then the L2 TLB, which fills the uTLB (Table XLT-2). Demand lookups are counted. -/
def tlbLook (h : Hub) (m : Option Nat) (bay pasid va : Nat) (write demand : Bool) : Option TlbEnt × Hub :=
  let ok := fun (e : TlbEnt) => e.covers bay pasid va && (!write || e.write)
  match m.bind (fun m => (utlb h m).find? ok) with
  | some e =>
    let (h, e') := if demand then usePf h e va else (h, e)
    (some e', match m with
      | some m => putUtlb h m (e' :: (utlb h m).filter (fun x => x != e))
      | none => h)
  | none =>
    let h := if m.isSome then bump h pXLT Fld.XLT.UTLB_MISS_CNT else h
    match ([0, 1, 2] : List Nat).findSome? (fun sz =>
        let i := l2Index bay pasid sz va
        ((l2Set h i).ways.find? (fun x => x.2.size == sz && ok x.2)).map (fun x => (i, x.1, x.2))) with
    | some (i, w, e) =>
      let h := bump h pXLT Fld.XLT.L2_HIT_CNT
      let (h, e') := if demand then usePf h e va else (h, e)
      let s := l2Set h i
      let h := putL2 h i { ways := mapPut s.ways w e', plru := plruTouch 4 1 0 8 w s.plru }
      (some e', match m with
        | some m => installU h m { e' with pf := 0 }
        | none => h)
    | none => (none, bump h pXLT Fld.XLT.L2_MISS_CNT)

/-- The waiter already has this page in flight or at a fault. -/
def inFlight (h : Hub) (w : Waiter) (page : Nat) (write : Bool) : Bool :=
  h.xlt.slots.any (fun s => s.2.who == w && s.2.page == page && s.2.write == write && !s.2.cancelled && s.2.demand) ||
    h.xlt.faults.any (fun f => f.2.waiters.contains w && f.2.va / 4096 * 4096 == page && f.2.write == write) ||
    h.xlt.fullWait.contains w

/-- Free translation slots (R310). -/
def slotsFree (h : Hub) : Nat := 256 - h.xlt.slots.length

/-- The lowest free slot. -/
def freeSlotX : Nat → List (Nat × Xlat) → Nat → Nat
  | 0, _, i => i
  | fuel + 1, l, i =>
    match l with
    | [] => i
    | (k, _) :: t => if i < k then i else freeSlotX fuel t (i + 1)

/-- Store a slot. -/
def putSlot (h : Hub) (i : Nat) (x : Xlat) : Hub := { h with xlt := { h.xlt with slots := mapPut h.xlt.slots i x } }

/-- Free a slot. -/
def dropSlot (h : Hub) (i : Nat) : Hub := { h with xlt := { h.xlt with slots := mapDel h.xlt.slots i } }

/-- The binding of a key. -/
def bindOf (h : Hub) (bay pasid : Nat) : Option Bind := mapGet? h.xlt.binds (bay * 2 ^ 20 + pasid)

/-- Index of a VA at a level of the walk (R316). -/
def walkIdx (level va : Nat) : Nat := va / 2 ^ (12 + 9 * (level - 1)) % 512

/-- Read the table line of a walk: checked under R290 with read permission, RD_CUR under bay code 63 with the binding's
CTX (R315). False when the check or the home fails. -/
def walkRead (h : Hub) (slot : Nat) (x : Xlat) (b : Bind) (prio : Nat) : Hub × Bool :=
  let off := x.off / 64 * 64
  let line := handleByte h b.handle off / 64
  if handleCheck h b.handle x.bay b.ctx 1 off 64 != 0 then (h, false)
  else
    match whereIs h line with
    | .unmapped => (if x.demand then unmappedLog h line 4 (intAgent (ownNode h)) else h, false)
    | .noMedia => (if x.demand then unmappedLog h line 4 (intAgent (ownNode h)) else h, false)
    | _ =>
      (ingressPut (putSlot h slot x) srcInternal 0
        { who := .mover (1024 + slot) x.level, agent := intAgent (ownNode h), op := .rdCur, line := line, poison := false,
          prio := prio, ctx := b.ctx, bob := 0, t0 := h.htime, hops := 31, tag := none } none, true)

/-- Start a translation in a slot: an ATS Translation Request or a walk (R310, R312, R315). -/
def startXlat (h : Hub) (x : Xlat) (prio : Nat) : Hub × Bool :=
  let i := freeSlotX 256 h.xlt.slots 0
  if x.mirror then
    match bindOf h x.bay x.pasid with
    | none => (h, false)
    | some b =>
      let (h, ok) := walkRead h i { x with level := 4, off := b.root + 8 * walkIdx 4 x.page } b prio
      if ok then (bump h pXLT Fld.XLT.WALK_CNT, true) else (h, false)
  else (emit (bump (putSlot h i x) pXLT Fld.XLT.ATS_REQ_CNT) (.atsReq x.bay i x.pasid x.page x.write), true)

/-- A demand lookup of the page of a VA for a queue's key (R303 to R305, R308, R310, R314). -/
def lookDemand (h : Hub) (w : Waiter) (x : Queue) (m : Option Nat) (va : Nat) (write : Bool) : Look × Hub :=
  let page := va / 4096 * 4096
  let rt := bayRt h x.bay
  if !canonical va then (.fault, h)
  else if !rt.atsEn || !rt.pasidEn then (.fault, faultFail h x.bay x.pasid va)
  else if inFlight h w page write then (.wait, h)
  else
    match tlbLook h m x.bay x.pasid va write true with
    | (some e, h) =>
      if inHdm h x.bay (e.phys va) then (.fault, faultFail h x.bay x.pasid va) else (.hit (e.phys va) e.untr, h)
    | (none, h) =>
      if slotsFree h = 0 then (.wait, h)
      else if !x.mirror && !quadOpen h x.bay then (.unreach, h)
      else
        match startXlat h { bay := x.bay, pasid := x.pasid, page := page, write := write, demand := true, who := w,
                            mover := m, epoch := fld h pXLT Fld.XLT.INV_EPOCH, mirror := x.mirror, level := 0, off := 0,
                            cancelled := false } x.prio with
        | (h, true) => (.wait, h)
        | (h, false) => (.fault, faultFail h x.bay x.pasid va)

/-- A prefetch lookup (R310, R320, R321): it raises nothing, and takes a slot only while 64 are free. -/
def lookAhead (h : Hub) (w : Waiter) (x : Queue) (m : Option Nat) (va : Nat) (write : Bool) : Hub :=
  let page := va / 4096 * 4096
  let rt := bayRt h x.bay
  if !canonical va || !rt.atsEn || !rt.pasidEn then h
  else
    match tlbLook h m x.bay x.pasid va write false with
    | (some _, h) => h
    | (none, h) =>
      if slotsFree h < 64 || (!x.mirror && !quadOpen h x.bay) then h
      else
        let (h', ok) := startXlat h { bay := x.bay, pasid := x.pasid, page := page, write := write, demand := false, who := w,
                                      mover := m, epoch := fld h pXLT Fld.XLT.INV_EPOCH, mirror := x.mirror, level := 0, off := 0,
                                      cancelled := false } x.prio
        if ok then bump h' pXLT Fld.XLT.PF_ISSUE_CNT else h

/-! ### Results -/

/-- The page size a completion's range is installed at (R312). -/
def fitSize (log2 : Nat) : Nat := if 30 ≤ log2 then 2 else if 21 ≤ log2 then 1 else 0

/-- The TLB entry of a completion: every page of its range that lies in the block of the page asked for (R312). -/
def atsEntry (x : Xlat) (pa log2 : Nat) (w u : Bool) : TlbEnt :=
  let sz := fitSize log2
  let n := sizeLog sz
  let first := x.page / 2 ^ log2 * 2 ^ log2
  let blk := blockVa sz x.page
  let mask := ((List.range 16).filter (fun i =>
    let v := blk + i * 2 ^ n
    first ≤ v && v < first + 2 ^ max log2 n)).foldl (fun acc i => acc + 2 ^ i) 0
  { bay := x.bay, pasid := x.pasid, size := sz, va := blk, pa := (pa / 2 ^ log2 * 2 ^ log2 + 2 ^ 64 + blk - first) % 2 ^ 64,
    present := mask, write := w, untr := u, pf := 0 }

/-- What a table entry at a level says (Table XLT-3): a fault reason, a leaf, or the offset of the next table. -/
inductive WalkRes where
  | bad (reason : Nat)
  | leaf (size pa : Nat) (w : Bool)
  | next (off : Nat)
  deriving DecidableEq, Repr

/-- Read a table entry (R316, R317). -/
def tableEntry (level : Nat) (e : Nat) (write : Bool) : WalkRes :=
  let leaf := bit e 2
  let addr := bits e 12 40
  if !bit e 0 then .bad 1
  else if bits e 3 9 != 0 || (level = 4 && leaf) || (level = 1 && !leaf) ||
      (leaf && level = 3 && addr % 2 ^ 18 != 0) || (leaf && level = 2 && addr % 2 ^ 9 != 0) then .bad 3
  else if leaf then
    if write && !bit e 1 then .bad 2 else .leaf (level - 1) (addr * 4096) (bit e 1)
  else .next (addr * 4096)

/-- The TLB entry of a walk's leaf, with the other present leaves of the line that merge with it (R317). -/
def walkTlb (x : Xlat) (line : LineData) (size pa : Nat) (w : Bool) : TlbEnt :=
  let n := sizeLog size
  let i := pageOf size x.page
  let base := (pa + 2 ^ 64 - i * 2 ^ n) % 2 ^ 64
  let k0 := x.off / 8 % 8
  let more := ((List.range 8).filter (fun k =>
    match tableEntry (size + 1) (bits line.toNat (64 * k) 64) false with
    | .leaf _ pa' w' => w' == w && pa' == (base + (i - k0 + k) * 2 ^ n) % 2 ^ 64
    | _ => false)).foldl (fun acc k => acc ||| 2 ^ (i - k0 + k)) (2 ^ i)
  { bay := x.bay, pasid := x.pasid, size := size, va := blockVa size x.page, pa := base, present := more, write := w,
    untr := false, pf := 0 }

/-! ### Faults (R323 to R325) -/

/-- Store a fault entry. -/
def putFault (h : Hub) (i : Nat) (f : FaultE) : Hub := { h with xlt := { h.xlt with faults := mapPut h.xlt.faults i f } }

/-- Free a fault entry. -/
def dropFault (h : Hub) (i : Nat) : Hub := { h with xlt := { h.xlt with faults := mapDel h.xlt.faults i } }

/-- The lowest free fault entry. -/
def freeFault : Nat → List (Nat × FaultE) → Nat → Nat
  | 0, _, i => i
  | fuel + 1, l, i =>
    match l with
    | [] => i
    | (k, _) :: t => if i < k then i else freeFault fuel t (i + 1)

/-- Queue and SQ_IDX of a waiter for a fault record (Table XLT-5). -/
def waiterIds (h : Hub) : Waiter → Nat × Nat
  | .op t _ => match opOf h t with
    | some o => (o.q, o.sqIdx)
    | none => (0, 0)
  | .sq q => (q, 0xFFFFFFFF)
  | .cq t => match opOf h t with
    | some o => (o.q, 0xFFFFFFFF)
    | none => (0, 0xFFFFFFFF)
  | .advise _ => (0, 0)

/-- Write a fault record into the bay's fault ring and send its vector (R325, Table XLT-5). -/
def faultRecord (h : Hub) (r : FRing) (bay pasid va : Nat) (write : Bool) (id reason : Nat) (w : Waiter) : Hub :=
  let (q, i) := waiterIds h w
  let bytes := leBytes 8 va ++ leBytes 3 pasid ++ [b2n write, id, reason] ++ leBytes 2 q ++ leBytes 4 i ++ [0, 0, 0] ++
    [1 - r.cnt / 2 ^ r.log2 % 2] ++ leBytes 8 h.htime
  let h := emit h (.hostWrite bay (r.base + r.cnt % 2 ^ r.log2 * 32) true none bytes false)
  msixSend { h with xlt := { h.xlt with rings := mapPut h.xlt.rings bay { r with cnt := r.cnt + 1 } } } bay r.vector

/-- A demand fault (R322 to R325). False when it fails at once. -/
def demandFault (h : Hub) (x : Xlat) (reason : Nat) : Hub × Bool :=
  let va := x.page
  match h.xlt.faults.find? (fun f => f.2.bay == x.bay && f.2.pasid == x.pasid && f.2.va == va && f.2.write == x.write) with
  | some (i, f) => (putFault h i { f with waiters := f.waiters ++ [x.who] }, true)
  | none =>
    let ring := mapGet? h.xlt.rings x.bay
    let rt := bayRt h x.bay
    if x.mirror && ring.isNone then (faultFail h x.bay x.pasid va, false)
    else if !x.mirror && (h.xlt.priFail.contains x.bay || !rt.priEn) then (faultFail h x.bay x.pasid va, false)
    else
      let wait := fun (h : Hub) => { h with xlt := { h.xlt with fullWait := h.xlt.fullWait ++ [x.who] } }
      if 256 ≤ h.xlt.faults.length then (wait (setIstat h pXLT 2), true)
      else if !x.mirror && rt.priAlloc ≤ (h.xlt.faults.filter (fun f => !f.2.mirror && f.2.bay == x.bay)).length then
        (wait h, true)
      else
        let i := freeFault 256 h.xlt.faults 0
        let h := putFault h i { mirror := x.mirror, bay := x.bay, pasid := x.pasid, va := va, write := x.write,
                                time := h.htime, waiters := [x.who] }
        let h := setIstat (bump h pXLT Fld.XLT.FAULT_CNT) pXLT 0
        match x.mirror, ring with
        | true, some r => (faultRecord h r x.bay x.pasid va x.write i reason x.who, true)
        | _, _ => (emit h (.pageReq x.bay i x.pasid va x.write), true)

/-! ### Invalidation (R329, R330) -/

/-- An invalidation covers a block of VAs for a key. -/
def Inv.hits (v : Inv) (bay pasid lo len : Nat) : Bool :=
  v.bay == bay && (match v.pasid with
    | some p => p == pasid
    | none => true) && (v.len == 0 || (v.va < lo + len && lo < v.va + v.len))

/-- The entry's block overlaps the range. -/
def Inv.kills (v : Inv) (e : TlbEnt) : Bool := v.hits e.bay e.pasid e.va (16 * 2 ^ sizeLog e.size)

/-- An invalidation joins the engine's queue. -/
def invAsk (h : Hub) (v : Inv) : Hub := { h with xlt := { h.xlt with invs := h.xlt.invs ++ [v] } }

/-- The engine takes the next invalidation: INV_EPOCH advances, matching uTLB entries are cleared, and a hit in an L2 set
not yet swept is taken as a miss, so that matching L2 entries serve no lookup from here on (Table XLT-6). A hold that it
covers whole is released (R333). -/
def invStart (h : Hub) : Hub :=
  match h.xlt.run, h.xlt.invs with
  | none, v :: vs =>
    let h := setFld h pXLT Fld.XLT.INV_EPOCH (fld h pXLT Fld.XLT.INV_EPOCH + 1)
    let h := bump h pXLT Fld.XLT.INV_CNT
    let covers := fun (x : Hold) => x.posted.isSome && v.hits x.bay x.pasid x.va x.len &&
      (v.len == 0 || (v.va ≤ x.va && x.va + x.len ≤ v.va + v.len))
    let drop := fun (s : TlbSet) => { s with ways := s.ways.filter (fun w => !v.kills w.2) }
    { h with xlt := { h.xlt with
        invs := vs, run := some (v, h.htime, false), holds := h.xlt.holds.filter (fun x => !covers x.2),
        utlb := (h.xlt.utlb.map (fun u => (u.1, u.2.filter (fun e => !v.kills e)))).filter (fun u => !u.2.isEmpty),
        l2 := h.xlt.l2.map (fun s => (s.1, drop s.2)) } }
  | _, _ => h

end Sys2Proof.Machine
end

