-- ==== Sys2Proof/Machine/Movers.lean ====
section
/-! DEFINITION. Mover ops: tiles and their issue (R293), their data (R286, R287, R294), run-ahead (R320), faults that end
or replay them (R322 to R327), queues that stop (R297 to R299, R328). -/

namespace Sys2Proof.Machine

/-! ### Geometry of an op -/

/-- Byte offset and length of tile n of an op (R293). -/
def tileSpan (e : BitVec 512) (n : Nat) : Nat × Nat :=
  if eOpc e = 6 then (32 * n, 32)
  else
    let b := if eOpc e = 4 then (eSrc e).addr else (eDst e).addr
    let lo := if n = 0 then 0 else n * 4096 - b % 4096
    (lo, min (eLen e) ((n + 1) * 4096 - b % 4096) - lo)

/-- The 4 KiB pages a byte range touches. -/
def pagesOf (a n : Nat) : List Nat :=
  if n = 0 then [] else (List.range ((a % 4096 + n + 4095) / 4096)).map (fun i => (a / 4096 + i) * 4096)

/-- Host pages tile n needs, as (page, write, DETAIL): of SRC, of DST, and of the result array of an ATOMIC_BATCH (R303). -/
def tilePages (e : BitVec 512) (n : Nat) : List (Nat × Bool × Nat) :=
  let (off, len) := tileSpan e n
  let s := eSrc e
  let d := eDst e
  let cmp := eOpc e = 3
  (if s.kind = 1 then (pagesOf (s.addr + off) len).map (fun p => (p, false, if eOpc e = 6 then 3 else 1)) else []) ++
    (if d.kind = 1 then (pagesOf (d.addr + off) len).map (fun p => (p, !cmp, 2)) else []) ++
    (if eOpc e = 6 then (pagesOf (eB e 48 8 + 16 * n) 16).map (fun p => (p, true, 3)) else [])

/-- The pool lines a byte range within a handle touches: (line, place of the range's first byte in it, bytes). -/
def poolLines (base n : Nat) : List (Nat × Nat × Nat) :=
  if n = 0 then [] else
  (List.range ((base % 64 + n + 63) / 64)).map (fun i =>
    let lo := max base ((base / 64 + i) * 64)
    let hi := min (base + n) ((base / 64 + i + 1) * 64)
    (base / 64 + i, lo % 64, hi - lo))

/-- Permission bits of DST (R290). -/
def dstPerm (opc : Nat) : Nat := if opc = 6 then 4 else 2

/-- Reach checks of a range of an op (R290): status and DETAIL, 0 when both pass. -/
def opCheck (h : Hub) (o : Op) (off len : Nat) : Nat × Nat :=
  let x := queue h o.q
  let s := eSrc o.entry
  let d := eDst o.entry
  let opc := eOpc o.entry
  let a := if s.kind = 2 then handleCheck h s.handle (ownerCode x) x.ctx 1 (s.addr + off) len else 0
  if a != 0 then (a, 1)
  else
    let b := if d.kind = 2 then
        (if opc = 6 then handleCheck h d.handle (ownerCode x) x.ctx 4 0 0
        else handleCheck h d.handle (ownerCode x) x.ctx (dstPerm opc) (d.addr + off) len) else 0
    (b, if b = 0 then 0 else 2)

/-! ### The end of an op's flow -/

/-- A tile fails: the first failed tile gives the status (R293, R294). -/
def opFail (h : Hub) (tok n status detail : Nat) : Hub :=
  modOp h tok (fun o => match o.fail with
    | some (m, _, _) => if n < m then { o with fail := some (n, status, detail) } else o
    | none => { o with fail := some (n, status, detail) })

/-- Status, RESULT and DETAIL of an op whose tiles have ended (R286, R287, R294). -/
def opOutcome (o : Op) : Nat × Nat × Nat :=
  match o.fail with
  | some (n, st, det) => (st, if eOpc o.entry = 7 then 0 else (tileSpan o.entry n).1, det)
  | none =>
    match o.poisonAt, o.diffAt with
    | some p, _ => (0x17, p, 0)
    | none, some d => (1, d, 0)
    | none, none =>
      (match eOpc o.entry with
      | 4 => (0, o.crc ^^^ 0xFFFFFFFF, 0)
      | 6 => (if o.itemErr then 2 else 0, o.items, 0)
      | _ => (0, 0, 0))

/-- Granules that an OK op has written whole through one handle lose their mark (R267, R294). -/
def clearMarks (h : Hub) (o : Op) : Hub :=
  let e := o.entry
  let d := eDst e
  if (eOpc e = 1 || eOpc e = 2 || eOpc e = 5 || eOpc e = 8) && d.kind = 2 then
    let a := handleByte h d.handle d.addr
    let g := (a + 2 ^ 30 - 1) / 2 ^ 30
    if (g + 1) * 2 ^ 30 ≤ a + eLen e && homedHere h g then unmarkGranule h g else h
  else h

/-- The op on a stream has no tile left to issue or in flight: it ends, and its stream is free (R293). A retired op
leaves no completion (R299). -/
def opSettle (h : Hub) (tok : Nat) : Hub :=
  match opOf h tok with
  | none => h
  | some o =>
    match o.st with
    | .stream m _ =>
      if !o.flight.isEmpty then h
      else if o.aborted then opRetire h tok { o with status := 0x1B } true
      else if o.inval || (o.fail.isNone && (o.next < o.total || (eOpc o.entry = 7 && !o.begun))) then h
      else if eOpc o.entry = 7 && h.xlt.slots.any (fun s => s.2.who == .advise tok && !s.2.cancelled) then h
      else
        let (st, res, det) := opOutcome o
        let h := if st = 0 then clearMarks h o else h
        let h := bump h (pMOV m) Fld.MOV.OPS_CNT
        let h := if 0x10 ≤ st then setIstat (bump h (pMOV m) Fld.MOV.ERR_CNT) (pMOV m) 0 else h
        let h := forget h (Waiter.ofTok tok)
        opEnds h tok st res det
    | _ => h

/-! ### Issue of tiles -/

/-- Look up the pages of the next tile in order: every page with its translation, or the first that has none. -/
def lookPages (h : Hub) (tok : Nat) (x : Queue) (m : Nat) : List (Nat × Bool × Nat) → List (Nat × Nat × Bool) →
    Hub × Option (List (Nat × Nat × Bool)) × Option (Nat × Nat)
  | [], acc => (h, some acc, none)
  | (p, w, det) :: t, acc =>
    if canonical p && heldPage h x.bay x.pasid p tok then (h, none, none)
    else
      match lookDemand h (.op tok det) x (some m) p w with
      | (.hit pa u, h) =>
        if !quadOpen h x.bay then (h, none, some (0x19, det)) else lookPages h tok x m t (acc ++ [(p, pa, u)])
      | (.wait, h) => (h, none, none)
      | (.fault, h) => (h, none, some (0x18, det))
      | (.unreach, h) => (h, none, some (0x19, det))

/-- Reads of host memory for a byte range through its translations. -/
def hostReads (h : Hub) (x : Queue) (pages : List (Nat × Nat × Bool)) (a n : Nat) : Hub :=
  (pagesOf a n).foldl (fun h p =>
    match pages.find? (fun g => g.1 == p) with
    | some (_, pa, u) =>
      let lo := max a p
      let hi := min (a + n) (p + 4096)
      emit h (.hostRead x.bay (if u then lo else pa / 4096 * 4096 + lo % 4096) (hi - lo) u (some x.pasid))
    | none => h) h

/-- Writes of host memory for a byte range through its translations. -/
def hostWrites (h : Hub) (x : Queue) (pages : List (Nat × Nat × Bool)) (a : Nat) (bytes : List Nat) (poison : Bool) : Hub :=
  (pagesOf a bytes.length).foldl (fun h p =>
    match pages.find? (fun g => g.1 == p) with
    | some (_, pa, u) =>
      let lo := max a p
      let hi := min (a + bytes.length) (p + 4096)
      emit h (.hostWrite x.bay (if u then lo else pa / 4096 * 4096 + lo % 4096) u (some x.pasid)
        ((bytes.drop (lo - a)).take (hi - lo)) poison)
    | none => h) h

/-- A mover request of a tile (R156, R227, R290, R293): bay code 63, the queue's CTX and priority. -/
def tileReq (h : Hub) (tok : Nat) (o : Op) (n item line : Nat) (op : ReqOp) (poison : Bool) : Hub :=
  let x := queue h o.q
  let src := match o.st with
    | .stream m s => srcMover m s
    | _ => srcInternal
  ingressPut h src 0
    { who := .mover tok (n * 256 + item), agent := intAgent (ownNode h), op := op, line := line, poison := poison,
      prio := x.prio, ctx := x.ctx, bob := 0, t0 := h.htime, hops := 31, tag := none } none

/-- A pool line of the tile lies in an unmapped granule (R121, R294). -/
def unmappedLine (h : Hub) (lines : List (Nat × Nat × Nat)) : Option Nat :=
  (lines.find? (fun l => match whereIs h l.1 with
    | .unmapped => true
    | .noMedia => true
    | _ => false)).map (·.1)

/-- The pool lines of a tile's SRC, and of its DST. -/
def srcLines (h : Hub) (o : Op) (n : Nat) : List (Nat × Nat × Nat) :=
  let (off, len) := tileSpan o.entry n
  let s := eSrc o.entry
  if s.kind = 2 then poolLines (handleByte h s.handle (s.addr + off)) len else []

def dstLines (h : Hub) (o : Op) (n : Nat) : List (Nat × Nat × Nat) :=
  let (off, len) := tileSpan o.entry n
  let d := eDst o.entry
  if d.kind = 2 && eOpc o.entry != 6 then poolLines (handleByte h d.handle (d.addr + off)) len else []

/-- Bytes of a line. -/
def lineBytes (d : LineData) : List Nat := leBytes 64 d.toNat

/-- A line that holds bytes from a place on. -/
def lineAt (place : Nat) (bs : List Nat) : LineData := BitVec.ofNat 512 (ofLeBytes bs * 2 ^ (8 * place))

/-- The byte mask of n bytes from a place on. -/
def maskAt (place n : Nat) : BitVec 64 := BitVec.ofNat 64 ((2 ^ n - 1) * 2 ^ place)

/-- Put a tile into an op's flight. -/
def putTile (o : Op) (t : Tile) : Op := { o with flight := t :: o.flight.filter (fun x => x.n != t.n) }

/-- Write the lines of a tile's pool destination: whole lines as WR_FULL or STASH, others in part (R158, R172). -/
def writeLines (h : Hub) (tok : Nat) (o : Op) (n : Nat) (bytes : List Nat) (pois : Nat → Bool) : Hub × List Nat :=
  let ls := dstLines h o n
  ls.zipIdx.foldl (fun acc x =>
    let ((line, place, cnt), k) := x
    let before := (ls.take k).foldl (fun a l => a + l.2.2) 0
    let part := (bytes.drop before).take cnt
    let bad := (List.range cnt).any (fun i => pois (before + i))
    let d := lineAt place part
    let op : ReqOp := if eOpc o.entry = 5 then .stash d (rlcAgent (eB o.entry 48 1 % 128))
      else if cnt = 64 then .wrFull d else .wrPart d (maskAt place cnt)
    (tileReq acc.1 tok o n (128 + k) line op bad, acc.2 ++ [128 + k])) (h, [])

/-- Write a tile's destination: pool lines, or host memory at once. Answers the items whose end is awaited. -/
def writeDst (h : Hub) (tok : Nat) (o : Op) (t : Tile) (bytes : List Nat) (pois : Nat → Bool) : Hub × List Nat :=
  let d := eDst o.entry
  if d.kind = 2 then writeLines h tok o t.n bytes pois
  else
    let (off, _) := tileSpan o.entry t.n
    (hostWrites h (queue h o.q) t.pages (d.addr + off) bytes ((List.range bytes.length).any pois), [])

/-- The repeated pattern of a FILL for a tile (Table MOV-5). -/
def fillBytes (e : BitVec 512) (n : Nat) : List Nat :=
  let (off, len) := tileSpan e n
  (List.range len).map (fun i => bits (eB e 48 8) (8 * ((off + i) % 8)) 8)

/-- Issue tile n: its translations stand, so it is checked and its first requests go out (R290, R293). -/
def startTile (h : Hub) (tok m : Nat) (o : Op) (pages : List (Nat × Nat × Bool)) : Hub :=
  let n := o.next
  let x := queue h o.q
  let (off, len) := tileSpan o.entry n
  let (st, det) := opCheck h o off len
  let s := eSrc o.entry
  let d := eDst o.entry
  let opc := eOpc o.entry
  if st != 0 then opFail h tok n st det
  else
    match unmappedLine h (srcLines h o n ++ dstLines h o n) with
    | some line => opFail (unmappedLog h line 4 (intAgent (ownNode h))) tok n 0x1A (if (srcLines h o n).any (·.1 == line) then 1 else 2)
    | none =>
      let h := bump h (pMOV m) Fld.MOV.TILE_CNT
      let t : Tile := { n := n, rd := true, need := [], got := [], host := false, hostB := [], hostPoison := false, pages := pages }
      if opc = 2 then
        let (h, need) := writeDst h tok o t (fillBytes o.entry n) (fun _ => false)
        putOp h tok (putTile { o with next := n + 1 } { t with rd := false, need := need })
      else
        let src := srcLines h o n
        let cmp := if opc = 3 then dstLines h o n else []
        let h := src.zipIdx.foldl (fun h l => tileReq h tok o n l.2 l.1.1 .rdCur false) h
        let h := cmp.zipIdx.foldl (fun h l => tileReq h tok o n (128 + l.2) l.1.1 .rdCur false) h
        let h := if s.kind = 1 then hostReads h x pages (s.addr + off) len else h
        let h := if opc = 3 && d.kind = 1 then hostReads h x pages (d.addr + off) len else h
        putOp h tok (putTile { o with next := n + 1 }
          { t with need := (List.range src.length) ++ (List.range cmp.length).map (· + 128),
                   host := s.kind = 1 || (opc = 3 && d.kind = 1) })

/-- Run-ahead: lookups for the tiles after the next one, once each in an invalidation epoch (R320, R330). -/
def runAhead (h : Hub) (tok m : Nat) (o : Op) : Hub :=
  if !flag h pXLT Fld.XLT.CFG_PF_EN then h
  else
    let x := queue h o.q
    let top := min (o.next + fld h pXLT Fld.XLT.CFG_PF_DEPTH + 1) o.total
    let epoch := fld h pXLT Fld.XLT.INV_EPOCH
    let lo := if o.pfEpoch = epoch then max (o.next + 1) o.pfNext else o.next + 1
    let h := (List.range (top - lo)).foldl (fun h i =>
      (tilePages o.entry (lo + i)).foldl (fun h p =>
        if heldPage h x.bay x.pasid p.1 tok then h else lookAhead h (.op tok p.2.2) x (some m) p.1 p.2.1) h) h
    modOp h tok (fun o => { o with pfNext := top, pfEpoch := epoch })

/-- A stream may issue its op's next tile: fewer than 4 in flight, or none under throttle (R455), no failed tile, general bobbins free (R230), no tile in
SEAL (R463). -/
def mayIssue (h : Hub) (o : Op) : Bool :=
  o.flight.length < (if flag h pPWR Fld.PWR.THERM_THROTTLE then 1 else 4) && o.next < o.total && eOpc o.entry != 7 && o.fail.isNone && !o.aborted && !o.inval && !atBound h &&
    (h.mode.mode == .serve || h.mode.mode == .drain) && !(eOpc o.entry == 8 && !o.begun)

/-- Issue tiles in ascending order, up to 4 in flight (R293). -/
def issueTiles : Nat → Hub → Nat → Hub
  | 0, h, _ => h
  | fuel + 1, h, tok =>
    match opOf h tok with
    | none => h
    | some o =>
      match o.st with
      | .stream m _ =>
        if !mayIssue h o then h
        else
          let x := queue h o.q
          let (h, got, bad) := lookPages h tok x m (tilePages o.entry o.next) []
          let h := runAhead h tok m o
          (match opOf h tok with
          | none => h
          | some o =>
            match got, bad with
            | some pages, _ => issueTiles fuel (startTile h tok m o pages) tok
            | none, some (st, det) => opFail h tok o.next st det
            | none, none => h)
      | _ => h

/-- The op goes on: tiles are issued, and an op with nothing left ends. -/
def pump (h : Hub) (tok : Nat) : Hub := opSettle (issueTiles 4 h tok) tok

/-! ### Data of a tile -/

/-- Take the results of a tile's requests (from `coh.mres`). -/
def collect (h : Hub) (tok n : Nat) (t : Tile) : Hub × Tile :=
  let mine := h.coh.mres.filter (fun r => r.tok == tok && r.item / 256 == n)
  ({ h with coh := { h.coh with mres := h.coh.mres.filter (fun r => !(r.tok == tok && r.item / 256 == n)) } },
    mine.foldl (fun t r => { t with need := t.need.erase (r.item % 256),
                                    got := if t.rd then t.got ++ [(r.item % 256, r.data, r.poison)] else t.got }) t)

/-- Assemble the bytes of lines read, with their poison, from item k0 on. -/
def gather (t : Tile) (ls : List (Nat × Nat × Nat)) (k0 : Nat) : List (Nat × Bool) :=
  ls.zipIdx.flatMap (fun x =>
    let ((_, place, cnt), k) := x
    match t.got.find? (fun g => g.1 == k0 + k) with
    | some (_, d, p) => (((lineBytes d).drop place).take cnt).map (fun b => (b, p))
    | none => List.replicate cnt (0, true))

/-- Offset of the first difference of two byte strings. -/
def firstDiff : List Nat → List Nat → Nat → Option Nat
  | a :: s, b :: t, i => if a = b then firstDiff s t (i + 1) else some i
  | _, _, _ => none

/-- The smaller of two offsets. -/
def minAt (a : Option Nat) (b : Nat) : Option Nat :=
  match a with
  | some x => some (min x b)
  | none => some b

/-- Fold the CRC over the tiles that have ended in order. -/
def crcFold : Nat → Op → Op
  | 0, o => o
  | fuel + 1, o =>
    match o.kept.find? (fun k => k.1 == o.crcNext) with
    | some (n, bs) =>
      crcFold fuel { o with crc := crcBytes o.crc bs, crcNext := n + 1, kept := o.kept.filter (fun k => k.1 != n) }
    | none => o

/-- An ATOMIC_BATCH item of a tile (R287): its result is written, with no request where the item breaks its limits. -/
def itemEnd (h : Hub) (tok : Nat) (o : Op) (t : Tile) (old status : Nat) : Hub :=
  let h := hostWrites h (queue h o.q) t.pages (eB o.entry 48 8 + 16 * t.n) (leBytes 8 old ++ [status] ++ List.replicate 7 0) false
  putOp h tok (putTile { o with itemErr := o.itemErr || status != 0, items := o.items + b2n (status = 0) }
    { t with rd := false, need := [] })

/-- A near atomic is chosen for a line (R168). -/
def atomNear (h : Hub) (line : LineAddr) : Bool :=
  !homedHere h (granuleOf line) &&
    (match fld h pCOH Fld.COH.CFG_ATOM_FORCE with
    | 1 => true
    | 2 => false
    | _ => match (homeEntry h (granuleOf line)).atomic with
      | 0 => true
      | 1 => false
      | _ => predVal h line < 2)

/-- The item of a tile of an ATOMIC_BATCH has been read: it is checked and issued (R168, R287, R290). -/
def itemIssue (h : Hub) (tok : Nat) (o : Op) (t : Tile) (bs : List Nat) : Hub :=
  let x := queue h o.q
  let d := eDst o.entry
  let w := fun (i n : Nat) => ofLeBytes ((bs.drop i).take n)
  let size := if w 25 1 = 0 then 4 else 8
  let off := d.addr + w 0 8
  let a := handleByte h d.handle off
  let line := a / 64
  if 9 < w 24 1 || 1 < w 25 1 || w 26 6 != 0 || a % size != 0 then itemEnd h tok o t 0 2
  else
    let st := handleCheck h d.handle (ownerCode x) x.ctx 4 off size
    if st != 0 then opFail (putOp h tok { o with flight := o.flight.filter (fun y => y.n != t.n) }) tok t.n st 2
    else
      let arg : AtomicArg := { operand := BitVec.ofNat 64 (w 8 8), compare := BitVec.ofNat 64 (w 16 8), op := w 24 1,
                               word := ⟨a / 8 % 8, Nat.mod_lt _ (by decide)⟩, size8 := size = 8, upper := a % 8 = 4 }
      match unmappedLine h [(line, 0, 64)] with
      | some _ =>
        opFail (putOp (unmappedLog h line 7 (intAgent (ownNode h))) tok { o with flight := o.flight.filter (fun y => y.n != t.n) })
          tok t.n 0x1A 2
      | none =>
        let h := tileReq h tok o t.n 128 line (if atomNear h line then .nearAtomic arg else .atomic arg) false
        putOp h tok (putTile o { t with rd := false, need := [128] })

/-- The sources of a tile are all read: what the op does with them (R286, R294). -/
def tileData (h : Hub) (tok : Nat) (o : Op) (t : Tile) : Hub :=
  let e := o.entry
  let s := eSrc e
  let d := eDst e
  let (off, len) := tileSpan e t.n
  let a := if s.kind = 1 then (t.hostB.take len).map (fun b => (b, t.hostPoison)) else gather t (srcLines h o t.n) 0
  let bad := (a.findIdx? (·.2)).map (· + off)
  let pz := fun (o : Op) => match bad with
    | some p => { o with poisonAt := minAt o.poisonAt p }
    | none => o
  match eOpc e with
  | 3 =>
    let b := if d.kind = 1 then
        (((if s.kind = 1 then t.hostB.drop len else t.hostB).take len).map (fun b => (b, t.hostPoison)))
      else gather t (dstLines h o t.n) 128
    let bad2 := (b.findIdx? (·.2)).map (· + off)
    let o := pz o
    let o := match bad2 with
      | some p => { o with poisonAt := minAt o.poisonAt p }
      | none => o
    let o := match firstDiff (a.map (·.1)) (b.map (·.1)) off with
      | some i => { o with diffAt := minAt o.diffAt i }
      | none => o
    putOp h tok (putTile o { t with rd := false })
  | 4 =>
    let o := pz o
    putOp h tok (putTile (crcFold 8 { o with kept := o.kept ++ [(t.n, a.map (·.1))] }) { t with rd := false })
  | 6 => itemIssue h tok o t (a.map (·.1))
  | _ =>
    let ps := a.map (·.2)
    let (h, need) := writeDst h tok (pz o) t (a.map (·.1)) (fun i => ps.getD i false)
    putOp h tok (putTile (pz o) { t with rd := false, need := need })

/-- A data step of a tile in flight: the host's bytes arrive, results of its requests are taken, and once its sources are
read the op acts on them. -/
def tileStep (h : Hub) (tok n : Nat) (host : List Nat) (poison : Bool) : Hub :=
  match opOf h tok with
  | none => h
  | some o =>
    match o.flight.find? (fun t => t.n == n) with
    | none => h
    | some t =>
      let (_, len) := tileSpan o.entry n
      let want := (if (eSrc o.entry).kind = 1 then len else 0) + (if eOpc o.entry = 3 && (eDst o.entry).kind = 1 then len else 0)
      let t := if t.host && host.length = want then { t with host := false, hostB := host.map (· % 256), hostPoison := poison } else t
      let atm := h.coh.mres.find? (fun r => r.tok == tok && r.item == n * 256 + 128)
      let (h, t) := collect h tok n t
      let h := putOp h tok (putTile o t)
      if t.rd then
        if t.need.isEmpty && !t.host then tileData h tok o t else h
      else if eOpc o.entry = 6 then
        match atm with
        | some r => itemEnd h tok o t r.old.toNat r.status
        | none => h
      else h

/-- A tile whose requests have all ended completes, and the stream issues the next (R293, R301). -/
def tileDone (h : Hub) (tok n : Nat) : Hub :=
  let h := tileStep h tok n [] false
  match opOf h tok with
  | none => h
  | some o =>
    match o.flight.find? (fun t => t.n == n), o.st with
    | some t, .stream m _ =>
      if t.rd || !t.need.isEmpty then pump h tok
      else
        let h := bump64 h (pMOV m) Fld.MOV.BYTES_LO Fld.MOV.BYTES_HI (tileSpan o.entry n).2
        pump (putOp h tok { o with flight := o.flight.filter (fun t => t.n != n), tilesDone := o.tilesDone + 1 }) tok
    | _, _ => pump h tok

/-! ### Waiters -/

/-- An SQ read of a queue fails: the queue stops and the entry is not accepted (R327). -/
def sqFailed (h : Hub) (q : Nat) : Hub :=
  if (queue h q).st = .enabled then queueStopped h q 0x18 else h

/-- A waiter's lookup runs again (R324, R330, R333). -/
def poke (h : Hub) (w : Waiter) : Hub :=
  match w with
  | .op tok _ => pump h tok
  | .sq q =>
    let x := queue h q
    if queueReady x && !x.int then
      match lookDemand h w x none (sqAddr x) false with
      | (.fault, h) => sqFailed h q
      | (_, h) => h
    else h
  | .cq tok =>
    (match opOf h tok with
    | some o =>
      let x := queue h o.q
      (match lookDemand h w x none (cqAddr x) true with
      | (.fault, h) => cqFailed h tok o
      | (_, h) => h)
    | none => h)
  | .advise tok => opSettle h tok

/-- A waiter's fault has failed: the op ends with XLT_FAULT (R324 to R327). -/
def waiterFails (h : Hub) (w : Waiter) : Hub :=
  match w with
  | .op tok det =>
    (match opOf h tok with
    | some o => opSettle (opFail h tok o.next 0x18 det) tok
    | none => h)
  | .sq q => sqFailed h q
  | .cq tok =>
    (match opOf h tok with
    | some o => cqFailed h tok o
    | none => h)
  | .advise _ => h

/-- The waiters for a fault entry look up again once one may be free. -/
def retryFull (h : Hub) : Hub :=
  let ws := h.xlt.fullWait
  ws.foldl poke { h with xlt := { h.xlt with fullWait := [] } }

/-- A fault entry frees: its waiters look up again, or fail (R324 to R326). -/
def faultEnds (h : Hub) (i : Nat) (ok : Bool) : Hub :=
  match mapGet? h.xlt.faults i with
  | none => h
  | some f =>
    let h := dropFault h i
    let h := if ok then h else faultFail h f.bay f.pasid f.va
    retryFull (f.waiters.foldl (fun h w => if ok then poke h w else waiterFails h w) h)

/-- A slot frees: where all were held, the ops on streams look up again (R310). -/
def slotEnds (h : Hub) (i : Nat) : Hub :=
  let full := slotsFree h = 0
  let h := dropSlot h i
  if full then (h.mov.toks.map (·.1)).foldl pump h else h

/-- A translation's result arrives: discarded at another epoch (R330) or after its op (R321); installed; or a fault. -/
def xlatEnds (h : Hub) (i : Nat) (x : Xlat) (r : TlbEnt ⊕ Nat) : Hub :=
  let h := slotEnds h i
  let stale := x.epoch != fld h pXLT Fld.XLT.INV_EPOCH
  if x.cancelled || (stale && !x.demand) then
    poke (if x.demand then h else bump h pXLT Fld.XLT.PF_CANCEL_CNT) x.who
  else if stale then poke h x.who
  else
    match r with
    | .inl e => poke (install h x.mover e (!x.demand)) x.who
    | .inr reason =>
      if !x.demand then poke h x.who
      else
        let (h, held) := demandFault h x reason
        if held then h else waiterFails h x.who

/-! ### Queues that stop -/

/-- The waiters of a stopped queue's ops give up their fault entries (R328); an op stalled on one ends with XLT_FAULT. -/
def stopWaits (h : Hub) (q : Nat) : Hub :=
  let toks := (opsOf h q).map (·.1)
  let mine := fun (w : Waiter) => match w with
    | .sq q' => q' == q
    | w => toks.any (fun t => w.ofTok t)
  let stalled := toks.filter (opStalled h)
  let h := forget h mine
  stalled.foldl (fun h t => waiterFails h (.op t 0)) h

/-- Every queue of a reset bay becomes STOPPED with cause ABORTED; its ops retire without CQ entries, those on streams once
their tiles in flight have ended (R299). -/
def ownerStop (h : Hub) (bay : Nat) : Hub :=
  let qs := (h.mov.queues.filter (fun x => !x.2.int && x.2.bay == bay && x.2.st != .unassigned)).map (·.1)
  qs.foldl (fun h q =>
    let h := queueStopped h q 0x1B
    let toks := (opsOf h q).map (·.1)
    let h := forget h (fun w => match w with
      | .sq q' => q' == q
      | w => toks.any (fun t => w.ofTok t))
    let h := toks.foldl (fun h t =>
      match opOf h t with
      | none => h
      | some o =>
        match o.st with
        | .stream _ _ => opSettle (putOp h t { o with aborted := true }) t
        | .done => opRetire h t o true
        | _ => opRetire h t { o with status := 0x1B } true) h
    h) h

/-- A group that leaves ON ends the op that waits at the head of its dispatch queue with UNREACH (R292). -/
def groupLeaves (h : Hub) (g : Nat) : Hub :=
  match groupHead h g with
  | some t => noMoverCheck (opEnds h t 0x19 0 0)
  | none => h

end Sys2Proof.Machine
end

