-- ==== Sys2Proof/Machine/MoverCmd.lean ====
section
/-! DEFINITION. Meanings of the rows of queues, movers and their translation (R274 to R338). -/

namespace Sys2Proof.Machine

/-! ### Queues -/

/-- Run an action; the queues that it stopped give up the fault entries of their ops (R328). -/
def withStops (f : Hub → Hub) (h : Hub) : Hub :=
  let h1 := f h
  let qs := (h1.mov.queues.filter (fun x => x.2.st == .stopped && (queue h x.1).st != .stopped)).map (·.1)
  qs.foldl stopWaits h1

/-- QASSIGN (R275). -/
def execQassign (o : Origin) (v : Word) (s : State) : Res :=
  .next (s.onHub fun h => guardedK h o pQCTL 0x104 v.toNat (fun h => qassign h v.toNat))

/-- SQ_TAIL_DOORBELL (R277). -/
def execSqTailDoorbell (o : Origin) (q : Nat) (u : DbUnit) (s : State) : Res := .next (s.onHub (withStops fun h => doorbell h o q u))

/-- CQ_HEAD_DOORBELL (R277). -/
def execCqHeadDoorbell (o : Origin) (q : Nat) (u : DbUnit) (s : State) : Res := .next (s.onHub (withStops fun h => doorbell h o q u))

/-- SETUP_DOORBELL (R278). -/
def execSetupDoorbell (o : Origin) (q : Nat) (u : DbUnit) (s : State) : Res := .next (s.onHub (withStops fun h => doorbell h o q u))

/-- DESCRIPTOR_PUSH (R279). -/
def execDescriptorPush (o : Origin) (q : Nat) (entry : BitVec 512) (s : State) : Res :=
  .next (s.onHub fun h => push h o q entry)

/-- The accept engine comes to a queue with its entry: it waits, or accepts (R283, R437, R439, R440). -/
def tryAccept (h : Hub) (q : Nat) (e : BitVec 512) : Hub :=
  if !modeAccepts h q e then h
  else if h.scb.boot != 2 then { h with scb := { h.scb with boot := max h.scb.boot 1 } }
  else if !ringFree439 h then setIstat h pSCB 3
  else if durableClass q e && durBlocked h then
    if h.mov.durWait.contains q then h
    else setIstat { h with mov := { h.mov with durWait := q :: h.mov.durWait } } pSCB 1
  else
    match freeTok 1024 h.mov.toks 0 with
    | some tok => accept h q tok e
    | none => h

/-- The SQ read of a queue owned by a bay, translated for a work queue (R281, R303, R327). True when the entry is read. -/
def sqRead (h : Hub) (q : Nat) : Hub × Bool :=
  let x := queue h q
  if mgmtQueue q then (emit h (.hostRead x.bay (sqAddr x) 64 true none), quadOpen h x.bay)
  else
    match lookDemand h (.sq q) x none (sqAddr x) false with
    | (.hit pa u, h) => (emit h (.hostRead x.bay (if u then sqAddr x else pa) 64 u (some x.pasid)), quadOpen h x.bay)
    | (.fault, h) => (sqFailed h q, false)
    | (_, h) => (h, false)

/-- ENTRY_ACCEPT (R283). `entry` is what the read of the queue's ring in host memory returned. -/
def execEntryAccept (q : Nat) (entry : BitVec 512) (s : State) : Res :=
  .next (s.onHub (withStops fun h =>
    let x := queue h q
    if !queueReady x || 1024 ≤ tokensHeld h || turnOther h s.ram q then h
    else
      match heldEntry s.ram x with
      | some e => tryAccept h q e
      | none =>
        let (h, ok) := sqRead h q
        if ok then tryAccept h q entry else h))

/-! ### Mover ops -/

/-- The op holds the token on a stream and is of this opcode. -/
def onStream (h : Hub) (tok opc : Nat) : Bool :=
  match opOf h tok with
  | some o => eOpc o.entry == opc && (match o.st with
    | .stream _ _ => true
    | _ => false)
  | none => false

/-- A data step of a tile of an op of one kind: what has arrived is taken, and the stream goes on. -/
def dataStep (h : Hub) (opc : Nat) (t : OpStep) : Hub :=
  if onStream h t.tok opc then pump (tileStep h t.tok t.tile t.host t.poison) t.tok else h

/-- COPY (R286, R293, R294). -/
def execCopy (t : OpStep) (s : State) : Res := .next (s.onHub fun h => dataStep h 1 t)

/-- FILL (R286). -/
def execFill (t : OpStep) (s : State) : Res := .next (s.onHub fun h => dataStep h 2 t)

/-- COMPARE (R286). -/
def execCompare (t : OpStep) (s : State) : Res := .next (s.onHub fun h => dataStep h 3 t)

/-- CRC32C (R286). -/
def execCrc32c (t : OpStep) (s : State) : Res := .next (s.onHub fun h => dataStep h 4 t)

/-- STASH by a mover (R172, R286). -/
def execMoverStash (t : OpStep) (s : State) : Res := .next (s.onHub fun h => dataStep h 5 t)

/-- ATOMIC_BATCH (R168, R287). -/
def execAtomicBatch (t : OpStep) (s : State) : Res := .next (s.onHub fun h => dataStep h 6 t)

/-- The op begins its one-time effect: it is on a stream, an ADVISE of this code, and has not begun. -/
def advise (h : Hub) (tok code : Nat) (f : Hub → Op → Hub) : Hub :=
  match opOf h tok with
  | some o =>
    if onStream h tok 7 && eB o.entry 48 1 = code && !o.begun && o.fail.isNone && !o.aborted then
      opSettle (modOp (f h o) tok (fun o => { o with begun := true })) tok
    else h
  | none => h

/-- WILLNEED starts as many of its lookups as slots allow (R310, R332). -/
def willneed : Nat → Hub → Nat → Hub
  | 0, h, _ => h
  | fuel + 1, h, tok =>
    match opOf h tok with
    | none => h
    | some o =>
      if o.total ≤ o.next || slotsFree h < 64 then h
      else
        let va := ((eDst o.entry).addr / 4096 + o.next) * 4096
        let h := lookAhead h (.advise tok) (queue h o.q) none va false
        willneed fuel (modOp h tok (fun o => { o with next := o.next + 1 })) tok

/-- ADVISE WILLNEED (R332): each step starts further lookups, and the op ends when all have resolved. -/
def execAdviseWillneed (tok : Nat) (s : State) : Res :=
  .next (s.onHub fun h =>
    match opOf h tok with
    | some o =>
      if onStream h tok 7 && eB o.entry 48 1 = 0 && o.fail.isNone && !o.aborted then
        opSettle (willneed 256 (modOp h tok (fun o => { o with begun := true })) tok) tok
      else h
    | none => h)

/-- ADVISE DONTNEED (R332): an invalidation of the range for the queue's key. -/
def execAdviseDontneed (tok : Nat) (s : State) : Res :=
  .next (s.onHub fun h => advise h tok 1 (fun h o =>
    let x := queue h o.q
    modOp (invAsk h { src := .op o.seq, bay := x.bay, pasid := some x.pasid, va := (eDst o.entry).addr, len := eLen o.entry })
      tok (fun o => { o with inval := true })))

/-- The 2 MiB regions a pool operand overlaps. -/
def regionsOf (h : Hub) (o : Op) : List Nat :=
  let d := eDst o.entry
  let a := handleByte h d.handle d.addr
  (List.range ((a % 2 ^ 21 + eLen o.entry + 2 ^ 21 - 1) / 2 ^ 21)).map (· + a / 2 ^ 21)

/-- ADVISE HOT (R332, R336): one ADVISE record per region. -/
def execAdviseHot (tok : Nat) (s : State) : Res :=
  .next (s.onHub fun h => advise h tok 2 (fun h o =>
    (regionsOf h o).foldl (fun h r => hotRecord h r 2 (ownNode h * 64 + ownerCode (queue h o.q)) 0) h))

/-- ADVISE COLD (R332): the counter sets of the regions are zeroed. -/
def execAdviseCold (tok : Nat) (s : State) : Res :=
  .next (s.onHub fun h => advise h tok 3 (fun h o =>
    let rs := regionsOf h o
    { h with meter := { h.meter with sets := h.meter.sets.map (fun e =>
        if rs.contains e.1 then (e.1, { e.2 with slots := List.replicate 16 0 }) else e) } }))

/-- Store a hold. -/
def putHold (h : Hub) (i : Nat) (x : Hold) : Hub := { h with xlt := { h.xlt with holds := mapPut h.xlt.holds i x } }

/-- A MIGRATE takes a hold and invalidates its source (R333); with no hold free its stream waits. -/
def migrateBegin (h : Hub) (tok : Nat) (o : Op) : Hub :=
  let x := queue h o.q
  match (List.range 16).find? (fun i => (mapGet? h.xlt.holds i).isNone) with
  | none => h
  | some i =>
    let s := eSrc o.entry
    let hold : Hold := { tok := tok, bay := x.bay, pasid := x.pasid, va := s.addr, len := eLen o.entry, posted := none }
    putOp (invAsk (putHold h i hold) { src := .op o.seq, bay := x.bay, pasid := some x.pasid, va := s.addr, len := eLen o.entry }) tok
      { o with begun := true, inval := true }

/-- MIGRATE (R333): the hold and the invalidation first, then the copy. -/
def execMigrate (t : OpStep) (s : State) : Res :=
  .next (s.onHub fun h =>
    match opOf h t.tok with
    | some o =>
      if onStream h t.tok 8 && !o.begun && o.fail.isNone && !o.aborted then migrateBegin h t.tok o else dataStep h 8 t
    | none => h)

/-! ### Dispatch and completion -/

/-- Free streams of a mover. -/
def freeStreams (h : Hub) (m : Nat) : List Nat := (List.range 8).filter (fun s => (streamOp h m s).isNone)

/-- The mover that takes the next op of a group (R292). -/
def pickMover (h : Hub) (g : Nat) : Option Nat :=
  (List.range 8).foldl (fun best i =>
    let m := 8 * g + i
    let n := (freeStreams h m).length
    if !flag h (pMOV m) Fld.MOV.CTL_EN || n = 0 then best
    else
      match best with
      | some b => if (freeStreams h b).length < n then some m else best
      | none => some m) none

/-- A dispatched op is checked against its reach, and a MIGRATE takes its hold. -/
def dispatched (h : Hub) (tok : Nat) (o : Op) : Hub :=
  let (bad, det) := if eOpc o.entry = 6 then opCheck h o 0 0 else opCheck h o 0 (eLen o.entry)
  let h := if bad = 0 then h else opFail h tok 0 bad det
  match opOf h tok with
  | some o => if eOpc o.entry = 8 && o.fail.isNone then migrateBegin h tok o else h
  | none => h

/-- OP_DISPATCH (R290, R292). -/
def execOpDispatch (g : Fin 4) (s : State) : Res :=
  .next (s.onHub fun h =>
    match groupHead h g.val with
    | none => h
    | some tok =>
      if domState h (12 + g.val) != 0 then noMoverCheck (opEnds h tok 0x19 0 0)
      else if (h.mode.mode != .serve && h.mode.mode != .drain) || h.mode.toMaintain then h
      else
        match pickMover h g.val, opOf h tok with
        | some m, some o =>
          let st := (freeStreams h m).headD 0
          let h := putOp { h with mov := { h.mov with dq := h.mov.dq.filter (· != tok) } } tok { o with st := .stream m st }
          noMoverCheck (pump (dispatched h tok o) tok)
        | _, _ => noMoverCheck h)

/-- TILE_COMPLETE (R293, R294). -/
def execTileComplete (tok tile : Nat) (s : State) : Res := .next (s.onHub fun h => tileDone h tok tile)

/-- What a management command that has taken effect still waits for (R291, R298, R331). -/
def mgmtWaits (h : Hub) (tok : Nat) (o : Op) : Bool :=
  match eOpc o.entry with
  | 0x42 => h.mov.toks.any (fun t => !t.2.flight.isEmpty &&
      (((eSrc t.2.entry).kind == 2 && (eSrc t.2.entry).handle == eB o.entry 8 4) ||
        ((eDst t.2.entry).kind == 2 && (eDst t.2.entry).handle == eB o.entry 8 4)))
  | 0x44 => (opsOf h (eB o.entry 8 2)).any (fun t => t.1 != tok)
  | _ => o.inval

/-- The op's completion may be posted: it has ended, and a durable record is committed (R284). -/
def mayPost (h : Hub) (tok : Nat) (o : Op) : Bool :=
  !(o.durable && h.scb.accepts.contains o.seq) && h.mode.mode != .seal &&
    (o.st == .done || (o.st == .waiting && !mgmtWaits h tok o))

/-- Post the CQ entry and retire the op (R295, R296). -/
def post (h : Hub) (tok : Nat) (o : Op) : Hub := opRetire (cqSignal (errCount h o.status) (queue h o.q) o) tok o false

/-- OP_COMPLETION (R296, R297). `cqOk` is false when a CQ write ends by completer abort. -/
def execOpCompletion (tok : Nat) (cqOk : Bool) (s : State) : Res :=
  .next (s.onHub (withStops fun h =>
    match opOf h tok with
    | none => h
    | some o =>
      let x := queue h o.q
      if !mayPost h tok o then h
      else if x.int then
        if cqOk then post { h with sram := h.sram ++ [(cqAddr x, cqBytes x o)] } tok o else cqFailed h tok o
      else if mgmtQueue o.q then
        if cqOk && quadOpen h x.bay then post (emit h (.hostWrite x.bay (cqAddr x) true none (cqBytes x o) false)) tok o
        else cqFailed h tok o
      else
        match lookDemand h (.cq tok) x none (cqAddr x) true with
        | (.hit pa u, h) =>
          if quadOpen h x.bay then
            post (emit h (.hostWrite x.bay (if u then cqAddr x else pa) u (some x.pasid) (cqBytes x o) false)) tok o
          else cqFailed h tok o
        | (.wait, h) => h
        | (_, h) => cqFailed h tok o))

/-- MOVER_ENABLE (R292, R301). -/
def execMoverEnable (o : Origin) (m : Mover) (v : Word) (s : State) : Res :=
  .next (s.onHub fun h => noMoverCheck (plainWrite h o (pMOV m.val) 0x100 v.toNat))

/-! ### Management commands -/

/-- A management command takes effect: of this opcode, valid, not yet begun, and with FENCE only after the queue's earlier
ops (R285, R288). -/
def mgmtRun (h : Hub) (tok opc : Nat) (f : Hub → Op → Queue → Hub) : Hub :=
  match opOf h tok with
  | some o =>
    if o.st = .mgmt && eOpc o.entry = opc && !(eFence o.entry && earlierOut h o) then f h o (queue h o.q) else h
  | none => h

/-- A command completes with MGMT_REFUSED and changes nothing (R288). -/
def refused (h : Hub) (tok : Nat) : Hub := opEnds h tok 0x1C 0 0

/-- A command has taken effect and waits for what R291, R298 or R331 names. -/
def mgmtHolds (h : Hub) (tok : Nat) (inval : Bool) : Hub := modOp h tok (fun o => { o with st := .waiting, inval := inval })

/-- NOP (R288). -/
def execNop (tok : Nat) (s : State) : Res := .next (s.onHub fun h => mgmtRun h tok 0x40 (fun h _ _ => opEnds h tok 0 0 0))

/-- REACH_CREATE (R282, R289). -/
def execReachCreate (tok : Nat) (s : State) : Res :=
  .next (s.onHub fun h => mgmtRun h tok 0x41 (fun h o x =>
    let lines := eB o.entry 16 8 / 64
    let base := if x.int then resolveInternal h (eB o.entry 8 8) lines
      else resolveHpa h x.bay (eB o.entry 8 8 / 64) lines
    match base, freeReach 65536 h.mov.reach 0 with
    | some b, some i =>
      if 65536 ≤ i then refused h tok
      else
        let g := (reachOf h i).gen
        let h := putReach h i { base := b, lines := lines, perm := eB o.entry 26 1 % 8, gen := g, valid := true,
                                bay := ownerCode x, ctx := eB o.entry 24 2, retired := false }
        opEnds h tok 0 (ownNode h * 2 ^ 25 + i * 32 + g) 0
    | _, _ => refused h tok))

/-- REACH_REVOKE (R291). -/
def execReachRevoke (tok : Nat) (s : State) : Res :=
  .next (s.onHub fun h => mgmtRun h tok 0x42 (fun h o x =>
    let hd := eB o.entry 8 4
    let r := reachOf h (hIdx hd)
    if hNode hd != ownNode h || 65536 ≤ hIdx hd || !r.valid || r.gen != hGen hd || r.bay != ownerCode x then refused h tok
    else mgmtHolds (putReach h (hIdx hd) { r with valid := false, gen := (r.gen + 1) % 32, retired := r.gen == 31 }) tok false))

/-- QUEUE_CREATE (R282, R288). -/
def execQueueCreate (tok : Nat) (s : State) : Res :=
  .next (s.onHub fun h => mgmtRun h tok 0x43 (fun h o x =>
    let q := eB o.entry 8 2
    let y := queue h q
    if mgmtQueue q || 16384 ≤ q || ownerCode y != ownerCode x || y.int != x.int || !(y.st == .idle || y.st == .stopped) ||
        !(opsOf h q).isEmpty then refused h tok
    else
      let e := o.entry
      let h := modQueue h q (fun y => { y with
        st := .enabled, cause := 0, prio := eB e 12 1 % 8, mirror := !y.int && eB e 13 1 = 1, group := eB e 14 1 % 4,
        sqLog2 := eB e 10 1, cqLog2 := eB e 11 1, sqBase := eB e 16 8, cqBase := eB e 24 8,
        pasid := if y.int then 0 else eB e 32 4 % 2 ^ 20, ctx := eB e 36 2, vector := if y.int then 0 else eB e 38 2 % 2048,
        accept := 0, complete := 0, tail := 0, head := 0, pushed := [] })
      opEnds h tok 0 0 0))

/-- Ops of a queue that have not been dispatched complete with ABORTED (R298). -/
def abortUndispatched (h : Hub) (q self : Nat) : Hub :=
  (opsOf h q).foldl (fun h t =>
    match t.2.st with
    | .fence => opEnds h t.1 0x1B 0 0
    | .queued => opEnds h t.1 0x1B 0 0
    | .mgmt => if t.1 = self then h else opEnds h t.1 0x1B 0 0
    | _ => h) h

/-- QUEUE_DESTROY (R298). -/
def execQueueDestroy (tok : Nat) (s : State) : Res :=
  .next (s.onHub fun h => mgmtRun h tok 0x44 (fun h o x =>
    let q := eB o.entry 8 2
    let y := queue h q
    if 16384 ≤ q || ownerCode y != ownerCode x || y.int != x.int || y.st != .enabled then refused h tok
    else
      let h := mgmtHolds (modQueue h q (fun y => { y with st := .destroying })) tok false
      let h := forget (abortUndispatched h q tok) (fun w => w == .sq q)
      noMoverCheck (destroyCheck h q)))

/-- QUEUE_SET_PRIO (R237, R288): the new priority governs the requests that wait, too, whose base priority is read from
their queue at each round. -/
def execQueueSetPrio (tok : Nat) (s : State) : Res :=
  .next (s.onHub fun h => mgmtRun h tok 0x45 (fun h o x =>
    let q := eB o.entry 8 2
    let y := queue h q
    let p := eB o.entry 10 1 % 8
    if 16384 ≤ q || ownerCode y != ownerCode x || y.int != x.int || y.st == .unassigned then refused h tok
    else opEnds (modQueue h q (fun y => { y with prio := p })) tok 0 0 0))

/-- XLT_BIND (R315, R319). -/
def execXltBind (tok : Nat) (s : State) : Res :=
  .next (s.onHub fun h => mgmtRun h tok 0x50 (fun h o x =>
    let k := ownerCode x * 2 ^ 20 + eB o.entry 8 3 % 2 ^ 20
    let hd := eB o.entry 12 4
    let r := reachOf h (hIdx hd)
    if 1024 ≤ h.xlt.binds.length || (mapGet? h.xlt.binds k).isSome || hNode hd != ownNode h || 65536 ≤ hIdx hd ||
        !r.valid || r.bay != ownerCode x then refused h tok
    else
      let b : Bind := { handle := hd, root := eB o.entry 16 8, ctx := eB o.entry 24 2 }
      opEnds { h with xlt := { h.xlt with binds := mapPut h.xlt.binds k b } } tok 0 0 0))

/-- XLT_INVAL (R329). -/
def execXltInval (tok : Nat) (s : State) : Res :=
  .next (s.onHub fun h => mgmtRun h tok 0x51 (fun h o x =>
    let all := bit (eB o.entry 11 1) 0
    mgmtHolds (invAsk h { src := .op o.seq, bay := ownerCode x, pasid := if all then none else some (eB o.entry 8 3 % 2 ^ 20),
                          va := eB o.entry 16 8, len := eB o.entry 24 8 }) tok true))

/-- XLT_RESUME (R325, R326). -/
def execXltResume (tok : Nat) (s : State) : Res :=
  .next (s.onHub (withStops fun h => mgmtRun h tok 0x52 (fun h o x =>
    let i := eB o.entry 8 1
    match mapGet? h.xlt.faults i with
    | none => refused (setIstat (bump h pXLT Fld.XLT.LATE_RSP_CNT) pXLT 4) tok
    | some f =>
      if !f.mirror || f.bay != ownerCode x then refused h tok
      else opEnds (faultEnds h i (eB o.entry 9 1 = 0)) tok 0 0 0)))

/-- XLT_FRING (R319). -/
def execXltFring (tok : Nat) (s : State) : Res :=
  .next (s.onHub fun h => mgmtRun h tok 0x53 (fun h o x =>
    let r : FRing := { log2 := eB o.entry 8 1, vector := eB o.entry 10 2, base := eB o.entry 16 8, cnt := 0 }
    opEnds { h with xlt := { h.xlt with rings := mapPut h.xlt.rings (ownerCode x) r } } tok 0 0 0))

/-- XLT_UNBIND (R319, R329). -/
def execXltUnbind (tok : Nat) (s : State) : Res :=
  .next (s.onHub fun h => mgmtRun h tok 0x54 (fun h o x =>
    let p := eB o.entry 8 3 % 2 ^ 20
    let k := ownerCode x * 2 ^ 20 + p
    if (mapGet? h.xlt.binds k).isNone then refused h tok
    else
      let h := { h with xlt := { h.xlt with binds := mapDel h.xlt.binds k } }
      mgmtHolds (invAsk h { src := .op o.seq, bay := ownerCode x, pasid := some p, va := 0, len := 0 }) tok true))

/-! ### Translation -/

/-- ATS_TRANSLATION_COMPLETION (R309, R312, R313, R330). A result without the permission that is needed is a fault; for a read,
R (DEDUCED, log entry 95). -/
def execAtsTranslationCompletion (slot : Nat) (r : AtsResult) (s : State) : Res :=
  .next (s.onHub (withStops fun h =>
    match mapGet? h.xlt.slots slot with
    | none => h
    | some x =>
      if x.mirror then h
      else
        match r with
        | .ok pa log2 rd w u =>
          if !(if x.write then w else rd) then xlatEnds h slot x (.inr 1)
          else xlatEnds h slot x (.inl (atsEntry x pa (max log2 12) w u))
        | .urOrCa => xlatEnds h slot x (.inr 1)))

/-- A walk cannot go on: its translation fails, without a fault that could be answered (DESIGN CHOICE, log entry 34). -/
def walkFails (h : Hub) (slot : Nat) (x : Xlat) : Hub :=
  let h := slotEnds h slot
  if x.demand && !x.cancelled then waiterFails (faultFail h x.bay x.pasid x.page) x.who else poke h x.who

/-- MIRROR_WALK_READ (R316, R317, R330). -/
def execMirrorWalkRead (slot : Nat) (s : State) : Res :=
  .next (s.onHub (withStops fun h =>
    match mapGet? h.xlt.slots slot, h.coh.mres.find? (fun r => r.tok == 1024 + slot) with
    | some x, some r =>
      let h := { h with coh := { h.coh with mres := h.coh.mres.filter (fun r => r.tok != 1024 + slot) } }
      if r.poison then walkFails h slot x
      else
        (match tableEntry x.level (bits r.data.toNat (64 * (x.off / 8 % 8)) 64) x.write with
        | .bad reason => xlatEnds h slot x (.inr reason)
        | .leaf size pa w => xlatEnds h slot x (.inl (walkTlb x r.data size pa w))
        | .next off =>
          let lvl := x.level - 1
          match bindOf h x.bay x.pasid with
          | none => walkFails h slot x
          | some b =>
            let prio := (queue h (waiterIds h x.who).1).prio
            let (h, ok) := walkRead h slot { x with level := lvl, off := off + 8 * walkIdx lvl x.page } b prio
            if ok then h else walkFails h slot x)
    | _, _ => h))

/-- A response for a fault entry that is free (R326). -/
def lateRsp (h : Hub) : Hub := setIstat (bump h pXLT Fld.XLT.LATE_RSP_CNT) pXLT 4

/-- PRG_RESPONSE (R324, R326). -/
def execPrgResponse (b : Bay) (idx : Nat) (c : PrgCode) (s : State) : Res :=
  .next (s.onHub (withStops fun h =>
    match mapGet? h.xlt.faults idx with
    | none => lateRsp h
    | some f =>
      if f.mirror || f.bay != b.val then lateRsp h
      else
        match c with
        | .success => faultEnds h idx true
        | .invalid => faultEnds h idx false
        | .failure => faultEnds { h with xlt := { h.xlt with priFail := b.val :: h.xlt.priFail.filter (· != b.val) } } idx false))

/-- FAULT_TIMEOUT (R326). -/
def execFaultTimeout (idx : Nat) (s : State) : Res :=
  .next (s.onHub (withStops fun h =>
    match mapGet? h.xlt.faults idx with
    | none => h
    | some f => faultEnds (advanceTo h (f.time + fld h pXLT Fld.XLT.CFG_FAULT_TO_MS * 2000000)) idx false))

/-- ATS_INVALIDATE_REQUEST (R329). -/
def execAtsInvalidateRequest (b : Bay) (glob : Bool) (pasid va log2 tag : Nat) (s : State) : Res :=
  .next (s.onHub fun h =>
    if !bayUp h b.val then h
    else
      let n := 2 ^ max log2 12
      invAsk h { src := .host tag, bay := b.val, pasid := if glob then none else some pasid, va := va / n * n, len := n })

/-- Every op on a stream goes on. -/
def pumpAll (h : Hub) : Hub :=
  (h.mov.toks.map (·.1)).foldl pump h

/-- INVALIDATION_START (R330, R333). -/
def execInvalidationStart (s : State) : Res :=
  .next (s.onHub (withStops fun h => if h.xlt.run.isNone && !h.xlt.invs.isEmpty then pumpAll (invStart h) else h))

/-- INVALIDATION_SWEEP_END (R330): the sweep ends 2,050 hc after the invalidation reached the engine. -/
def execInvalidationSweepEnd (s : State) : Res :=
  .next (s.onHub fun h =>
    match h.xlt.run with
    | some (v, t, false) =>
      let h := advanceTo h (t + 2050)
      { h with xlt := { h.xlt with run := some (v, t, true) } }
    | _ => h)

/-- A host read under a matching translation has not returned its data (R331). -/
def readsOut (h : Hub) (v : Inv) : Bool :=
  h.mov.toks.any (fun t =>
    let x := queue h t.2.q
    t.2.flight.any (fun f => f.host && f.pages.any (fun p => v.hits x.bay x.pasid p.1 4096)))

/-- INVALIDATION_COMPLETE (R331). -/
def execInvalidationComplete (s : State) : Res :=
  .next (s.onHub fun h =>
    match h.xlt.run with
    | some (v, _, true) =>
      if readsOut h v then h
      else
        let h := { h with xlt := { h.xlt with run := none } }
        (match v.src with
        | .host tag => emit h (.invDone v.bay tag)
        | .op seq =>
          match h.mov.toks.find? (fun t => t.2.seq == seq) with
          | some (t, _) => pump (modOp h t (fun o => { o with inval := false })) t
          | none => h)
    | _ => h)

/-- MIG_HOLD_EXPIRY (R333). -/
def execMigHoldExpiry (i : Nat) (s : State) : Res :=
  .next (s.onHub (withStops fun h =>
    match mapGet? h.xlt.holds i with
    | some x =>
      (match x.posted with
      | some t =>
        let h := advanceTo h (t + fld h pXLT Fld.XLT.CFG_MIG_HOLD_MS * 2000000)
        let h := { h with xlt := { h.xlt with holds := mapDel h.xlt.holds i } }
        let h := errlog (bump h pXLT Fld.XLT.MIG_EXPIRE_CNT) pXLT 2 0 (x.pasid + 2 ^ 20 * x.bay)
        pumpAll (setIstat h pXLT 3)
      | none => h)
    | none => h))

/-- ACN_DECAY_SWEEP (R335). -/
def execAcnDecaySweep (s : State) : Res :=
  .next (s.onHub fun h =>
    let t := h.meter.decayAt + 2 ^ fld h pACN Fld.ACN.CFG_DECAY_LOG2 * 2000
    let h := advanceTo h t
    { h with meter := { h.meter with
        decayAt := t, sets := h.meter.sets.map (fun e => (e.1, { e.2 with slots := e.2.slots.map (· / 2) })) } })

end Sys2Proof.Machine
end

