-- ==== Sys2Proof/Machine/Tulle.lean ====
section
/-! DEFINITION. Tulle's management: HELLO and admission (R114 to R117), the link-state database (R116), membership and
quorum (R118, R119, R141), epochs (R122 to R126), fences (R139), the handoff's ends (R457). -/

namespace Sys2Proof.Machine

/-! ### Small parts -/

/-- Change the Tulle state. -/
def modTulle (h : Hub) (f : Tulle → Tulle) : Hub := { h with tulle := f h.tulle }

/-- Log a disagreement (R145). -/
def disagree (h : Hub) (code node bay : Nat) : Hub :=
  let h := setFld h pTUL Fld.TUL.DISAGREE_CODE code
  let h := setFld h pTUL Fld.TUL.DISAGREE_NODE node
  setIstat (setFld h pTUL Fld.TUL.DISAGREE_BAY bay) pTUL 1

/-- The LSDB or the present set changed: the automatic proposal is due 1 ms later (R123). -/
def noteChange (h : Hub) : Hub := modTulle h (fun t => { t with changed := true, changedAt := h.htime })

/-- An FTIME lies ahead of now, judged modulo 2^64. -/
def ftimeAhead (h : Hub) (t : Nat) : Bool := let d := sub64 t (ftime h); d != 0 && d < 2 ^ 63

/-- n free bytes, which the spec does not give. -/
def freeBytes (h : Hub) (n : Nat) : List Nat × Hub :=
  ((List.range n).map (fun i => (Config.freeValue (h.free + i)).toNat % 256), { h with free := h.free + n })

/-- The management channels run: outside BENCH, and in SEAL until its sequence has ended (R18, R119). -/
def tulleRuns (h : Hub) : Bool := h.mode.mode != .bench && h.mode.sealPhase != 8

/-! ### HELLO (R114, R115, R117) -/

/-- The contents of this hub's HELLO (Table TUL-9). -/
def helloMsg (h : Hub) : HelloMsg :=
  let p := h.tulle.profile
  { serial := fld64 h pGLB Fld.GLB.SERIAL_LO Fld.GLB.SERIAL_HI
    fabricId := match p with
      | some p => p.fabricId
      | none => 0
    digest := h.tulle.digest
    epoch := h.tulle.epoch
    profSer := match p with
      | some p => p.serial
      | none => 0
    zhSvn := fld h pLDG Fld.LDG.ZH_SVN
    mode := h.mode.mode.code
    present := h.tulle.joined
    fenced := flag h pTIME Fld.TIME.STAT_FENCED
    quorum := quorumHeld h
    levelLo := 1
    levelHi := 1 }

/-- Send HELLO on a link. -/
def sendHello (h : Hub) (b : Nat) : Hub :=
  if (tlink h b).up && tulleRuns h then
    modLink (sendLink h b 0x60 (ownNode h) 31 0 (.hello (helloMsg h))) b (fun l => { l with helloAt := h.htime })
  else h

/-- HELLO is sent again whenever its contents change. -/
def helloAgain (before after : Hub) : Hub :=
  if helloMsg before = helloMsg after then after
  else ((after.tulle.links.filter (fun e => e.2.up)).map (·.1)).foldl sendHello after

/-- Lanes of a width code and rate of a rate code in tenths of GT/s (Table BAY-6). -/
def lanesOf (code : Nat) : Nat := 2 ^ code

/-- Rate of a code, in tenths of GT/s (Table BAY-6). -/
def rateOf (code : Nat) : Nat := ([25, 50, 80, 160, 320, 640] : List Nat).getD code 25

/-- Cost of a link (R117). -/
def linkCost (h : Hub) (b : Nat) : Nat :=
  let d := lanesOf (fld h (pBAY b) Fld.BAY.LSTAT_WIDTH) * rateOf (fld h (pBAY b) Fld.BAY.LSTAT_RATE)
  (10240 + d - 1) / d

/-! ### The link-state database (R116) -/

/-- The links this hub advertises. -/
def ownLinks (h : Hub) : List LsaLink :=
  (admittedLinks h).map (fun b => { peer := (tlink h b).peer, bay := b, cost := (tlink h b).cost })

/-- Flood this hub's LSA with the next sequence. -/
def sendLsa (h : Hub) : Hub :=
  let n := (h.tulle.lsaSeq + 1) % 2 ^ 32
  let ls := ownLinks h
  let changed := (nodeRt h (ownNode h)).links != ls
  let h := modNode h (ownNode h) (fun r => { r with lsaSeq := some n, links := ls })
  let h := modTulle h (fun t => { t with lsaSeq := n, lsaAt := h.htime })
  let h := flood h 0x62 (.lsa n ls)
  if changed then noteChange h else h

/-- The payload of an LSA (Table TUL-9). -/
def lsaBytes (seq : Nat) (ls : List LsaLink) : List Nat :=
  leBytes 4 seq ++ [ls.length] ++ List.replicate 11 0 ++
    ls.flatMap (fun l => [l.peer % 128, l.bay % 64] ++ leBytes 2 l.cost) ++ List.replicate ((4 - ls.length % 4) % 4 * 4) 0

/-- The LSDB digest of PROPOSE (R143), as a number. -/
def lsdbDigest (h : Hub) : Nat :=
  ofLeBytes (sha384 ((h.tulle.nodes.filter (fun e => e.2.lsaSeq.isSome)).flatMap
    (fun e => lsaBytes (e.2.lsaSeq.getD 0) e.2.links)))

/-- A sequence exceeds another, modulo 2^32 with a window of 2^31 (R144). -/
def seqNewer (n : Nat) (old : Option Nat) : Bool :=
  match old with
  | none => true
  | some o => let d := (n + 2 ^ 32 - o % 2 ^ 32) % 2 ^ 32; d != 0 && d < 2 ^ 31

/-- The flows with a node start at 0 again (R131). -/
def freshFlows (h : Hub) (n : Nat) : Hub :=
  modTulle h (fun t => { t with sendSeq := t.sendSeq.filter (fun e => e.1 / 8 != n),
                                recvSeq := t.recvSeq.filter (fun e => e.1 / 8 != n) })

/-- A node is admitted afresh: a hub that was declared dead is heard again, and the flows with it start at 0 (R131,
R141). -/
def readmit (h : Hub) (n : Nat) : Hub :=
  let was := (nodeRt h n).dead
  let h := modNode h n (fun r => { r with dead := false, hbSeq := if r.dead then none else r.hbSeq, sealed := false,
                                          timed := r.timed && !r.dead })
  if was then freshFlows h n else h

/-- Store an LSA that is new. A node that a living node's LSA newly lists is admitted afresh (DEDUCED, log entry 33). -/
def storeLsa (h : Hub) (n seq : Nat) (ls : List LsaLink) : Hub :=
  let old := (nodeRt h n).links
  let fresh := (ls.map (·.peer)).filter (fun p => !old.any (fun k => k.peer == p) && (nodeRt h p).dead && p != n)
  let h := if (nodeRt h n).dead then h else fresh.foldl readmit h
  let h := modNode h n (fun r => { r with lsaSeq := some seq, lsaAny := false, links := ls })
  if old = ls then h else noteChange h

/-! ### Handoff ends (R127, R457) -/

/-- Set or clear FROZEN of a granule (Table TUL-3). -/
def setFrozen (h : Hub) (g : Nat) (v : Bool) : Hub :=
  let e : HEntry := { mapGet h.tulle.homeMap g unmappedEntry with frozen := v }
  modTulle h (fun t => { t with homeMap := mapSet t.homeMap g e unmappedEntry })

/-- Requests for the granule that wait in the ingress queues as it becomes FROZEN wait on its handoff queue from now on
(R127, R199). -/
def freezeQueue (h : Hub) (g : Nat) : Hub :=
  let mine := fun (x : Ing) => x.pool == 0 && granuleOf x.req.line == g
  let late := (h.coh.ingress.filter mine).map (fun x => { x with lane := none })
  { h with coh := { h.coh with ingress := h.coh.ingress.filter (fun x => !mine x)
                               hoQueue := h.coh.hoQueue ++ late } }

/-- HO_STAT. -/
def hoStat (h : Hub) (st cause : Nat) : Hub :=
  setFld (setFld h pMOD Fld.MOD.HO_STAT_STATE st) pMOD Fld.MOD.HO_STAT_CAUSE cause

/-- Requests of the granule's handoff queue return to the front of ingress, in order (R457): every request for the granule
since the freeze is among them, so none of its source and line stands before it (R233). -/
def unqueue (h : Hub) (g : Nat) : Hub :=
  let mine := (h.coh.hoQueue.filter (fun x => granuleOf x.req.line == g)).map (fun x => { x with since := h.htime })
  { h with coh := { h.coh with hoQueue := h.coh.hoQueue.filter (fun x => granuleOf x.req.line != g),
                               ingress := mine ++ h.coh.ingress } }

/-- Send an HO_CTL message (Table TUL-9). -/
def sendHo (h : Hub) (n gran st loc count owners : Nat) : Hub :=
  sendMsg h n 0x6D (intAgent (ownNode h)) 0 0 0 false 0 (.handoff gran st loc count owners)

/-- Change the mode (MOD.ISTAT.MODE_CHANGE). A departure from SERVE and DRAIN voids a health declaration (R404). -/
def setMode (h : Hub) (m : Mode) : Hub :=
  if h.mode.mode = m then h
  else
    let h := if m = .serve || m = .drain then h else setFld h pLDG Fld.LDG.BOOT_HEALTH 0
    setIstat { h with mode := { h.mode with mode := m } } pMOD 0

/-- SERVE that waits for the handoff to end (Table MOD-1). -/
def serveAfterHandoff (h : Hub) : Hub :=
  if h.mode.toServe && h.mode.mode = .drain then
    let h := { h with mode := { h.mode with toServe := false } }
    raise (setMode (setFld h pMOD Fld.MOD.REQ_STAT_OUTCOME 1) .serve) 75
  else { h with mode := { h.mode with toServe := false } }

/-- The handoff that this hub runs aborts (R457). -/
def handAbort (h : Hub) (cause : Nat) : Hub :=
  match h.tulle.handA with
  | none => h
  | some a =>
    let h := modTulle h (fun t => { t with handA := none })
    let h := if (mapGet h.tulle.homeMap a.gran unmappedEntry).frozen then setFrozen h a.gran false else h
    let h := if cause = 1 || cause = 4 then h else sendHo h a.target a.gran 5 a.loc 0 0
    let h := hoStat (unqueue h a.gran) 6 cause
    serveAfterHandoff (setIstat (bump h pMOD Fld.MOD.HO_ABORT_CNT) pMOD 3)

/-! ### Proposals (R123, R124) -/

/-- This hub's proposal aborts (R124). -/
def abortProp (h : Hub) (cause : Nat) : Hub :=
  match h.tulle.own with
  | none => h
  | some o =>
    let keep := h.tulle.staged.filter (fun s => s.proposer != ownNode h)
    let h := modTulle h (fun t => { t with own := none, staged := keep })
    let h := setFld (setFld h pHMAP Fld.HMAP.PROP_STAT_STATE 3) pHMAP Fld.HMAP.PROP_STAT_CAUSE cause
    let h := setIstat h pHMAP 1
    if o.handoff then handAbort h 3 else if o.chakacon then h else noteChange h

/-- Mode of a node as R140 judges it; none for a node that is not present. -/
def nodeMode (h : Hub) (n : Nat) : Nat :=
  if n = ownNode h then h.mode.mode.code else if (nodeRt h n).present then (nodeRt h n).mode else 0

/-- The time root of a new epoch (R136). -/
def pickRoot (h : Hub) : Option Nat :=
  match h.tulle.profile with
  | none => none
  | some p => p.roots.find? (fun n => n < 128 && isPresent h n &&
      !(if n = ownNode h then flag h pTIME Fld.TIME.STAT_TIME_SUSPECT || flag h pTIME Fld.TIME.STAT_FENCED
        else (nodeRt h n).suspect || (nodeRt h n).fenced))

/-- This member may answer a proposal that brings these members: no open record for, nor foreign entry of, a node that it
adds (R258); entries received by handoff for a granule it gains are committed (R268). -/
def mayAnswer (h : Hub) (p : StagedProp) : Bool :=
  let added := p.members.filter (fun n => n != ownNode h && !h.tulle.members.contains n)
  added.all (fun n => !agentDead h (rlcAgent n) &&
    !h.psn.entries.any (fun e => e.2.kind == 2 && agentNode e.2.agent == n)) &&
  p.entries.all (fun x => !(x.2.home == ownNode h && x.2.valid) || h.psn.pend.all (fun i => match i.1 with
    | .new e _ => granuleOf e.line != x.1
    | .mark g _ => g != x.1
    | _ => true))

/-- A proposal gives a granule to a node in DRAIN or MAINTAIN (R123). -/
def givesAway (h : Hub) (es : List (Nat × HEntry)) : Bool :=
  es.any (fun x => x.2.valid && (nodeMode h x.2.home == 3 || nodeMode h x.2.home == 4) &&
    !((homeEntry h x.1).valid && (homeEntry h x.1).home == x.2.home))

/-- Answer the staged proposal once it is whole (R123). -/
def answerStaged (h : Hub) : Hub :=
  match h.tulle.staged with
  | none => h
  | some p =>
    if p.answered || p.proposer = ownNode h || p.entries.length < p.count then h
    else if givesAway h p.entries then
      let h := modTulle h (fun t => { t with staged := none })
      disagree (sendMsg h p.proposer 0x66 (intAgent (ownNode h)) 0 0 0 false 0 (.refuse p.epoch 9)) 9 p.proposer 0
    else if !mayAnswer h p then h
    else
      let h := modTulle h (fun t => { t with staged := some { p with answered := true } })
      sendMsg h p.proposer 0x65 (intAgent (ownNode h)) 0 0 0 false 0 (.epoch p.epoch)

/-- The proposer holds every ACK: COMMIT is flooded with the activation time (R123). -/
def tryCommit (h : Hub) : Hub :=
  match h.tulle.own with
  | some o =>
    if o.committed || !o.awaiting.isEmpty then h
    else
      let t0 := (ftime h + 200000) % 2 ^ 64
      let h := modTulle h (fun t => { t with own := some { o with committed := true }, commitAt := some (o.epoch, t0) })
      let h := setFld (setFld h pHMAP Fld.HMAP.PROP_STAT_STATE 2) pHMAP Fld.HMAP.PROP_STAT_CAUSE 0
      flood (setIstat h pHMAP 1) 0x67 (.commit o.epoch t0)
  | none => h

/-- PROP_MAP messages of 32 entries each. -/
def sendPropMaps : Nat → Hub → Nat → Nat → List (Nat × HEntry) → Hub
  | 0, h, _, _, _ => h
  | _, h, _, _, [] => h
  | n + 1, h, ep, first, es =>
    sendPropMaps n (flood h 0x64 (.propMap ep first (es.take 32))) ep (first + 32) (es.drop 32)

/-- The proposal staged now still runs: its PROPOSE is no older than 10 ms, or it is committed (R124). -/
def stagedLive (h : Hub) (p : StagedProp) : Bool :=
  h.tulle.commitAt.isSome || h.tulle.floods.any (fun f =>
    f.1 == 0x63 && f.2.1 == p.proposer && f.2.2.1 == p.epoch && h.htime - f.2.2.2 ≤ 20000000)

/-- Another proposal for the next epoch stands before one of this hub: it is committed, or comes from a lower node and runs
(R124). -/
def propBlocked (h : Hub) : Bool :=
  h.tulle.commitAt.isSome || (match h.tulle.staged with
    | some p => decide (p.proposer < ownNode h) && stagedLive h p
    | none => false)

/-- A proposal of Chakacon that another one stands before aborts at once (DESIGN CHOICE, log entry 82). -/
def propConflict (h : Hub) : Hub :=
  let h := setFld (setFld h pHMAP Fld.HMAP.PROP_STAT_STATE 3) pHMAP Fld.HMAP.PROP_STAT_CAUSE 0x0A
  let n := match h.tulle.staged with
    | some p => p.proposer
    | none => ownNode h
  disagree (setIstat h pHMAP 1) 0x0A n 0

/-- This hub proposes the next epoch (R123). Nothing happens while an own proposal runs; where another stands before it, an
automatic one and that of a handoff wait (DESIGN CHOICE, log entry 82). -/
def propose (h : Hub) (es : List (Nat × HEntry)) (chakacon handoff : Bool) : Hub :=
  if h.tulle.own.isSome || !tulleRuns h || h.tulle.profile.isNone then h
  else if propBlocked h then (if chakacon then propConflict h else h)
  else
    let ep := (h.tulle.epoch + 1) % 2 ^ 64
    let ms := presentNodes h
    let root := pickRoot h
    let st : StagedProp := { epoch := ep, proposer := ownNode h, members := ms, count := es.length, root := root,
                             entries := es, lsdb := lsdbOf h, answered := true }
    let await := ms.filter (fun n => n != ownNode h || !mayAnswer h st)
    let o : OwnProp := { epoch := ep, awaiting := await, chakacon := chakacon, handoff := handoff, committed := false,
                         at_ := h.htime }
    let again := if chakacon || handoff then h.tulle.changed else false
    let h := modTulle h (fun t => { t with own := some o, staged := some st, changed := again })
    let h := setFld (setFld h pHMAP Fld.HMAP.PROP_STAT_STATE 1) pHMAP Fld.HMAP.PROP_STAT_CAUSE 0
    let h := flood h 0x63 (.propose { epoch := ep, members := ms, digest := lsdbDigest h, count := es.length, root := root })
    let h := sendPropMaps (es.length / 32 + 1) h ep 0 es
    if givesAway h es then disagree (abortProp h 9) 9 (ownNode h) 0 else tryCommit h

/-- The proposer's own answer, where R258 or R268 held it back. -/
def ownReady (h : Hub) : Hub :=
  match h.tulle.own, h.tulle.staged with
  | some o, some p =>
    if o.awaiting.contains (ownNode h) && p.proposer = ownNode h && mayAnswer h p then
      tryCommit (modTulle h (fun t => { t with own := some { o with awaiting := o.awaiting.erase (ownNode h) } }))
    else h
  | _, _ => h

/-- Entry of a granule that is handed off (Table MOD-3). -/
def handEntry (h : Hub) (a : HandA) : HEntry :=
  { homeEntry h a.gran with home := a.target, loc := a.loc, frozen := false }

/-- A granule whose freeze B has acknowledged is proposed, as soon as no other own proposal runs (Table MOD-3). -/
def handPropose (h : Hub) : Hub :=
  match h.tulle.handA with
  | some a =>
    if a.acked && a.st = .freeze && h.tulle.own.isNone && !propBlocked h && tulleRuns h then
      let h := hoStat (modTulle h (fun t => { t with handA := some { a with st := .proposed } })) 4 0
      propose h [(a.gran, handEntry h a)] false true
    else h
  | none => h

/-- The staged entries that differ from the map in force, FROZEN apart (R122, R124). -/
def stageDiffs (h : Hub) : List (Nat × HEntry) :=
  let gs := ((h.tulle.stage.map (·.1)) ++ (h.tulle.homeMap.map (·.1))).eraseDups
  (gs.map (fun g => (g, { mapGet h.tulle.stage g unmappedEntry with frozen := false }))).filter
    (fun x => x.2 != { homeEntry h x.1 with frozen := false })

/-! ### Members (R118, R119, R141, R259) -/

/-- The granules whose entry names a node. -/
def granulesOf (h : Hub) (n : Nat) : List Nat := (h.tulle.homeMap.filter (fun e => e.2.home == n && e.2.valid)).map (·.1)

/-- A request of a local host or device, by its bay. -/
def localBay (r : Req) : Option Nat :=
  match r.who with
  | .host b _ => some b
  | .dev b => some b
  | _ => none

/-- A request that waits is refused by the mode, with the completion of R481 (R21). -/
def rejectOne (h : Hub) (r : Req) : Hub :=
  match localBay r with
  | some b => notServed (modeReject h b) r
  | none => h

/-- In ASSEMBLE and MAINTAIN no request waits to be served: those of local hosts and devices that have not been granted are
refused (R21, R450). -/
def rejectWaiting (h : Hub) : Hub :=
  let mine := fun (r : Req) => (localBay r).isSome
  let gone := ((h.coh.hoQueue ++ h.coh.ingress).map (·.req) ++ h.coh.staging.map (·.req)).filter mine
  gone.foldl rejectOne { h with coh := { h.coh with
    hoQueue := h.coh.hoQueue.filter (fun x => !mine x.req)
    ingress := h.coh.ingress.filter (fun x => !mine x.req)
    staging := h.coh.staging.filter (fun x => !mine x.req) } }

/-- The hub returns to ASSEMBLE (R119, R139): every peer's agents are departed, and so is every home but its own. -/
def toAssemble (h : Hub) : Hub :=
  let peers := (h.tulle.nodes.map (·.1)).filter (fun n => n != ownNode h)
  let h := rejectWaiting (setMode { h with mode := { h.mode with toMaintain := false } } .assemble)
  let h := modTulle (handAbort h 4) (fun t => { t with handB := [] })
  let h := peers.foldl (fun h n => declareNode h n 7) h
  let homes := ((h.tulle.homeMap.map (fun e => e.2.home)).eraseDups).filter (fun n => n != ownNode h)
  let h := homes.foldl (fun h n => departHome h n (granulesOf h n)) h
  modTulle h (fun t => { t with joined := false })

/-- Quorum is judged again: a hub in SERVE, DRAIN or MAINTAIN without it returns to ASSEMBLE (R119). -/
def judgeQuorum (h : Hub) : Hub :=
  if !quorumHeld h && (h.mode.mode = .serve || h.mode.mode = .drain || h.mode.mode = .maintain) then
    toAssemble (setIstat (disagree h 8 0 0) pTUL 3)
  else h

/-- A present member is declared dead (R141). -/
def memberLost (h : Hub) (n cause : Nat) : Hub :=
  let h := modNode h n (fun r => { r with present := false, dead := true, mode := 0, suspect := false, timed := false })
  let h := noteChange (setIstat (declareNode h n cause) pTUL 2)
  let h := match h.tulle.handA with
    | some a => if a.target = n then handAbort h 4 else h
    | none => h
  let toward := fun (x : Nat × Bool) =>
    (mapGet h.tulle.homeMap (if x.2 then x.1 else granuleOf x.1) unmappedEntry).home == n
  let h := { h with psn := { h.psn with sent := h.psn.sent.filter (fun x => !toward x) } }
  let h := modTulle h (fun t => { t with handB := t.handB.filter (fun b => b.from_ != n),
                                         fetch := t.fetch.filter (fun f => f.peer != n) })
  let h := match h.tulle.own with
    | some o => if o.awaiting.contains n then abortProp h 0 else h
    | none => h
  judgeQuorum h

/-! ### Poison Ledger transfers (R264, R270) -/

/-- PSN_XFER messages of two entries each. -/
def sendXfers : Nat → Hub → Nat → List PsnEntry → Hub
  | 0, h, _, _ => h
  | _, h, _, [] => h
  | k + 1, h, n, es =>
    sendXfers k (sendMsg h n 0x6E (intAgent (ownNode h)) 0 0 0 false 0 (.xfer 0 false false (es.take 2)))
      n (es.drop 2)

/-- Send a node the foreign entries held for it, and the marks of granules that it homes, once each. -/
def sendForeign (h : Hub) (n : Nat) : Hub :=
  let es := (h.psn.entries.filter (fun e => !h.psn.sent.contains (e.2.line, false) &&
    (if e.2.kind = 2 then agentNode e.2.agent == n
     else h.tulle.joined && (homeEntry h (granuleOf e.2.line)).valid && (homeEntry h (granuleOf e.2.line)).home == n))).map
    (·.2)
  let gs := ((h.psn.marks.map (·.1)).filter (fun g => !h.psn.sent.contains (g, true) &&
    (mapGet h.tulle.homeMap g unmappedEntry).home == n && (mapGet h.tulle.homeMap g unmappedEntry).valid))
  let h := sendXfers es.length h n es
  let h := gs.foldl (fun h g =>
    sendMsg h n 0x6E (intAgent (ownNode h)) 0 0 0 false 4 (.xfer g false true [])) h
  { h with psn := { h.psn with sent := h.psn.sent ++ es.map (fun e => (e.line, false)) ++ gs.map (fun g => (g, true)) } }

/-! ### Activation (R122, R123, R126, R128, R130, R136, R208, R259) -/

/-- A message that only its link carries: HELLO and SPDM (Table TUL-9). -/
def linkLocal (m : TMsg) : Bool := m.hdr.opc == 0x60 || m.hdr.opc == 0x61

/-- Messages put ahead of what a link's queue holds, in their order. -/
def linkPutFront (h : Hub) (b : Nat) (m : TMsg) : Hub :=
  modLink h b (fun l => { l with queue := { m with since := h.htime } :: l.queue })

/-- Held messages move to their new next hops, in their original order and ahead of later ones (R130). Messages for a
node that is dead are dropped; the others without a next hop stay held. -/
def moveHeld (h : Hub) : Hub :=
  let down := h.tulle.links.filter (fun e => !e.2.up || !e.2.admitted)
  let ms := (down.flatMap (fun e => e.2.queue.filter (fun m => !linkLocal m))) ++ h.tulle.held
  let h := down.foldl (fun h e => modLink h e.1 (fun l => { l with queue := l.queue.filter linkLocal })) h
  let h := modTulle h (fun t => { t with held := [] })
  ms.reverse.foldl (fun h m =>
    if (nodeRt h m.hdr.dstn).dead then freeTransit h m
    else match hopFor h m.hdr with
      | some b => if (tlink h b).up then linkPutFront h b m
        else modTulle h (fun t => { t with held := m :: t.held })
      | none => modTulle h (fun t => { t with held := m :: t.held })) h

/-- Consecutive granules, from the first, whose entries differ, ten to a MAP_DELTA record. -/
def deltaRuns : Nat → Hub → List Nat → List KBody
  | 0, _, _ => []
  | _, _, [] => []
  | n + 1, h, g :: gs =>
    .mapDelta g ((List.range 10).map (fun i => { homeEntry h (g + i) with frozen := false })) ::
      deltaRuns n h (gs.filter (fun x => g + 10 ≤ x))

/-- The home map that the keep store's records give. -/
def storedMap (h : Hub) : List (Nat × HEntry) :=
  match h.tulle.stored with
  | some (_, _, m) => m
  | none => []

/-- The map in force as the keep store takes it. -/
def mapToStore (h : Hub) : List (Nat × HEntry) :=
  h.tulle.homeMap.foldl (fun m x => mapSet m x.1 { homeEntry h x.1 with frozen := false } unmappedEntry) []

/-- The records of an activation (R126, R436), against what the keep store holds. -/
def mapRecords (before after : Hub) : List KBody :=
  let old := storedMap before
  let new := mapToStore after
  let gs := (((old.map (·.1)) ++ (new.map (·.1))).eraseDups).filter
    (fun g => mapGet old g unmappedEntry != mapGet new g unmappedEntry)
  let gs := gs.foldl (fun m g => mapPut m g ()) ([] : List (Nat × Unit))
  let ds := deltaRuns gs.length after (gs.map (·.1))
  ds ++ [.epoch after.tulle.epoch
    (match after.tulle.profile with
      | some p => p.fabricId
      | none => 0)
    (match after.tulle.profile with
      | some p => p.serial
      | none => 0) ds.length false]

/-- The time registers of a new epoch (R136). A root, and a hub without one, keeps the OFFSET it holds. The counts of
exchanges start again with an epoch that has no root (DESIGN CHOICE, log entry 83). -/
def setRoot (h : Hub) (root : Option Nat) : Hub :=
  let seen := fun (h : Hub) => (fld h pTIME Fld.TIME.ROOT_NODE, flag h pTIME Fld.TIME.STAT_NO_ROOT)
  let old := seen h
  let h := modTulle h (fun t => { t with root := root })
  let h := atPage h pTIME (fun h =>
    match root with
    | some n =>
      let parent := match (nextHops h n).head? with
        | some (p, _) => p
        | none => 0
      let h := setFld h pTIME Fld.TIME.ROOT_NODE n
      let h := setFld h pTIME Fld.TIME.ROOT_SELF (b2n (n == ownNode h))
      let h := setFld h pTIME Fld.TIME.ROOT_PARENT (if n = ownNode h then 0 else parent)
      setFld h pTIME Fld.TIME.STAT_NO_ROOT 0
    | none =>
      let h := setFld h pTIME Fld.TIME.ROOT_NODE 0
      let h := setFld h pTIME Fld.TIME.ROOT_SELF 0
      let h := setFld h pTIME Fld.TIME.ROOT_PARENT 0
      let h := setFld h pTIME Fld.TIME.STAT_SYNCED 0
      let h := setFld h pTIME Fld.TIME.STAT_TIME_SUSPECT 0
      setFld h pTIME Fld.TIME.STAT_NO_ROOT 1)
  let h := if root.isNone || root == some (ownNode h) then modTulle h (fun t => { t with slew := 0, slewDone := 0 }) else h
  let h := if root.isNone then modTulle h (fun t => { t with good100 := 0, bad2000 := 0, good2000 := 0 }) else h
  let h := if root.isNone && !old.2 then setIstat h pTIME 4 else h
  if seen h != old then setIstat h pTIME 3 else h

/-- The lines that the ledger names in some granules are POISONED in the directory, in ascending order (R208, R268, R270). -/
def ledgerLines (h : Hub) (of : Nat → Bool) : Hub :=
  (h.psn.entries.filter (fun e => e.2.kind == 1 && homedHere h (granuleOf e.2.line) && of (granuleOf e.2.line))).foldl
    (fun (acc : List PsnEntry) e => (acc.filter (fun x => x.line < e.2.line)) ++ [e.2] ++ (acc.filter (fun x => e.2.line < x.line))) []
  |>.foldl (fun h e => setEnt h e.line { DirEnt.uncached with st := .poisoned, p0 := e.agent }) h

/-- The boot generation is written and no format runs (R206, R207). -/
def bgenSet (h : Hub) : Bool := bgen h != 0 && !flag h pPRK Fld.PRK.STAT_FORMAT_BUSY

/-- The ledger's lines enter the directory before the first SERVE: once the hub has joined an epoch and PRK.BGEN is written
(R208, R270). -/
def applyLedger (h : Hub) : Hub := if h.tulle.joined && bgenSet h then ledgerLines h (fun _ => true) else h

/-- The handoff ends with the activation that moves its granule (Table MOD-3, R200, R268). -/
def handDone (h : Hub) : Hub :=
  match h.tulle.handA with
  | none => h
  | some a =>
    if a.st != .proposed || homedHere h a.gran then h
    else
      let h := modTulle h (fun t => { t with handA := none })
      let h := drainHo (h.coh.hoQueue.length + 1) h a.gran
      let h := ((h.psn.entries.filter (fun e => e.2.kind == 1 && granuleOf e.2.line == a.gran)).map (·.2.line)).foldl
        (fun h l => dropEntry h l 1) h
      let h := unmarkGranule h a.gran
      let h := { h with owners := mapDel h.owners a.oldLoc }
      let h := setIstat (bump (hoStat h 5 0) pMOD Fld.MOD.HO_DONE_CNT) pMOD 2
      serveAfterHandoff h

/-- The target's side of a handoff ends with the activation: the owner count takes the value received, and the lines that the
ledger names are POISONED, those among them that the media could not take (R268, R482). -/
def handTaken (h : Hub) : Hub :=
  (h.tulle.handB.filter (fun b => homedHere h b.gran)).foldl (fun h b =>
    let h := modTulle { h with owners := mapSet h.owners b.loc b.owners 0 }
      (fun t => { t with handB := t.handB.filter (fun x => x.gran != b.gran) })
    ledgerLines h (· == b.gran)) h

/-- An own proposal that an activation overtakes has lost its epoch (DESIGN CHOICE, log entry 82). -/
def dropOwn (h : Hub) (ep : Nat) : Hub :=
  match h.tulle.own with
  | some o => if o.committed && o.epoch = ep then h else disagree (abortProp h 0x0A) 0x0A (ownNode h) 0
  | none => h

/-- An epoch activates: map, members, routes from the epoch's link-state database, root and epoch switch together (R122,
R123, R128). -/
def activate (h0 : Hub) (db : Lsdb) (ep : Nat) (ms : List Nat) (root : Option Nat) (m : List (Nat × HEntry)) : Hub :=
  let h0 := dropOwn h0 ep
  let own := ownNode h0
  let was := h0.tulle.members
  let first := !h0.tulle.joined && ms.contains own
  let drained := localCount h0 = 0
  let h := modTulle h0 (fun t =>
    { t with homeMap := m, members := ms, epoch := ep, joined := t.joined || ms.contains own, staged := none,
             commitAt := none, own := none, early := t.early.filter (fun x => ep < x.1), fetch := none })
  let h := modTulle h (fun t => { t with routes := computeRoutes db own })
  let h := setRoot h root
  let h := setIstat h pHMAP 0
  let h := { h with kep := { h.kep with mapPend := h.kep.mapPend ++ mapRecords h0 h } }
  let h := modTulle h (fun t => { t with stored := some (ep, (match t.profile with
    | some p => p.serial
    | none => 0), mapToStore h) })
  -- members that the epoch leaves out (R250, R259)
  let gone := was.filter (fun n => n != own && !ms.contains n)
  let h := gone.foldl (fun h n => departHome (declareNode h n 7) n (granulesOf h n)) h
  let h := moveHeld (handTaken (handDone h))
  let h := if first then applyLedger h else h
  let h := ms.foldl sendForeign h
  if h.mode.mode = .drain && localCount h = 0 && !drained then setIstat h pMOD 4 else h

/-- The map in force with the entries of a proposal (FROZEN stays with the handoff engine). -/
def withEntries (h : Hub) (es : List (Nat × HEntry)) : List (Nat × HEntry) :=
  es.foldl (fun m x => mapSet m (x.1 % 65536) { x.2 with frozen := false } unmappedEntry) h.tulle.homeMap

/-- Activate the staged proposal of an epoch. -/
def activateStaged (h : Hub) (ep : Nat) : Hub :=
  match h.tulle.staged with
  | some p => if p.epoch = ep then activate h p.lsdb ep p.members p.root (withEntries h p.entries) else h
  | none => h

/-! ### Flooded copies (R144) -/

/-- A flooded PROPOSE, PROP_MAP, COMMIT or FENCE is new: not taken within the last 100 ms. It is then noted. -/
def floodNew (h : Hub) (opc origin key : Nat) : Hub × Bool :=
  let live := h.tulle.floods.filter (fun f => h.htime - f.2.2.2 < 200000000)
  if origin = ownNode h || live.any (fun f => f.1 == opc && f.2.1 == origin && f.2.2.1 == key) then (h, false)
  else (modTulle h (fun t => { t with floods := live ++ [(opc, origin, key, h.htime)] }), true)

/-- A message of a management row arrives: a copy, a message for another hub and a protocol error (another or a reserved
opcode, a reserved source, a wrong size) end here (R131, R132, R143, R148, R160). -/
def mgmtRow (h : Hub) (b : Bay) (hd : Hdr) (body : Payload) (opc : Nat) (f : Hub → Hub) : Hub :=
  let (h, mine) := receive h b.val hd body false
  if !mine then h
  else if hd.opc != opc || reservedSrc hd.src || !hd.sized then protoErr h hd.addr hd.opc hd.src
  else f h

/-! ### Fences (R139) -/

/-- A node is fenced. -/
def fenceNode (h : Hub) (n : Nat) : Hub :=
  let h := modNode h n (fun r => { r with fenced := true, fencedAt := h.htime })
  let h := disagree h 7 n 0
  if n = ownNode h then
    let h := modTulle h (fun t => { t with good2000 := 0 })
    setIstat (atPage h pTIME (fun h => setFld h pTIME Fld.TIME.STAT_FENCED 1)) pTIME 2
  else h

/-- A fence ends. -/
def unfenceNode (h : Hub) (n : Nat) : Hub :=
  let h := modNode h n (fun r => { r with fenced := false })
  if n = ownNode h then atPage h pTIME (fun h => setFld h pTIME Fld.TIME.STAT_FENCED 0) else h

/-- Flood FENCE or UNFENCE. -/
def sendFence (h : Hub) (n : Nat) (un : Bool) : Hub := flood h 0x6C (.fence n (ftime h) un)

/-! ### Links coming and going (R39, R130) -/

/-- A T link reaches DL_Active: credits start afresh (R39, R133, R246) and HELLO is sent. -/
def linkRaised (h : Hub) (b : Nat) : Hub :=
  let z := [0, 0, 0, 0, 0, 0, 0, 0]
  let up := fun (l : TLink) =>
    { l with up := true, admitted := false, peer := fld h (pBAY b) Fld.BAY.PEER_NODE, hello := none, auth := none,
             level := 0, cost := 0, adv := advertised, avail := advertised, retSent := z, retOwed := z, retSeen := z,
             echoSent := z, echoSeen := z, rr := 0, replay := [] }
  sendHello (modLink h b up) b

/-- The buffers that a lost link's messages hold return nothing: its credits start afresh (R39, R133). -/
def forgetLink (h : Hub) (b : Nat) : Hub :=
  let off := fun (l : Option Nat) => if l == some b then none else l
  let msg := fun (m : TMsg) => { m with link := off m.link }
  let ing := fun (x : Ing) => { x with link := off x.link }
  let h := modTulle h (fun t => { t with held := t.held.map msg
                                         links := t.links.map (fun e => (e.1, { e.2 with queue := e.2.queue.map msg })) })
  { h with coh := { h.coh with ingress := h.coh.ingress.map ing
                               hoQueue := h.coh.hoQueue.map ing
                               staging := h.coh.staging.map (fun x => { x with link := off x.link }) } }

/-- A T link leaves DL_Active: its queued messages and those of its replay buffer stay held, in their order, and the LSA
follows (R116, R130). -/
def linkLost (h : Hub) (b : Nat) : Hub :=
  let l := tlink h b
  if !l.up then h
  else
    let h := modLink (forgetLink h b) b (fun l => { l with
      up := false, admitted := false, hello := none, auth := none, replay := []
      queue := (l.replay ++ l.queue).filter (fun m => !linkLocal m) })
    if l.admitted then sendLsa h else h

/-! ### Acting on Tulle -/

/-- What waits for a condition is done once it holds: the answer to a proposal, the proposal of a handoff. -/
def tulleSettle (h : Hub) : Hub := handPropose (ownReady (answerStaged h))

/-- Act on the hub; what waits in Tulle and on the slices follows, and HELLO follows its contents. -/
def State.onTulle (s : State) (f : Hub → Hub) : State := s.onHub (fun h => helloAgain h (tulleSettle (cohSettle (f h))))

/-- Act on the hub in the hold of SEAL too: the supply monitors, HUB_RESET_N, the clock's loss and THERMTRIP_N (R18, R19). -/
def State.onSupply (s : State) (f : Hub → Hub) : State :=
  s.act (fun h =>
    let h' := f h
    if sealHeld h' then h' else helloAgain h (tulleSettle (cohSettle h')))

/-- A pin changes: its level is followed in the hold of SEAL too, and nothing else (R18). -/
def State.onPins (s : State) (f : Hub → Hub) : State :=
  s.act (fun h => if sealHeld h then { h with pins := (f h).pins } else helloAgain h (tulleSettle (cohSettle (f h))))

end Sys2Proof.Machine
end

