-- ==== Sys2Proof/Machine/Bays.lean ====
section
/-! DEFINITION. Bays: training and its faults (R34 to R46), link up and down (R39, R51 to R53), host resets (R47 to R49),
roles and bonds (R26 to R32), bays by mode (R50), function-level reset (R33). -/

namespace Sys2Proof.Machine

/-! ### Starting and refusing -/

/-- A bay of this lead may train in the mode (R50). -/
def modeTrains (h : Hub) (b : Nat) : Bool :=
  match h.mode.mode with
  | .seal => false
  | .bench => h.mode.tier && roleOf h b == 1
  | _ => true

/-- Store LSTATE on the lead's page. -/
def setLstate (h : Hub) (b v : Nat) : Hub := setFld h (pBAY b) Fld.BAY.LSTAT_LSTATE v

/-- The state of a bay that is not up and does not train (R29, R47, R50). -/
def restState (h : Hub) (b : Nat) : Option Nat :=
  if roleOf h b = 0 then some 0
  else if h.mode.mode == .bench && !h.mode.tier then some 0
  else if !modeTrains h b then some 1
  else if domState h (quadOf b) != 0 then some 1
  else if !flag h (pBAY b) Fld.BAY.LINKCFG_LINK_EN then some 1
  else if roleOf h b = 1 && (bit h.pins.qrst (quadOf b) || (bayRt h b).hostDisabled) then some 7
  else none

/-- A lead bay begins a training attempt, or rests where it may not train. -/
def startTraining (h : Hub) (b : Nat) : Hub :=
  let h := modBay h b (fun r => { r with trained := none, tryRate := fld h (pBAY b) Fld.BAY.LINKCFG_MAX_RATE })
  match restState h b with
  | some v => setLstate h b v
  | none => setLstate h b 2

/-- The bay is in Detect or trains. -/
def training (h : Hub) (b : Nat) : Bool :=
  leadOf h b == b && (fld h (pBAY b) Fld.BAY.LSTAT_LSTATE == 2 || fld h (pBAY b) Fld.BAY.LSTAT_LSTATE == 3)

/-- A training attempt ends with a refusal (R41, R45, R53). In SEAL the bay reads DISABLED (R50). -/
def refuse (h : Hub) (b cause : Nat) : Hub :=
  let h := modBay h b (fun r => { r with trained := none, refusedAt := h.htime })
  let h := setLstate h b (if h.mode.mode == .seal then 1 else 5)
  setIstat (setFld h (pBAY b) Fld.BAY.CAUSE_CODE cause) (pBAY b) 2

/-! ### Lanes (R40 to R43) -/

/-- Code of a lane state (Table BAY-8). -/
def laneCode : LaneSt → Nat
  | .active => 0 | .opened => 1 | .short => 2 | .order => 3 | .masked => 4 | .spare => 5 | .foreign => 6

/-- LANE_MASK excludes a group lane: its own bay's mask holds (R32). -/
def laneMasked (h : Hub) (b g : Nat) : Bool := bit (fld h (pBAY (b + g / 4)) Fld.BAY.LINKCFG_LANE_MASK) (g % 4)

/-- The lane number that a lane reports: on a T bay the Tulle word's group lane (Table BAY-3; DEDUCED, log entry 65). -/
def laneNum (role : Nat) : LaneIn → Option Nat
  | .locked num _ (.vendor _ word) => some (if role = 3 then bits word 19 4 else num)
  | .locked num _ _ => some num
  | _ => none

/-- The offer on a lane. -/
def laneOffer : LaneIn → Option Offer
  | .locked _ _ o => some o
  | _ => none

/-- The hub's and its peers' vendor ID (Table BAY-3, Table OVW-4). -/
def vendorId : Nat := 0x1F4C

/-- The Tulle word of a lane (Table BAY-3). -/
def tulleWord (node bay lane : Nat) : Nat := 0x1 + 0x3 * 2 ^ 4 + node * 2 ^ 6 + bay * 2 ^ 13 + lane * 2 ^ 19

/-- Node ID and bay that a Tulle word names (Table BAY-3). -/
def wordPeer (word : Nat) : Nat × Nat := (bits word 6 7, bits word 13 6)

/-- An offer matches a bay's role (R37, R41): the Tulle protocol from a T bay on role 3, and no Tulle offer elsewhere. -/
def offerFits (role : Nat) : Offer → Bool
  | .vendor id word =>
    if role = 3 then id == vendorId && bits word 0 4 == 1 && bits word 4 2 == 3 else id != vendorId
  | _ => role != 3

/-- The peer that an offer names. -/
def offerPeer : Offer → Nat × Nat
  | .vendor _ word => wordPeer word
  | _ => (0, 0)

/-- The group lanes that an attempt may use: those not masked. -/
def lanesMet (h : Hub) (b : Nat) (t : TrainIn) : List (Option LaneIn) :=
  (List.range (4 * (groupOf h b).length)).map (fun g =>
    if laneMasked h b g then none else some (t.lanes.getD g .absent))

/-- The offer that stands for the partner: that of group lane 0, or of the lowest lane that has locked (DESIGN CHOICE, log
entry 65). -/
def partnerOffer (h : Hub) (b : Nat) (t : TrainIn) : Option Offer :=
  (lanesMet h b t).findSome? (fun x => x.bind laneOffer)

/-- Length of the ascending (up), or descending, run at the start of a list. -/
def runLen (up : Bool) : List Nat → Nat
  | [] => 0
  | [_] => 1
  | a :: b :: t => if (if up then decide (a < b) else decide (b < a)) then 1 + runLen up (b :: t) else 1

/-- The lane numbers run all in one direction. -/
def ordered (ns : List Nat) : Bool := runLen true ns == ns.length || runLen false ns == ns.length

/-- The places of the longest ascending or descending run from an end: from, and length; of equal runs that from the low
end (DESIGN CHOICE, log entry 65). -/
def longestRun (ns : List Nat) : Nat × Nat :=
  let lo := max (runLen true ns) (runLen false ns)
  let hi := max (runLen true ns.reverse) (runLen false ns.reverse)
  if hi ≤ lo then (0, lo) else (ns.length - hi, hi)

/-- The lane numbers of the lanes of a list that are still good, with their group lanes. -/
def goodNums (role : Nat) (xs : List (Option LaneIn)) (ls : List LaneSt) : List (Nat × Nat) :=
  (xs.zip ls).zipIdx.filterMap (fun x =>
    if x.1.2 = .active then (x.1.1.bind (laneNum role)).map (fun n => (x.2, n)) else none)

/-- A lane by itself: masked, open, shorted to something that is no lane, or good (Table BAY-4). -/
def laneAlone : Option LaneIn → LaneSt
  | none => .masked
  | some .absent => .opened
  | some .noLock => .opened
  | some .badLevel => .short
  | some (.locked ..) => .active

/-- Lanes that do not belong to the peer are FOREIGN (T only). -/
def markForeign (role : Nat) (ref : Option Offer) (xs : List (Option LaneIn)) (ls : List LaneSt) : List LaneSt :=
  if role != 3 then ls
  else (xs.zip ls).map (fun x =>
    match x.1.bind laneOffer, ref with
    | some o, some r =>
      if x.2 = .active && !(offerFits 3 o && offerPeer o == offerPeer r) && offerFits 3 r then .foreign else x.2
    | _, _ => x.2)

/-- Lanes that report one lane number are SHORT. -/
def markShort (role : Nat) (xs : List (Option LaneIn)) (ls : List LaneSt) : List LaneSt :=
  let ns := goodNums role xs ls
  ls.zipIdx.map (fun x => if ns.any (fun m => m.1 == x.2 && ns.any (fun k => k.1 != m.1 && k.2 == m.2)) then .short else x.1)

/-- Lanes outside the longest run from an end are ORDER, when the lane numbers run in neither direction. -/
def markOrder (role : Nat) (xs : List (Option LaneIn)) (ls : List LaneSt) : List LaneSt :=
  let ns := goodNums role xs ls
  if ordered (ns.map (·.2)) then ls
  else
    let (i, n) := longestRun (ns.map (·.2))
    ls.zipIdx.map (fun x => if ns.zipIdx.any (fun m => m.1.1 == x.2 && !(i ≤ m.2 && m.2 < i + n)) then .order else x.1)

/-- The lanes of a group as an attempt finds them (Table BAY-4): MASKED, OPEN and SHORT by themselves, then FOREIGN, SHORT
by their numbers and ORDER among the rest (the order of judging is DEDUCED, log entry 65). -/
def lanesFound (h : Hub) (b : Nat) (t : TrainIn) : List LaneSt :=
  let role := roleOf h b
  let xs := lanesMet h b t
  markOrder role xs (markShort role xs (markForeign role (partnerOffer h b t) xs (xs.map laneAlone)))

/-- The lane numbers received run in descending order (R40). -/
def lanesReversed (h : Hub) (b : Nat) (t : TrainIn) : Bool :=
  let ns := (goodNums (roleOf h b) (lanesMet h b t) (lanesFound h b t)).map (·.2)
  decide (1 < ns.length) && runLen false ns == ns.length

/-- The lanes that receive inverted symbols, one bit per group lane (R40). -/
def lanesInverted (h : Hub) (b : Nat) (t : TrainIn) : Nat :=
  (lanesMet h b t).zipIdx.foldl (fun acc x =>
    match x.1 with
    | some (.locked _ true _) => acc + 2 ^ x.2
    | _ => acc) 0

/-- The hub leads Configuration (R38). -/
def hubLeads (h : Hub) (b : Nat) (t : TrainIn) : Bool :=
  match roleOf h b with
  | 2 => true
  | 3 => decide (ownNode h < (((partnerOffer h b t).map offerPeer).getD (0, 0)).1)
  | _ => false

/-- On every lane in Configuration a T bay sends vendor ID and Tulle word (R37). -/
def tsSend (h : Hub) (b : Nat) (t : TrainIn) : Hub :=
  let words := (lanesMet h b t).zipIdx.filterMap (fun x =>
    (x.1.bind laneOffer).map (fun _ => (x.2, tulleWord (ownNode h) b x.2)))
  if roleOf h b = 3 && !words.isEmpty then emit h (.ts b vendorId words) else h

/-- log2 of the number of lanes of a group. -/
def fullWidth (n : Nat) : Nat := if n = 16 then 4 else if n = 8 then 3 else 2

/-- The width ladder (R43), one width: the low lanes of the side that leads, then its top lanes through reversal. With
`far` those low lanes are the hub's top ones: the partner leads over reversed wiring. -/
def ladderAt (ls : List LaneSt) (w : Nat) (far : Bool) : Option (Nat × Bool) :=
  let low := (ls.take (2 ^ w)).all (· == .active)
  let top := (ls.drop (ls.length - 2 ^ w)).all (· == .active)
  if far then (if top then some (w, true) else if low then some (w, false) else none)
  else if low then some (w, false) else if top then some (w, true) else none

/-- The width ladder (R43): width, and whether the hub's top lanes are taken. -/
def ladder (ls : List LaneSt) (floor : Nat) (far : Bool) : Nat → Option (Nat × Bool)
  | 0 => if floor = 0 then ladderAt ls 0 far else none
  | k + 1 =>
    if k + 1 < floor then none
    else match ladderAt ls (k + 1) far with
      | some x => some x
      | none => ladder ls floor far k

/-- The lanes of the chosen set are ACTIVE, other good ones SPARE. -/
def lanesChosen (ls : List LaneSt) (w : Nat) (top : Bool) : List LaneSt :=
  ls.zipIdx.map (fun x =>
    let used := if top then ls.length - 2 ^ w ≤ x.2 else x.2 < 2 ^ w
    if x.1 == .active && !used then .spare else x.1)

/-- Logical lane of each group lane (R40, R43). -/
def laneMap (ls : List LaneSt) (w : Nat) (top rev : Bool) : List Nat :=
  ls.zipIdx.map (fun x =>
    if x.1 != .active then 0
    else if top then ls.length - 1 - x.2
    else if rev then 2 ^ w - 1 - x.2
    else x.2)

/-- Record lane states on the pages of the group's bays. -/
def putLanes (h : Hub) (b : Nat) (ls : List LaneSt) : Hub :=
  (groupOf h b).zipIdx.foldl (fun h x =>
    let v := ((ls.drop (4 * x.2)).take 4).zipIdx.foldl (fun acc l => acc + laneCode l.1 * 16 ^ l.2) 0
    setFld h (pBAY x.1) Fld.BAY.LANE_STATE v) h

/-- The lowest degradation code that applies (R52). Lanes that only LANE_MASK excludes degrade nothing: a link narrower by
the mask alone comes up with 0x00 (DESIGN CHOICE, log entry 65). -/
def degraded (ls : List LaneSt) (rateDown noCxl : Bool) : Nat :=
  if ls.contains .opened then 0x10
  else if ls.contains .short then 0x11
  else if ls.contains .order then 0x12
  else if ls.contains .foreign then 0x13
  else if rateDown then 0x14
  else if noCxl then 0x15
  else 0

/-- The refusal of an attempt before its lanes are judged (R34, R35, R41). Where several causes apply the first listed here
is recorded (DESIGN CHOICE, log entry 65: the spec gives no order). -/
def earlyRefusal (h : Hub) (b : Nat) (t : TrainIn) : Option Nat :=
  let role := roleOf h b
  if (List.range (4 * (groupOf h b).length)).all (fun g => t.lanes.getD g .absent == .absent) then some 0x01
  else
    match partnerOffer h b t with
    | none => none
    | some o =>
      if !offerFits role o then some 0x03
      else if role != 3 && t.proposes == hubLeads h b t then some 0x04
      else if role = 3 && (offerPeer o).1 = ownNode h then some 0x05
      else if !t.flitOk then some 0x06
      else if role = 2 && !t.cxl then some 0x07
      else none

/-- The rate of an attempt: what equalisation has left, at most the present ceiling (R44). -/
def rateNow (h : Hub) (b r : Nat) : Nat := min r (fld h (pBAY b) Fld.BAY.LINKCFG_MAX_RATE)

/-- A rate below the floor: no rate is left (R41, R44). -/
def rateLost (h : Hub) (b r : Nat) : Bool := decide (r < fld h (pBAY b) Fld.BAY.LINKCFG_MIN_RATE)

/-- A training attempt ends (R34 to R44). Good lanes read ACTIVE after an early refusal and SPARE after BELOW_MIN_WIDTH
(DESIGN CHOICE, log entry 65). -/
def attemptEnd (h : Hub) (b : Nat) (t : TrainIn) : Hub :=
  let ls := lanesFound h b t
  let rev := lanesReversed h b t
  let leads := hubLeads h b t
  match earlyRefusal h b t with
  | some c => refuse (putLanes (tsSend h b t) b ls) b c
  | none =>
    let h := tsSend h b t
    match ladder ls (fld h (pBAY b) Fld.BAY.LINKCFG_MIN_WIDTH) (!leads && rev) (fullWidth ls.length) with
    | none => refuse (putLanes h b (ls.map (fun l => if l == .active then .spare else l))) b 0x08
    | some (w, top) =>
      let role := roleOf h b
      let chosen := lanesChosen ls w top
      let rate := rateNow h b (bayRt h b).tryRate
      let peer := ((partnerOffer h b t).map offerPeer).getD (0, 0)
      if rateLost h b rate then refuse (putLanes h b chosen) b 0x09
      else
        let tr : Trained :=
          { width := w, rate := rate, reversed := top || (leads && rev), polInv := lanesInverted h b t,
            map := laneMap chosen w top (leads && rev), cxl := role != 3 && t.cxl, cacheDev := role = 2 && t.cacheDev,
            peerNode := if role = 3 then peer.1 else 0, peerBay := if role = 3 then peer.2 else 0,
            cause := degraded chosen (rate < fld h (pBAY b) Fld.BAY.LINKCFG_MAX_RATE) (role = 1 && !t.cxl) }
        modBay (setLstate (putLanes h b chosen) b 3) b (fun r => { r with trained := some tr })

/-! ### Link up and down -/

/-- The link reaches DL_Active: its page shows it, and its blocks learn of it (R39, R51 to R53). The floors and the
ceiling of the rate are those of this moment (R44). -/
def linkUp (h : Hub) (b : Nat) : Hub :=
  match (bayRt h b).trained with
  | none => h
  | some t =>
    let pg := pBAY b
    let role := roleOf h b
    let rate := rateNow h b t.rate
    if rateLost h b rate then refuse h b 0x09 else
    let h := setFld (setFld (setLstate h b 4) pg Fld.BAY.LSTAT_WIDTH t.width) pg Fld.BAY.LSTAT_RATE rate
    let h := setFld (setFld h pg Fld.BAY.LSTAT_REVERSED (b2n t.reversed)) pg Fld.BAY.LSTAT_FLIT 1
    let h := setFld (setFld h pg Fld.BAY.LSTAT_CXL (b2n t.cxl)) pg Fld.BAY.LSTAT_TULLE (b2n (role = 3))
    let h := setFld (setFld h pg Fld.BAY.PEER_NODE t.peerNode) pg Fld.BAY.PEER_BAY t.peerBay
    let h := setFld h pg Fld.BAY.CAUSE_CODE t.cause
    let h := (groupOf h b).zipIdx.foldl (fun h x =>
      let m := ((t.map.drop (4 * x.2)).take 4).zipIdx.foldl (fun acc l => acc + l.1 % 4 * 4 ^ l.2) 0
      setFld (setFld h (pBAY x.1) Fld.BAY.LANE_MAP m) (pBAY x.1) Fld.BAY.LSTAT_POL_INV (bits t.polInv (4 * x.2) 4)) h
    let h := modBay h b (fun r => { r with trained := none, upAt := h.htime, downSince := none, cacheDev := t.cacheDev })
    let h := setIstat h pg 0
    let h := if t.cause = 0 then h else setIstat h pg 3
    if role = 3 then linkRaised h b
    else if role = 2 then
      hdmProgram { h with prk := { h.prk with timedOut := h.prk.timedOut.filter (fun w =>
          fld h pPRK (Fld.PRK.MEDIA_WAY.nth w) != b) } } b
    else h

/-- Fields of a page whose link is not up (R51). -/
def pageDown (h : Hub) (b : Nat) : Hub :=
  let pg := pBAY b
  let h := setFld (setFld h pg Fld.BAY.LSTAT_WIDTH 7) pg Fld.BAY.LSTAT_FLIT 0
  setFld (setFld h pg Fld.BAY.LSTAT_CXL 0) pg Fld.BAY.LSTAT_TULLE 0

/-- The link of a lead bay leaves DL_Active (R39, R53, R111, R130, R299); the bay's next state is the caller's. -/
def linkFalls (h : Hub) (b : Nat) : Hub :=
  if !bayUp h b then h
  else
    let role := roleOf h b
    let h := pageDown (setLstate h b 1) b
    let h := bump h (pBAY b) Fld.BAY.LINKDOWN_CNT
    let h := setIstat h (pBAY b) 1
    let h := modBay h b (fun r => { r with
      downSince := some h.htime, trained := none,
      flapDowns := h.htime :: r.flapDowns.filter (fun t => h.htime - t ≤ 20000000000) })
    if role = 1 then
      let h := if hb : b < 48 then originReset (originReset h (.hostH ⟨b, hb⟩)) (.hostU ⟨b, hb⟩) else h
      let h := ownerStop h b
      { h with xlt := { h.xlt with slots := h.xlt.slots.filter (fun s => s.2.mirror || s.2.bay != b) } }
    else if role = 3 then linkLost h b
    else h

/-- A link has gone down by itself: it is held when it flaps (R46), and otherwise trains again where the mode lets it. -/
def afterFall (h : Hub) (b : Nat) : Hub :=
  let lim := fld h (pBAY b) Fld.BAY.LINKCFG_FLAP_MAX
  let rt := bayRt h b
  if lim != 0 && lim < rt.flapDowns.length && (restState h b).isNone then
    let h := modBay h b (fun r => { r with holdAt := h.htime, holdNow := r.holdSecs, holdSecs := min 64 (2 * r.holdSecs) })
    setIstat (setFld (setLstate h b 6) (pBAY b) Fld.BAY.CAUSE_CODE 0x0B) (pBAY b) 4
  else startTraining h b

/-! ### Host resets (R33, R47, R48) -/

/-- MSI-X state of an H function returns to its reset values. -/
def msixReset (h : Hub) (b : Nat) : Hub :=
  { h with port := { h.port with msix := h.port.msix.filter (fun e => e.1 / 8192 != b),
                                 pba := h.port.pba.filter (fun k => k / 2048 != b) } }

/-- Config space of an H function returns to its reset values; the HDM decoders and IDE keys with it when the bay is
reset (R33, R47). -/
def configReset (h : Hub) (b : Nat) (decoders : Bool) : Hub :=
  let h := modBay h b (fun r => { r with
    memSpaceEn := false, msixEn := false, funcMask := false, atsEn := false, pasidEn := false, priEn := false, priAlloc := 0,
    hdm := if decoders then [none, none, none, none] else r.hdm, ide := if decoders then [] else r.ide,
    biEn := !decoders && r.biEn })
  let h := { h with xlt := { h.xlt with priFail := h.xlt.priFail.filter (· != b) } }
  msixReset h b

/-- A response to the host or device, as against a snoop. -/
def isRsp : Emit → Bool
  | .biSnp .. => false
  | .snp .. => false
  | _ => true

/-- The requests of a bay's host that are in service: their responses will be discarded when they become ready (R47). -/
def disown (h : Hub) (b : Nat) : Hub :=
  let f := fun (r : Req) => match r.who with
    | .host b' _ => if b' = b then { r with who := .gone b } else r
    | _ => r
  { h with coh := { h.coh with
      chains := h.coh.chains.map (fun c => (c.1, { c.2 with head := c.2.head.map (fun t => { t with req := f t.req }) })),
      rlc := h.coh.rlc.map (fun l => (l.1, { l.2 with cur := l.2.cur.map f })) } }

/-- An H bay is taken down by a host reset (R47): responses still due are discarded and counted, the agent is dead. Where
the mode trains no bay it reads as the mode says (R50). -/
def hostReset (h : Hub) (b : Nat) : Hub :=
  let agent := bayIsAgent h b
  let due := ((mapGet h.bayOut b []).filter (fun m => isRsp m.out)).length
  let h := linkFalls h b
  let h := configReset (setLstate h b (if modeTrains h b then 7 else (restState h b).getD 1)) b true
  let h := bumpBy { h with bayOut := mapDel h.bayOut b } (pBAY b) Fld.BAY.DISCARD_CNT due
  let h := setIstat h (pBAY b) 5
  disown (if agent then declareDead h (ownNode h * 64 + b) 3 else h) b

/-- The lead bays of a quad in a role. -/
def quadLeads (h : Hub) (k role : Nat) : List Nat := (leadsOf h role).filter (fun b => quadOf b == k)

/-- QRST_N of a quad asserts (R47, R49). -/
def qrstAssert (h : Hub) (k : Nat) : Hub :=
  let h := { h with pins := { h.pins with qrst := h.pins.qrst ||| 2 ^ k } }
  if h.mode.mode == .seal then h
  else (quadLeads h k 1).foldl hostReset (bump h (pBAY (4 * k)) Fld.BAY.QRST_CNT)

/-- QRST_N of a quad deasserts: its H bays train (R47). -/
def qrstDeassert (h : Hub) (k : Nat) : Hub :=
  let h := { h with pins := { h.pins with qrst := if bit h.pins.qrst k then h.pins.qrst - 2 ^ k else h.pins.qrst } }
  (quadLeads h k 1).foldl (fun h b => if lstate h b = 7 then startTraining h b else h) h

/-! ### Roles (R27 to R31) -/

/-- A bay reads OFF or DISABLED. -/
def atRest (h : Hub) (b : Nat) : Bool := lstate h b ≤ 1

/-- The bays a write of ROLECFG affects (R28): the whole quad where QBOND changes, the bay's group otherwise. A write
that carries QBOND's present value is taken not to be one for QBOND (DESIGN CHOICE, log entry 65). -/
def roleAffects (h : Hub) (b v : Nat) : List Nat :=
  let q := 4 * quadOf b
  if b % 4 = 0 && bits v 2 3 != qbond h (quadOf b) then [q, q + 1, q + 2, q + 3] else groupOf h (leadOf h b)

/-- A write of ROLECFG (R28, R31); on a member's page it is ignored (R32). -/
def roleWrite (h : Hub) (b v : Nat) : Hub × List AccKind :=
  let bond := bits v 2 3
  let aff := roleAffects h b v
  if isMember h b then (h, [])
  else if !aff.all (atRest h) then (h, [.stateRefused])
  else
    let bad := b % 4 = 0 && 4 < bond
    let h1 := if b % 4 = 0 && !bad then setFld h (pBAY b) Fld.BAY.ROLECFG_QBOND bond else h
    let h2 := if isMember h1 b then h1 else setFld h1 (pBAY b) Fld.BAY.ROLECFG_ROLE (bits v 0 2)
    let leads := aff.filter (fun x => leadOf h2 x == x)
    (leads.foldl startTraining h2, if bad then [.reservedEnc] else [])

/-- A write of LINKCFG: clearing LINK_EN takes the link down and holds it, setting it starts an attempt (Table BAY-5). -/
def afterLinkcfg (before after : Hub) (b : Nat) : Hub :=
  let was := flag before (pBAY b) Fld.BAY.LINKCFG_LINK_EN
  let on := flag after (pBAY b) Fld.BAY.LINKCFG_LINK_EN
  if isMember after b || was == on then after
  else startTraining (if on then after else linkFalls after b) b

/-- Level ranges do not overlap: the hub takes the link down and refuses the bay (R37). -/
def refuseLevel (h : Hub) (b : Nat) : Hub := refuse (linkFalls h b) b 0x0A

/-- Every bay takes the state that the mode gives it: at SEAL entry bays that are not up rest, in BENCH bays are held (R50). -/
def baysByMode (h : Hub) : Hub :=
  ((List.range 48).filter (fun b => leadOf h b == b)).foldl (fun h b =>
    match h.mode.mode with
    | .seal => if bayUp h b then h else startTraining h b
    | .bench => if modeTrains h b then h else startTraining (linkFalls h b) b
    | _ => if lstate h b ≤ 1 then startTraining h b else h) h

/-! ### Rows -/

/-- QRST_ASSERT (R47, R49). -/
def execQrstAssert (k : Quad) (s : State) : Res := .next (s.onPins fun h => qrstAssert h k.val)

/-- QRST_DEASSERT (R47). -/
def execQrstDeassert (k : Quad) (s : State) : Res := .next (s.onPins fun h => qrstDeassert h k.val)

/-- The bay leads an H group that a host may reset in band. -/
def hBay (h : Hub) (b : Nat) : Bool := leadOf h b == b && roleOf h b == 1 && bayUp h b

/-- HOST_HOT_RESET (R48). -/
def execHostHotReset (b : Bay) (s : State) : Res :=
  .next (s.onTulle fun h => if hBay h b.val then startTraining (hostReset h b.val) b.val else h)

/-- HOST_LINK_DISABLE (R48). -/
def execHostLinkDisable (b : Bay) (s : State) : Res :=
  .next (s.onTulle fun h =>
    if hBay h b.val then modBay (hostReset h b.val) b.val (fun r => { r with hostDisabled := true }) else h)

/-- HOST_LINK_RELEASE (R48). -/
def execHostLinkRelease (b : Bay) (s : State) : Res :=
  .next (s.onTulle fun h =>
    if (bayRt h b.val).hostDisabled then
      let h := modBay h b.val (fun r => { r with hostDisabled := false })
      if lstate h b.val = 7 then startTraining h b.val else h
    else h)

/-- FUNCTION_LEVEL_RESET (R33, R111, R299). -/
def execFunctionLevelReset (b : Bay) (s : State) : Res :=
  .next (s.onTulle fun h =>
    if hBay h b.val then
      let h := originReset (originReset h (.hostH b)) (.hostU b)
      ownerStop (configReset h b.val false) b.val
    else h)

/-- Translations of a bay whose ATS or PASID Enable the host has cleared end with XLT_FAULT (R314). -/
def xltDisabled (h : Hub) (b : Nat) : Hub :=
  let rt := bayRt h b
  if rt.atsEn && rt.pasidEn then h
  else
    let mine := h.xlt.slots.filter (fun s => s.2.bay == b)
    mine.foldl (fun h s =>
      if s.2.demand && !s.2.cancelled then waiterFails (faultFail (dropSlot h s.1) b s.2.pasid s.2.page) s.2.who
      else dropSlot h s.1) h

/-- A feature of Table BAY-2 is there on a role: 1 H, 2 D, 3 T. -/
def hasFeature (role : Nat) : Feature → Bool
  | .rates | .flitMode | .reversal => true
  | .flit256 | .cxlIo | .gpf | .ide | .doe => role != 3
  | .memTarget | .hdmDecoders | .atsPriPasid | .mctpVdm => role == 1
  | .memInitiator | .cacheHostSide => role == 2
  | .tulle => role == 3
  | .nonFlit | .flit68 | .crosslink | .linkPower | .cacheDeviceSide | .type2Memory | .switching | .srIov | .unlisted => false

/-- Subsystem Vendor ID and Subsystem ID: the policy's, or the default (Table OVW-4). -/
def subsystemIds (h : Hub) : Nat × Nat := (h.trust.policy.bind (·.subsystem)).getD (vendorId, 0x4B48)

/-- What the function of a bay reports of itself (Table OVW-4, R11, R33, R257, R311, Table PAG-1). A D bay's class code is that of
a root port (PRESUMED, log entry 77). -/
def cfgView (h : Hub) (b : Nat) : CfgReg → Nat
  | .vendorId => vendorId
  | .deviceId => 0x4B48
  | .revisionId => 0x01
  | .classCode => if roleOf h b = 1 then 0x050210 else 0x060400
  | .subsystemVendor => (subsystemIds h).1
  | .subsystemId => (subsystemIds h).2
  | .atsQueueDepth => 0
  | .atsPageAligned => b2n (hasFeature (roleOf h b) .atsPriPasid)
  | .atsGlobalInvalidate => b2n (hasFeature (roleOf h b) .atsPriPasid)
  | .pasidWidth => if hasFeature (roleOf h b) .atsPriPasid then 20 else 0
  | .pasidExecute => 0
  | .pasidPrivileged => 0
  | .priCapacity => if hasFeature (roleOf h b) .atsPriPasid then 256 else 0
  | .priPasidRequired => b2n (hasFeature (roleOf h b) .atsPriPasid)
  | .msixTableSize => if roleOf h b = 1 then 2048 else 0
  | .biDecoders => if roleOf h b = 1 then 1 else 0
  | .memoryActive => b2n (roleOf h b == 1 && !agentDead h (ownNode h * 64 + b))
  | .hdmCount => if hasFeature (roleOf h b) .hdmDecoders then 4 else 0
  | .feature f => b2n (hasFeature (roleOf h b) f)

/-- HOST_CONFIG_WRITE: a host writes config space or component registers of its H function (R33, R87, R106, R314, R323,
R324). What the function reports of itself is read through this row too, since no row is a read of it (DESIGN CHOICE, log
entry 77). -/
def execHostConfigWrite (b : Bay) (f : CfgField) (s : State) : Res :=
  .next (s.onTulle (withStops fun h =>
    let bb := b.val
    if !hBay h bb then h
    else
      match f with
      | .memSpaceEnable v => modBay h bb (fun r => { r with memSpaceEn := v })
      | .msixEnable v => msixReleaseAll (modBay h bb (fun r => { r with msixEn := v })) bb
      | .functionMask v => msixReleaseAll (modBay h bb (fun r => { r with funcMask := v })) bb
      | .atsEnable v => xltDisabled (modBay h bb (fun r => { r with atsEn := v })) bb
      | .pasidEnable v => xltDisabled (modBay h bb (fun r => { r with pasidEn := v })) bb
      | .priEnable v =>
        let h := if v && !(bayRt h bb).priEn then
            { h with xlt := { h.xlt with priFail := h.xlt.priFail.filter (· != bb) } } else h
        modBay h bb (fun r => { r with priEn := v })
      | .priAllocation n => retryFull (modBay h bb (fun r => { r with priAlloc := n }))
      | .hdmDecoder i hpa lines tpa ways gran pos =>
        let d := if lines = 0 then none
          else some { hpa := hpa, lines := lines, tpa := tpa, ways := ways, gran := gran, pos := pos }
        modBay h bb (fun r => { r with hdm := r.hdm.set i.val d })
      | .biEnable v => modBay h bb (fun r => { r with biEn := v })
      | .ideKey slot key => modBay h bb (fun r => { r with ide := mapPut r.ide slot key })
      | .read r => emit h (.readData (.hostH b) (cfgView h bb r))))

/-- TRAINING_RETRY (R45): 1 s after a refusal. -/
def execTrainingRetry (b : Bay) (s : State) : Res :=
  .next (s.onTulle fun h =>
    if leadOf h b.val = b.val && fld h (pBAY b.val) Fld.BAY.LSTAT_LSTATE = 5 && (restState h b.val).isNone then
      startTraining (advanceTo h ((bayRt h b.val).refusedAt + 2000000000)) b.val
    else h)

/-- TRAINING_ATTEMPT_END (R34 to R43, R52). -/
def execTrainingAttemptEnd (b : Bay) (t : TrainIn) (s : State) : Res :=
  .next (s.onTulle fun h => if training h b.val && (bayRt h b.val).trained.isNone then attemptEnd h b.val t else h)

/-- An attempt in which receivers are found on every lane and none locks. -/
def unlocked : TrainIn :=
  { lanes := List.replicate 16 .noLock, proposes := false, flitOk := false, cxl := false, cacheDev := false }

/-- POLLING_TIMEOUT (R41): receivers on every lane, and no lane locks within 24 ms. -/
def execPollingTimeout (b : Bay) (s : State) : Res :=
  .next (s.onTulle fun h =>
    if training h b.val && (bayRt h b.val).trained.isNone then
      refuse (putLanes h b.val (lanesFound h b.val unlocked)) b.val 0x02
    else h)

/-- The cause of a link whose rate has been lowered: the lowest code that applies (R52). -/
def rateCause (c : Nat) : Nat := if c = 0 || c = 0x15 then 0x14 else c

/-- Equalisation fails at rate r: the next lower rate, down to MIN_RATE (R41, R44), during the attempt or, for a link that
is up and equalises, on the link. Rates below 8.0 GT/s are not equalised. -/
def rateDown (h : Hub) (b r : Nat) : Hub :=
  if r < 2 then h
  else if rateLost h b (r - 1) then refuse (linkFalls h b) b 0x09
  else if bayUp h b then
    let c := fld h (pBAY b) Fld.BAY.CAUSE_CODE
    let h := setFld (setFld h (pBAY b) Fld.BAY.LSTAT_RATE (r - 1)) (pBAY b) Fld.BAY.CAUSE_CODE (rateCause c)
    if c = 0 then setIstat h (pBAY b) 3 else h
  else
    modBay h b (fun x => { x with
      tryRate := r - 1, trained := x.trained.map (fun t => { t with rate := r - 1, cause := rateCause t.cause }) })

/-- EQUALISATION_FAIL (R41, R44). -/
def execEqualisationFail (b : Bay) (s : State) : Res :=
  .next (s.onTulle fun h =>
    if training h b.val then rateDown h b.val (rateNow h b.val (bayRt h b.val).tryRate)
    else if leadOf h b.val = b.val && bayUp h b.val then rateDown h b.val (fld h (pBAY b.val) Fld.BAY.LSTAT_RATE)
    else h)

/-- LINK_UP (R39, R53). -/
def execLinkUp (b : Bay) (s : State) : Res :=
  .next (s.onTulle fun h => if training h b.val && (restState h b.val).isNone then linkUp h b.val else h)

/-- LINK_DOWN (R39, R46, R53, R111, R130, R299). -/
def execLinkDown (b : Bay) (s : State) : Res :=
  .next (s.onTulle fun h => if leadOf h b.val = b.val && bayUp h b.val then afterFall (linkFalls h b.val) b.val else h)

/-- FLAP_HOLD_EXPIRY (R46). -/
def execFlapHoldExpiry (b : Bay) (s : State) : Res :=
  .next (s.onTulle fun h =>
    let r := bayRt h b.val
    if leadOf h b.val = b.val && fld h (pBAY b.val) Fld.BAY.LSTAT_LSTATE = 6 then
      startTraining (advanceTo h (r.holdAt + r.holdNow * 2000000000)) b.val
    else h)

/-- FLAP_HOLD_RESET (R46): after 60 s with the link continuously up the hold time returns to 1 s. -/
def execFlapHoldReset (b : Bay) (s : State) : Res :=
  .next (s.onTulle fun h =>
    if leadOf h b.val = b.val && bayUp h b.val then
      modBay (advanceTo h ((bayRt h b.val).upAt + 120000000000)) b.val (fun r => { r with holdSecs := 1 })
    else h)

/-- ROLECFG_WRITE (R27, R28, R31, R32). -/
def execRolecfgWrite (o : Origin) (b : Bay) (v : Word) (s : State) : Res :=
  .next (s.onTulle fun h => guardedK h o (pBAY b.val) 0x100 v.toNat (fun h => roleWrite h b.val v.toNat))

/-- LINKCFG_WRITE (R32, R45, Table BAY-5). -/
def execLinkcfgWrite (o : Origin) (b : Bay) (v : Word) (s : State) : Res :=
  .next (s.onTulle fun h => afterLinkcfg h (plainWrite h o (pBAY b.val) 0x104 v.toNat) b.val)

end Sys2Proof.Machine
end

