-- ==== Sys2Proof/Machine/KeepStore.lean ====
section
/-! DEFINITION. The keep store and the Scorebook's durable area (R417 to R446): batches in two phases, sectors, wear,
device faults and rebuild, recovery at a start. -/

namespace Sys2Proof.Machine

/-! ### Writing a log -/

/-- Units of a log entry. -/
def KUnit.size : KUnit → Nat
  | .data r => r.body.typ.2
  | .commit .. => 1
  | .torn n => n

/-- Units of a sector (64 KiB of 64 B). -/
def secUnits : Nat := 1024

/-- Append to a sector. -/
def KSec.put (s : KSec) (u : KUnit) : KSec := { s with used := s.used + u.size, units := s.units ++ [u] }

/-- Append to a log: in the sector written now, or at the start of the next erased one (R420). -/
def logPut (l : KLog) (u : KUnit) : Option KLog :=
  if l.cur.used + u.size ≤ secUnits then some { l with cur := l.cur.put u }
  else
    match l.ahead with
    | [] => none
    | s :: t => some { l with full := l.full ++ [l.cur], cur := s.put u, ahead := t }

/-- Append several entries; none when the log has no room. -/
def logPuts (l : KLog) : List KUnit → Option KLog
  | [] => some l
  | u :: t => match logPut l u with
    | some l => logPuts l t
    | none => none

/-- Skip to the next page boundary (4 units of 64 B; R428, R430). -/
def logAlign (l : KLog) : KLog :=
  let n := (4 - l.cur.used % 4) % 4
  if n = 0 then l else { l with cur := l.cur.put (.torn n) }

/-- Replace a device's log. -/
def putLog (h : Hub) (d part : Nat) (l : KLog) : Hub :=
  let v := mapGet h.keep.devs d .fresh
  { h with keep := { h.keep with devs := mapPut h.keep.devs d { v with logs := mapPut v.logs part l } } }

/-- Append to a device's log, where it has room. -/
def devPuts (h : Hub) (d part : Nat) (us : List KUnit) : Hub :=
  match logPuts (devLog h.keep d part) us with
  | some l => putLog h d part l
  | none => h

/-- The data units and the BATCH_COMMIT of a list of records (R426). -/
def batchUnits (rs : List KRec) : List KUnit :=
  match rs with
  | [] => []
  | r :: _ => rs.map (fun x => KUnit.data x) ++ [.commit (rs.foldl (fun m x => min m x.seq) r.seq) (rs.foldl (fun m x => max m x.seq) 0)]

/-- Number records from a SEQ. -/
def numberFrom (seq : Nat) (bs : List KBody) : List KRec := bs.zipIdx.map (fun x => { seq := seq + x.2, body := x.1 })

/-- Split records into batches of at most 63 data units (R426). -/
def splitBatches : List KBody → List KBody → Nat → List (List KBody)
  | [], cur, _ => if cur.isEmpty then [] else [cur]
  | b :: t, cur, n =>
    if n + b.typ.2 ≤ 63 then splitBatches t (cur ++ [b]) (n + b.typ.2)
    else cur :: splitBatches t [b] b.typ.2

/-- The records that make the first batch of a list. -/
def firstBatch (bs : List KBody) : List KBody := (splitBatches bs [] 0).headD []

/-! ### Wear, devices -/

/-- A log sector of a device has an ERASE_CNT of 90,000 or more. -/
def devWorn (h : Hub) (d : Nat) : Bool :=
  (mapGet h.keep.devs d .fresh).logs.any (fun e => e.2.secs.any (fun s => 90000 ≤ s.erases))

/-- The condition of WEAR_WARN (R444). -/
def wearCond (h : Hub) : Bool :=
  (healthyDevs h).any (fun d => devWorn h d || fld h pKEP (Fld.KEP.DEV_SPARES.nth d) < 16) || (healthyDevs h).length = 1

/-- WEAR_WARN follows its condition (R444). -/
def wearCheck (h : Hub) : Hub :=
  let c := wearCond h
  if c && !h.alerts.wear then
    setIstat (atPage h pKEP (fun h => { h with alerts := { h.alerts with wear := true } })) pKEP 2
  else if !c && h.alerts.wear then atPage h pKEP (fun h => { h with alerts := { h.alerts with wear := false } })
  else h

/-- A device enters FAILED (R65, R428, R433). A batch that no HEALTHY device is left for is given up (R434). -/
def devFail (h : Hub) (d cause addr : Nat) : Hub :=
  if devState h d = 2 then h
  else
    let h := atPage h pKEP (fun h =>
      setFld (setFld h pKEP (Fld.KEP.DEV_STATE.nth d) 2) pKEP (Fld.KEP.DEV_CAUSE.nth d) cause)
    let h := setIstat (errlog h pKEP 1 addr (d + 2 * cause)) pKEP 0
    let h := if (healthyDevs h).isEmpty then { setIstat h pKEP 3 with kep := { h.kep with batch := none } } else h
    wearCheck h

/-- Device byte address of the write position of a log. -/
def writeAddr (h : Hub) (d part : Nat) : Nat :=
  let s := (devLog h.keep d part).cur
  s.idx * 65536 + s.used * 64

/-- Spare sectors of a device, and the first one (Table KEP-1). -/
def spareFirst : Nat := 890

/-- A sector is retired: the lowest free spare takes its place (R433). A spare starts with ERASE_CNT 0 (DEDUCED, log
entry 32). With no spare free the device becomes FAILED. The REMAP record is written with the replacement. -/
def retire (h : Hub) (d part : Nat) (s : KSec) : Hub × Option KSec :=
  let free := fld h pKEP (Fld.KEP.DEV_SPARES.nth d)
  if free = 0 then (devFail h d 6 (s.idx * 65536), none)
  else
    let v := mapGet h.keep.devs d .fresh
    let spare := spareFirst + v.remap.length
    let rec' : KRec := { seq := v.remap.length + 1, body := .remap s.idx spare }
    let h := { h with keep := { h.keep with devs := mapPut h.keep.devs d { v with remap := v.remap ++ [(s.idx, spare)] } } }
    let h := if part = 7 then h else devPuts h d 7 (batchUnits [rec'])
    let h := setFld h pKEP (Fld.KEP.DEV_SPARES.nth d) (free - 1)
    (wearCheck h, some { s with erases := 0, used := 1, units := [], retire := false })

/-- A sector as it stands after its erase (R424), its retirement apart. -/
def erased (s : KSec) : KSec := { s with erases := s.erases + 1, used := 1, units := [], retire := false }

/-- Erase sectors of a bank, each replaced by a spare when it must be retired. -/
def eraseBank (h : Hub) (d part : Nat) : List KSec → Nat → Hub × List KSec
  | [], _ => (h, [])
  | s :: t, seq =>
    let h := bump h pKEP Fld.KEP.ERASE_CNT
    let s' := erased s
    let (h, r) := if s.retire || 100000 ≤ s'.erases then retire h d part s else (h, some s')
    let (h, rest) := eraseBank h d part t (seq + 1)
    (h, (match r with
      | some x => [{ x with seq := seq }]
      | none => []) ++ rest)

/-- Highest SECTOR_SEQ of a log. -/
def topSecSeq (l : KLog) : Nat := l.secs.foldl (fun m s => max m s.seq) 0

/-! ### Snapshots of the banked sub-areas (R425) -/

/-- The records of a snapshot of every item in force. -/
def snapshot (h : Hub) (part : Nat) : List KBody :=
  match part with
  | 4 => ((keepRecs h 4).foldl (fun (acc : List (Nat × Nat)) r => match r.body with
      | .zh i n _ => if acc.contains (i, n) then acc else acc ++ [(i, n)]
      | _ => acc) []).map (fun x => .zh x.1 x.2 ((zhItem h x.1 x.2).getD 0))
  | 5 => (List.range 9).map (fun k => .markSnap (7904 * k)
      (((keepMarks h).map (·.1)).filter (fun g => 7904 * k ≤ g && g < 7904 * (k + 1))))
  | 6 => match keepMap h with
    | none => []
    | some (ep, ser, m) =>
      (List.range 199).map (fun k => KBody.mapSnap (330 * k)
        ((List.range (min 330 (65536 - 330 * k))).map (fun i => mapGet m (330 * k + i) unmappedEntry))) ++
        [.epoch ep (match h.tulle.profile with
          | some p => p.fabricId
          | none => 0) ser 0 true]
  | _ => []

/-- Switch the banks of a partition on a device: the other bank is erased and takes the snapshot, then the old bank is
erased (R425). -/
def switchBank (h : Hub) (part : Nat) (us : List KUnit) (d : Nat) : Hub :=
  let l := devLog h.keep d part
  let (h, new) := eraseBank h d part l.other (topSecSeq l + 1)
  match new with
  | [] => h
  | s :: t =>
    match logPuts { full := [], cur := s, ahead := t, other := [] } us with
    | none => h
    | some l' =>
      let (h, old) := eraseBank h d part (l.full ++ [l.cur] ++ l.ahead) (topSecSeq l + 1 + new.length)
      putLog h d part { l' with other := old }

/-- Switch the banks on every device that takes batches. -/
def switchBanks (h : Hub) (part : Nat) : Hub :=
  let bs := splitBatches (snapshot h part) [] 0
  let rs := numberFrom (lastSeq h part + 1) bs.flatten
  let us := (bs.foldl (fun (acc : List KUnit × List KRec) b =>
    (acc.1 ++ batchUnits (acc.2.take b.length), acc.2.drop b.length)) ([], rs)).1
  bumpBy ((activeDevs h).foldl (fun h d => switchBank h part us d) h) pKEP Fld.KEP.BATCH_CNT bs.length

/-! ### What the next batch holds (R429, R440, R441, R435, R436) -/

/-- SCB_DONE records of a list of notes, four notes each. -/
def doneRecs : Nat → List DoneNote → List KBody
  | 0, _ => []
  | _, [] => []
  | n + 1, ns => .done (ns.take 4) :: doneRecs n (ns.drop 4)

/-- The pending SCB_ACCEPT records, as at acceptance. -/
def acceptRecs (h : Hub) : List KBody :=
  h.scb.accepts.filterMap (fun q => (mapGet? h.scb.ring (q % 65536)).map (fun r =>
    .accept { r with done := false, status := 0, noCqe := false, committed := false }))

/-- The SCB_TAIL record. -/
def tailRec (h : Hub) (cause : Nat) : KBody := .tail (h.scb.issued % 2 ^ 48) cause h.htime h.scb.bootLseq (tokensHeld h)

/-- The next Scorebook batch. -/
def scbBatch (h : Hub) : List KBody :=
  if h.scb.boot = 1 then [.boot h.scb.bootLseq (fld h pPRK Fld.PRK.BGEN) h.htime]
  else
    let acc := acceptRecs h
    let done := doneRecs h.scb.notes.length h.scb.notes
    match h.scb.tails with
    | 4 :: _ => acc ++ [tailRec h 4]
    | c :: _ =>
      let all := acc ++ done
      if all.length ≤ 62 then all ++ [tailRec h c] else all.take 63
    | [] =>
      if h.scb.sealAsk && !h.scb.sealed then
        [.sealed (h.scb.issued % 2 ^ 48) h.mode.sealTime h.scb.bootLseq h.tulle.epoch]
      else if acc.isEmpty && h.scb.notes.length < 128 then []
      else (acc ++ done).take 63

/-- The ledger entry that commits an item. -/
def itemEntry : PsnItem → Option PsnEntry
  | .new e _ => some e
  | .clear l => some { line := l, kind := 0, cause := 0, agent := 0, epoch := 0 }
  | .drop l _ => some { line := l, kind := 0, cause := 0, agent := 0, epoch := 0 }
  | _ => none

/-- Entries two by two. -/
def pairRecs : Nat → List PsnEntry → List KBody
  | 0, _ => []
  | _, [] => []
  | n + 1, es => .pair (es.take 2) :: pairRecs n (es.drop 2)

/-- Entries of the oldest ledger sector that still govern (R435). -/
def oldestGoverning (h : Hub) : List PsnEntry :=
  match healthyDevs h with
  | [] => []
  | d :: _ =>
    match (devLog h.keep d 3).full with
    | [] => []
    | s :: _ =>
      let seqs := s.units.filterMap (fun u => match u with
        | .data r => some r.seq
        | _ => none)
      let recs := keepRecs h 3
      let es := recs.flatMap (fun r => match r.body with
        | .pair es => es.map (fun e => (r.seq, e))
        | .pack es => es.map (fun e => (r.seq, e))
        | _ => [])
      let live := keepPsn h
      (es.filter (fun x => seqs.contains x.1 && live.contains x.2 &&
        !es.any (fun y => y.2.line == x.2.line && x.1 < y.1))).map (·.2)

/-- Erased sectors ahead of the write position of the ledger, on the device that has fewest. -/
def sectorsAhead (h : Hub) (part : Nat) : Nat :=
  (healthyDevs h).foldl (fun m d => min m (devLog h.keep d part).ahead.length) 1024

/-- Entries in packs of 62. -/
def packRecs : Nat → List PsnEntry → List KBody
  | 0, _ => []
  | _, [] => []
  | n + 1, es => .pack (es.take 62) :: packRecs n (es.drop 62)

/-- The next Poison Ledger batch: pending items, or compaction (R435). Compaction goes first once no more than 2 sectors
lie ahead (DESIGN CHOICE, log entry 32). -/
def psnBatch (h : Hub) : List KBody :=
  let items := (h.psn.pend.filterMap (fun i => itemEntry i.1)).take 126
  let n := sectorsAhead h 3
  let compact := if n < 4 then (packRecs 3 (oldestGoverning h)).take 3 else []
  if items.isEmpty || (n ≤ 2 && !compact.isEmpty) then compact else pairRecs 63 items

/-- Marks two by two. -/
def markRecs : Nat → List (Nat × Bool × Nat) → List KBody
  | 0, _ => []
  | _, [] => []
  | n + 1, ms => .markDelta (ms.take 2) :: markRecs n (ms.drop 2)

/-- The next batch of granule marks. -/
def markBatch (h : Hub) : List KBody :=
  let w := lastSeq h 3
  markRecs 63 ((h.psn.pend.filterMap (fun i => match i.1 with
    | .mark g _ => some (g, true, w)
    | .unmark g => some (g, false, w)
    | _ => none)).take 126)

/-- The partition and records of the next batch, in the order of R429. -/
def nextBatch (h : Hub) : Option (Nat × List KBody) :=
  [(2, scbBatch h), (3, psnBatch h), (6, firstBatch h.kep.mapPend), (5, markBatch h)].find?
    (fun x => !x.2.isEmpty)

/-- Every device that takes batches has room for the units. -/
def roomFor (h : Hub) (part : Nat) (us : List KUnit) : Bool :=
  (activeDevs h).all (fun d => (logPuts (devLog h.keep d part) us).isSome)

/-- Append the records owed to a device (R431). -/
def applyFixes (h : Hub) (part : Nat) : Hub :=
  let mine := h.kep.fixes.filter (fun x => x.2.1 == part)
  let h := mine.foldl (fun h x => bump (devPuts h x.1 part (batchUnits [x.2.2])) pKEP Fld.KEP.MIRROR_FIX_CNT) h
  { h with kep := { h.kep with fixes := h.kep.fixes.filter (fun x => x.2.1 != part) } }

/-- Start the next batch (R426, R429). No batch starts while no device is HEALTHY (R434). -/
def batchStart (h : Hub) : Hub :=
  if h.kep.batch.isSome || (healthyDevs h).isEmpty || h.boot.point = .none || h.boot.point = .rom then h
  else
    match nextBatch h with
    | none => h
    | some (part, bs) =>
      let h := applyFixes h part
      let us := fun (h : Hub) => batchUnits (numberFrom (lastSeq h part + 1) bs)
      let h := if 4 ≤ part && !roomFor h part (us h) then switchBanks h part else h
      if roomFor h part (us h) then
        { h with kep := { h.kep with batch := some { part := part, recs := numberFrom (lastSeq h part + 1) bs,
                                                     phase2 := false, passed := [], tries := [0, 0] } } }
      else h

/-! ### The two phases -/

/-- A read-back failed: what was programmed is torn, its sector is retired at its next erase, and the batch is programmed
again at the next page boundary, at most twice (R428). -/
def programFail (h : Hub) (b : KBatch) (d units : Nat) : Hub × KBatch :=
  let l := devLog h.keep d b.part
  let l := { l with cur := { l.cur with retire := true } }
  let l := match logPut l (.torn units) with
    | some l => logAlign l
    | none => l
  let addr := writeAddr h d b.part
  let h := putLog h d b.part l
  if b.tries.getD d 0 < 2 then
    (bump h pKEP Fld.KEP.PROG_RETRY_CNT, { b with tries := b.tries.set d (b.tries.getD d 0 + 1) })
  else (devFail h d 4 addr, b)

/-- Put a batch back, unless a failure gave it up. -/
def keepBatch (h : Hub) (b : KBatch) : Hub :=
  if h.kep.batch.isSome then { h with kep := { h.kep with batch := some b } } else h

/-- Data units of a batch. -/
def batchSize (b : KBatch) : Nat := b.recs.foldl (fun n r => n + r.body.typ.2) 0

/-- Phase 1 ends on the devices not listed and fails on those listed (R426, R428). -/
def phase1 (h : Hub) (fail : List Nat) : Hub :=
  match h.kep.batch with
  | none => h
  | some b =>
    if b.phase2 then h
    else
      let (h, b) := ((activeDevs h).filter (fun d => !b.passed.contains d)).foldl
        (fun (acc : Hub × KBatch) d =>
          if fail.contains d then programFail acc.1 acc.2 d (batchSize acc.2)
          else (devPuts acc.1 d acc.2.part (acc.2.recs.map .data), { acc.2 with passed := d :: acc.2.passed })) (h, b)
      let b := if (activeDevs h).all (fun d => b.passed.contains d) then { b with phase2 := true, passed := [] } else b
      keepBatch h b

/-- Answer the peer that awaits the commit of an item (R264). -/
def commitAnswer (h : Hub) (i : PsnItem) : Hub :=
  match i with
  | .new e (some n) =>
    sendMsg h n 0x6E (intAgent (ownNode h)) 0 0 0 false 2 (.xfer (granuleOf e.line) true false [e])
  | .mark g (some n) =>
    sendMsg h n 0x6E (intAgent (ownNode h)) 0 0 0 false 6 (.xfer g true true [])
  | _ => h

/-- The first pending item that a test accepts is committed. -/
def itemDone (h : Hub) (p : PsnItem → Bool) : Hub :=
  match h.psn.pend.find? (fun i => p i.1) with
  | none => h
  | some (i, t) =>
    let h := modPsn h (fun q => { q with pend := q.pend.erase (i, t) })
    let h := match i with
      | .new e _ => if e.kind = 1 then ownerAdd h e.line false else h
      | _ => h
    commitAnswer h i

/-- What takes place when a record is committed (R265, R284, R437, R439, R440, R441). -/
def recDone (h : Hub) (r : KRec) : Hub :=
  match r.body with
  | .accept x =>
    let h := { h with scb := { h.scb with
      accepts := h.scb.accepts.erase x.seq,
      ring := match mapGet? h.scb.ring (x.seq % 65536) with
        | some y => if y.seq = x.seq then mapPut h.scb.ring (x.seq % 65536) { y with committed := true } else h.scb.ring
        | none => h.scb.ring } }
    bump h pSCB Fld.SCB.DUR_COMMIT_CNT
  | .done ns => { h with scb := { h.scb with notes := ns.foldl (fun l n => l.erase n) h.scb.notes } }
  | .tail last c _ _ _ =>
    let h := { h with scb := { h.scb with tailSeq := last, tails := h.scb.tails.erase c } }
    raise (setIstat (bump h pSCB Fld.SCB.TAIL_CNT) pSCB 0) 85
  | .boot .. => { h with scb := { h.scb with boot := 2 } }
  | .sealed .. => { h with scb := { h.scb with sealed := true } }
  | .pair es => es.foldl (fun h e => itemDone h (fun i => itemEntry i == some e)) h
  | .markDelta ms => ms.foldl (fun h m => itemDone h (fun i => match i with
      | .mark g _ => m.2.1 && g == m.1
      | .unmark g => !m.2.1 && g == m.1
      | _ => false)) h
  | .mapDelta .. => { h with kep := { h.kep with mapPend := h.kep.mapPend.erase r.body } }
  | .epoch .. => { h with kep := { h.kep with mapPend := h.kep.mapPend.erase r.body } }
  | _ => h

/-- Phase 2 ends on the devices not listed; once it has passed on every device, the batch is committed (R426, R428). -/
def phase2 (h : Hub) (fail : List Nat) : Hub :=
  match h.kep.batch with
  | none => h
  | some b =>
    if !b.phase2 then h
    else
      let us := batchUnits b.recs
      let (h, b) := ((activeDevs h).filter (fun d => !b.passed.contains d)).foldl
        (fun (acc : Hub × KBatch) d =>
          if fail.contains d then
            let (h, b) := programFail acc.1 acc.2 d 1
            (if devState h d = 2 then h else devPuts h d b.part (b.recs.map .data), b)
          else (devPuts acc.1 d acc.2.part (us.drop acc.2.recs.length), { acc.2 with passed := d :: acc.2.passed })) (h, b)
      if h.kep.batch.isSome && (activeDevs h).all (fun d => b.passed.contains d) then
        let h := { h with kep := { h.kep with batch := none } }
        b.recs.foldl recDone (bump h pKEP Fld.KEP.BATCH_CNT)
      else keepBatch h b

/-! ### Sectors (R424, R433, R435) -/

/-- The oldest sector of a circular log is due for erasure. -/
def eraseDue (h : Hub) (d part : Nat) : Bool :=
  let l := devLog h.keep d part
  !l.full.isEmpty && devState h d != 2 &&
    (if part = 2 then l.ahead.length ≤ 2 else part == 3 && l.ahead.length < 4 && (oldestGoverning h).isEmpty)

/-- ERASE_CNT that the hub takes for a sector before its erase: that of its SECTOR record, or the partition's highest where
the record is invalid (R424). -/
def oldErases (l : KLog) (s : KSec) (header : Bool) : Nat :=
  if header then s.erases else l.secs.foldl (fun m x => max m x.erases) 0

/-- The erase of the oldest sector of a circular log ends. -/
def sectorErased (h : Hub) (d part : Nat) (e : EraseEnd) : Hub :=
  if !eraseDue h d part then h
  else
    let l := devLog h.keep d part
    match l.full with
    | [] => h
    | s :: t =>
      let h := bump h pKEP Fld.KEP.ERASE_CNT
      let s' := erased { s with erases := oldErases l s e.header }
      let (h, r) := if !e.ok || s.retire || 100000 ≤ s'.erases then retire h d part s else (h, some s')
      match r with
      | none => h
      | some x => wearCheck (putLog h d part { l with full := t, ahead := l.ahead ++ [{ x with seq := topSecSeq l + 1 }] })

/-! ### Device faults and rebuild (R432) -/

/-- A device that passes a probe enters REBUILDING, whatever it holds: its remap area is built afresh. -/
def probePassed (h : Hub) (d : Nat) : Hub :=
  let h := atPage h pKEP (fun h =>
    let h := setFld h pKEP (Fld.KEP.DEV_STATE.nth d) 1
    let h := setFld h pKEP (Fld.KEP.DEV_CAUSE.nth d) 0
    let h := setFld h pKEP (Fld.KEP.DEV_SPARES.nth d) 134
    setFld h pKEP (Fld.KEP.DEV_REBUILD_POS.nth d) 0)
  let v := mapGet h.keep.devs (1 - d) .fresh
  let w : KDev := { logs := mapPut v.logs 7 (freshLog 888 1 1), remap := [] }
  { h with keep := { h.keep with devs := mapPut h.keep.devs d w } }

/-- The end of a probe of a device, which matters to a FAILED one. -/
def probeEnd (h : Hub) (d : Nat) (pass : Bool) : Hub := if devState h d = 2 && pass then probePassed h d else h

/-- Sectors that a rebuild copies: every partition and sub-area but the remap area. -/
def copySectors : Nat := 888

/-- The last sector is copied: the device is HEALTHY and holds what the other does, its remap area apart. A batch that runs
has passed on it where it has on the other. -/
def rebuildDone (h : Hub) (d : Nat) : Hub :=
  let v := mapGet h.keep.devs (1 - d) .fresh
  let w := mapGet h.keep.devs d .fresh
  let w : KDev := { w with logs := mapPut v.logs 7 (devLog h.keep d 7) }
  let again := fun (b : KBatch) =>
    { b with passed := (if b.passed.contains (1 - d) then [d] else []) ++ b.passed.filter (· != d) }
  let h := { h with keep := { h.keep with devs := mapPut h.keep.devs d w },
                    kep := { h.kep with batch := h.kep.batch.map again } }
  let h := atPage h pKEP (fun h => setFld h pKEP (Fld.KEP.DEV_STATE.nth d) 0)
  wearCheck (setIstat h pKEP 1)

/-- One more sector is copied from the HEALTHY device; after the last the device is HEALTHY. -/
def rebuildCopy (h : Hub) (d : Nat) : Hub :=
  if devState h d != 1 || devState h (1 - d) != 0 then h
  else
    let n := fld h pKEP (Fld.KEP.DEV_REBUILD_POS.nth d) + 1
    let h := setFld h pKEP (Fld.KEP.DEV_REBUILD_POS.nth d) n
    if n < copySectors then h else rebuildDone h d

/-! ### Reading every record back (R431) -/

/-- Device byte address of a record in a sector. -/
def unitAddr (seq : Nat) : List KUnit → Nat → Option Nat
  | [], _ => none
  | u :: t, a => match u with
    | .data r => if r.seq = seq then some a else unitAddr seq t (a + 64 * u.size)
    | _ => unitAddr seq t (a + 64 * u.size)

/-- Device byte address of a record of a log. -/
def recAddr (l : KLog) (seq : Nat) : Nat :=
  (((l.full ++ [l.cur]).filterMap (fun s => unitAddr seq s.units (s.idx * 65536 + 64))).head?).getD 0

/-- The record's units of a log no longer read back. -/
def spoil (l : KLog) (seq : Nat) : KLog :=
  let f := fun (s : KSec) => { s with units := s.units.map (fun u => match u with
    | .data r => if r.seq = seq then KUnit.torn r.body.typ.2 else u
    | _ => u) }
  { l with full := l.full.map f, cur := f l.cur }

/-- A committed record reads invalid on the devices given: the valid copy is appended to the device with the bad one in
the partition's next batch, or, invalid on both, the record is lost. -/
def badRecord (h : Hub) (part seq : Nat) (ds : List Nat) : Hub :=
  let good := (healthyDevs h).filter (fun d => !ds.contains d && (devRecs h.keep d part).any (fun r => r.seq == seq))
  let bad := (healthyDevs h).filter (fun d => ds.contains d && (devRecs h.keep d part).any (fun r => r.seq == seq))
  match bad with
  | [] => h
  | b :: _ =>
    let r := (devRecs h.keep (good.headD 0) part).find? (fun r => r.seq == seq)
    let addr := recAddr (devLog h.keep b part) seq
    let h := bad.foldl (fun h d => putLog h d part (spoil (devLog h.keep d part) seq)) h
    match good, r with
    | _ :: _, some r => { h with kep := { h.kep with fixes := h.kep.fixes ++ bad.map (fun d => (d, part, r)) } }
    | _, _ => setIstat (errlog (bump h pKEP Fld.KEP.READ_ERR_CNT) pKEP 2 addr part) pKEP 4

/-- The daily read finds the records listed, as (device, partition, SEQ), invalid. -/
def dailyRead (h : Hub) (bad : List (Nat × Nat × Nat)) : Hub :=
  ((bad.map (fun x => x.2)).eraseDups).foldl
    (fun h x => badRecord h x.1 x.2 ((bad.filter (fun y => y.2 == x)).map (·.1))) h

/-! ### The start (R430, R431) -/

/-- The records committed on the other device and missing or torn on this one are appended, before any new batch of the
partition. -/
def mirrorFix (h : Hub) (d part : Nat) : Hub :=
  let mine := devRecs h.keep d part
  let low := mine.foldl (fun m r => min m r.seq) (2 ^ 64)
  let miss := (devRecs h.keep (1 - d) part).filter (fun r =>
    !mine.any (fun x => x.seq == r.seq) && (mine.isEmpty || low < r.seq))
  if miss.isEmpty || devState h d != 0 || devState h (1 - d) != 0 then h
  else bump (devPuts h d part (batchUnits miss)) pKEP Fld.KEP.MIRROR_FIX_CNT

/-- Each log's next batch starts at a page boundary, and the devices' logs are made to agree. -/
def keepStart (h : Hub) : Hub :=
  let parts := [2, 3, 4, 5, 6]
  let h := parts.foldl (fun h p => [0, 1].foldl (fun h d => putLog h d p (logAlign (devLog h.keep d p))) h) h
  parts.foldl (fun h p => [0, 1].foldl (fun h d => mirrorFix h d p) h) h

/-! ### Commands -/

/-- BATCH_START (R426, R429). -/
def execBatchStart (s : State) : Res := .next (s.onHub batchStart)

/-- PHASE1_COMPLETE (R426, R428). -/
def execPhase1Complete (fail : List KsDev) (s : State) : Res := .next (s.onHub fun h => phase1 h (fail.map (·.val)))

/-- An external programmer drives the devices while HUB_RESET_N is asserted (R469). The rows that write a slot, and the row
that erases, stand for what it does (DESIGN CHOICE, log entry 80). -/
def byProgrammer (h : Hub) (f : Keep → Keep) (hubs : Hub → Hub) : Hub :=
  if h.pins.hubReset then { h with keep := f h.keep } else hubs h

/-- Every log partition and sub-area of both devices is erased (R470). -/
def keepBlank (k : Keep) : Bool :=
  k.ledger.isEmpty && k.devs.all (fun d => d.2.logs.all (fun l =>
    l.2.full.isEmpty && l.2.cur.units.isEmpty && l.2.ahead.all (·.units.isEmpty) && l.2.other.all (·.units.isEmpty)))

/-- A partition of a device is erased whole: the boot ledger (1), or a log. -/
def eraseWhole (k : Keep) (d part : Nat) : Keep :=
  let fresh := (mapGet? KDev.fresh.logs part).getD (freshLog 0 1 0)
  let k := if part = 1 then { k with ledger := [], ldgPos := 0 }
    else { k with devs := k.devs.map (fun x => if x.1 = d then
      (d, { x.2 with logs := x.2.logs.map (fun l => if l.1 = part then (part, fresh) else l) }) else x) }
  { k with blank := keepBlank k }

/-- SECTOR_ERASE_COMPLETE (R424, R433, R469). -/
def execSectorEraseComplete (d : KsDev) (part : Nat) (e : EraseEnd) (s : State) : Res :=
  .next (s.onHub fun h =>
    byProgrammer h (fun k => if e.ok then eraseWhole k d.val part else k) (fun h => sectorErased h d.val part e))

/-- DEVICE_PROBE (R417, R432). -/
def execDeviceProbe (d : KsDev) (pass : Bool) (s : State) : Res := .next (s.onHub fun h => probeEnd h d.val pass)

/-- KEP_PROBE (R432, R445): a write of 1 to CTL.PROBE probes every FAILED device. -/
def execKepProbe (o : Origin) (pass : List KsDev) (s : State) : Res :=
  .next (s.onHub fun h => guarded h o pKEP 0x100 1 (fun h =>
    [0, 1].foldl (fun h d => probeEnd h d ((pass.map (·.val)).contains d)) h))

/-- REBUILD_SECTOR_COPY (R432). -/
def execRebuildSectorCopy (d : KsDev) (s : State) : Res := .next (s.onHub fun h => rebuildCopy h d.val)

/-- DAILY_READ_TIMER (R431). -/
def execDailyReadTimer (bad : List (KsDev × Nat × Nat)) (s : State) : Res :=
  .next (s.onHub fun h => dailyRead h (bad.map (fun x => (x.1.val, x.2.1, x.2.2))))

/-- RD_SEQ_WRITE (R442). -/
def execRdSeqWrite (o : Origin) (v : Nat) (s : State) : Res :=
  .next (s.onHub fun h => guarded h o pSCB 0x11C (v % 2 ^ 32) (fun h =>
    setFld64 h pSCB Fld.SCB.RD_SEQ_LO Fld.SCB.RD_SEQ_HI (v % 2 ^ 64)))

/-- Start of a fetch (R443). -/
def fetchStart (h : Hub) : Hub × List AccKind :=
  if flag h pSCB Fld.SCB.STAT_DUR_BUSY then (h, [.stateRefused])
  else
    ({ setFld h pSCB Fld.SCB.STAT_DUR_BUSY 1 with scb := { h.scb with fetchSel := fld h pSCB Fld.SCB.DUR_SEL } }, [])

/-- DURABLE_FETCH (R443): a write of 1 to DUR_CTL.FETCH. -/
def execDurableFetch (o : Origin) (s : State) : Res := .next (s.onHub fun h => guardedK h o pSCB 0x148 1 fetchStart)

/-- DURABLE_FETCH_DONE (R443). -/
def execDurableFetchDone (s : State) : Res :=
  .next (s.onHub fun h =>
    if !flag h pSCB Fld.SCB.STAT_DUR_BUSY then h
    else
      let rs := keepRecs h 2
      let r := rs[h.scb.fetchSel]?
      let h := { h with scb := { h.scb with fetched := r } }
      let h := setFld h pSCB Fld.SCB.STAT_DUR_BUSY 0
      let h := setFld h pSCB Fld.SCB.STAT_DUR_VALID (b2n r.isSome)
      let h := setFld h pSCB Fld.SCB.STAT_DUR_END (b2n (rs.length ≤ h.scb.fetchSel))
      setIstat h pSCB 2)

end Sys2Proof.Machine
end

