-- ==== Sys2Proof/Machine/TulleCmd.lean ====
section
/-! DEFINITION. Meanings of the rows of Tulle's management: HELLO, link state, epochs, map fetch, fences, time,
heartbeats, handoff, Poison Ledger transfers (chapter 05; R264 to R270; R456, R457). -/

namespace Sys2Proof.Machine

/-- Node that sent a message. -/
def fromNode (hd : Hdr) : Nat := agentNode hd.src

/-- Send a unicast VC6 message of this hub. -/
def sendMgmt (h : Hub) (n opc attr : Nat) (body : Payload) : Hub :=
  sendMsg h n opc (intAgent (ownNode h)) 0 0 0 false attr body

/-- Act on Tulle while its management channels run (R119). -/
def State.onFabric (s : State) (f : Hub → Hub) : State := s.onTulle (fun h => if tulleRuns h then f h else h)

/-! ### Admission (R114 to R117) -/

/-- The outcome of the checks of Table TUL-2. -/
inductive Admit where
  | pass | wait | fail (code : Nat)
  deriving DecidableEq, Repr

/-- The admission checks in their order, for the peer's last HELLO (Table TUL-2). -/
def admitCheck (h : Hub) (b : Nat) : Admit :=
  let l := tlink h b
  match l.hello, h.tulle.profile with
  | some m, some p =>
    if max (max 1 m.levelLo) p.levelMin > min (min 1 m.levelHi) p.levelMax then .fail 1
    else
      match l.auth with
      | none => .wait
      | some (ok, serial) =>
        if !ok || serial != m.serial then .fail 2
        else if m.fabricId != p.fabricId || m.digest != h.tulle.digest then .fail 3
        else if !p.members.contains (l.peer, m.serial) then .fail 4
        else if m.zhSvn < p.svnFloor then .fail 5
        else .pass
  | _, _ => .wait

/-- The link's admission ends, or never came. -/
def unadmit (h : Hub) (b : Nat) : Hub :=
  if (tlink h b).admitted then sendLsa (modLink h b (fun l => { l with admitted := false, level := 0, cost := 0 })) else h

/-- A link and the peer behind it are admitted (R114 to R117). -/
def admitLink (h : Hub) (b : Nat) : Hub :=
  let l := tlink h b
  if l.admitted then h
  else
    let h := modLink h b (fun l => { l with admitted := true, level := 1, cost := linkCost h b })
    let h := modNode (readmit h l.peer) l.peer (fun r => { r with lsaAny := true })
    sendLsa (setIstat h pTUL 0)

/-- Send an SPDM message of mutual authentication. Its MCTP packet, of 5 to 68 bytes, is a free value: the spec gives the
exchange's bytes to SPDM 1.3 (R114). -/
def sendSpdm (h : Hub) (b : Nat) : Hub :=
  let (n, h) := freeBytes h 1
  let (bs, h) := freeBytes h (5 + n.headD 0 % 64)
  sendLink h b 0x61 (ownNode h) 31 0 (.spdm bs)

/-- Run the admission checks of a link (R114). -/
def runChecks (h : Hub) (b : Nat) : Hub :=
  match admitCheck h b with
  | .wait => if (tlink h b).hello.isSome && h.tulle.profile.isSome then sendSpdm h b else h
  | .pass => admitLink h b
  | .fail c =>
    let h := disagree (unadmit h b) c (tlink h b).peer b
    if c = 1 then refuseLevel h b else h

/-- A HELLO whose contents are new (R114). The first one of a raised link that shows no domain and epoch 0 is that of a
hub that has started, so its flows start at 0 (DEDUCED, log entry 84). An unadmitted link authenticates afresh; an
admitted one keeps what was proven (DESIGN CHOICE, log entry 85). -/
def takeHello (h : Hub) (b n : Nat) (m : HelloMsg) : Hub :=
  let l := tlink h b
  let h := if l.hello.isNone && m.epoch = 0 && !m.present then freshFlows h n else h
  runChecks (modLink h b (fun l => { l with hello := some m, peer := n, auth := if l.admitted then l.auth else none })) b

/-- HELLO (R114, R115): the checks are run when the peer's HELLO changes. -/
def execHello (b : Bay) (hd : Hdr) (m : HelloMsg) (s : State) : Res :=
  .next (s.onFabric fun h => mgmtRow h b hd (.hello m) 0x60 (fun h =>
    if (tlink h b.val).hello = some m then h else takeHello h b.val (fromNode hd) m))

/-- HELLO_TIMER (R114): at least every 10 ms. -/
def execHelloTimer (b : Bay) (s : State) : Res :=
  .next (s.onFabric fun h =>
    if (tlink h b.val).up then sendHello (advanceTo h ((tlink h b.val).helloAt + 20000000)) b.val else h)

/-- SPDM (R114): a message of mutual authentication; the last one settles the AUTH check. A packet length outside 5 to 68
is not that of the table (Table TUL-9, R143). -/
def execSpdm (b : Bay) (hd : Hdr) (m : SpdmIn) (s : State) : Res :=
  .next (s.onFabric fun h => mgmtRow h b hd (.spdm m.packet) 0x61 (fun h =>
    if m.packet.length < 5 || 68 < m.packet.length then protoErr h hd.addr hd.opc hd.src
    else if m.final then runChecks (modLink h b.val (fun l => { l with auth := some (m.authOk, m.serial) })) b.val
    else sendSpdm h b.val))

/-! ### Link state (R116) -/

/-- LSA (R116, R144). -/
def execLsa (b : Bay) (hd : Hdr) (seq : Nat) (links : List LsaLink) (s : State) : Res :=
  .next (s.onFabric fun h => mgmtRow h b hd (.lsa seq links) 0x62 (fun h =>
    let n := fromNode hd
    let r := nodeRt h n
    if n != ownNode h && (r.lsaAny || seqNewer seq r.lsaSeq) then
      floodOn (storeLsa h n seq links) b.val hd (.lsa seq links)
    else h))

/-- LSA_TIMER (R116): at least every 1 s. -/
def execLsaTimer (s : State) : Res :=
  .next (s.onFabric fun h =>
    if h.tulle.profile.isSome then sendLsa (advanceTo h (h.tulle.lsaAt + 2000000000)) else h)

/-! ### Epochs (R122 to R126) -/

/-- AUTO_PROPOSE_TIMER (R123). -/
def execAutoProposeTimer (s : State) : Res :=
  .next (s.onFabric fun h =>
    if h.tulle.changed && quorumHeld h && (presentNodes h).foldl min 128 = ownNode h && h.tulle.own.isNone then
      propose (advanceTo h (h.tulle.changedAt + 2000000)) [] false false
    else h)

/-- PROP_STAT reports a staging that is too large (R124). -/
def tooLarge (h : Hub) : Hub :=
  let h := setFld (setFld h pHMAP Fld.HMAP.PROP_STAT_STATE 3) pHMAP Fld.HMAP.PROP_STAT_CAUSE 0x0D
  disagree (setIstat h pHMAP 1) 0x0D (ownNode h) 0

/-- The staged differences are proposed, or are too many (R123, R124). -/
def proposeStaged (h : Hub) : Hub :=
  let ds := stageDiffs h
  if 1024 < ds.length then tooLarge h else propose h ds true false

/-- HMAP_PROPOSE: a write of 1 to ST_CTL.PROPOSE (R123, R124). -/
def execHmapPropose (o : Origin) (s : State) : Res :=
  .next (s.onTulle fun h => guarded h o pHMAP 0x118 2 proposeStaged)

/-- The current map is copied into the stage. -/
def restage (h : Hub) : Hub :=
  modTulle h (fun t => { t with stage := t.homeMap.foldl (fun m x =>
    mapSet m x.1 { homeEntry h x.1 with frozen := false } unmappedEntry) [] })

/-- HMAP_RESTAGE: a write of 1 to ST_CTL.RESTAGE (Table TUL-6). -/
def execHmapRestage (o : Origin) (s : State) : Res :=
  .next (s.onTulle fun h => guarded h o pHMAP 0x118 1 restage)

/-- Refuse a proposal, and log the disagreement (R123, R145). -/
def refuseProp (h : Hub) (n epoch cause : Nat) : Hub :=
  disagree (sendMgmt h n 0x66 0 (.refuse epoch cause)) cause n 0

/-- Stage a proposal, with the entries that came before it. -/
def stageProp (h : Hub) (n : Nat) (m : ProposeMsg) : Hub :=
  let es := (h.tulle.early.filter (fun x => x.1 == m.epoch && x.2.1 == n)).flatMap (·.2.2)
  modTulle h (fun t => { t with
    early := t.early.filter (fun x => !(x.1 == m.epoch && x.2.1 == n)),
    staged := some { epoch := m.epoch, proposer := n, members := m.members, count := m.count, root := m.root,
                     entries := es, lsdb := lsdbOf h, answered := false } })

/-- A PROPOSE that is new (R123, R124): of two for one epoch the lower node ID wins, unless the other one is committed, for
which every ACK has arrived (DESIGN CHOICE, log entry 82). -/
def takePropose (h : Hub) (n : Nat) (m : ProposeMsg) : Hub :=
  if (h.tulle.epoch + 1) % 2 ^ 64 != m.epoch then refuseProp h n m.epoch 0x0A
  else if lsdbDigest h != m.digest then refuseProp h n m.epoch 0x0C
  else
    match h.tulle.own, h.tulle.staged with
    | some o, _ =>
      if n < ownNode h && !o.committed then stageProp (disagree (abortProp h 0x0A) 0x0A n 0) n m else refuseProp h n m.epoch 0x0A
    | none, some p =>
      if stagedLive h p && (h.tulle.commitAt.isSome || p.proposer < n) then refuseProp h n m.epoch 0x0A
      else stageProp h n m
    | none, none => stageProp h n m

/-- PROPOSE (R123, R124, R144). -/
def execPropose (b : Bay) (hd : Hdr) (m : ProposeMsg) (s : State) : Res :=
  .next (s.onFabric fun h => mgmtRow h b hd (.propose m) 0x63 (fun h =>
    let (h, new) := floodNew h 0x63 (fromNode hd) m.epoch
    if new then floodOn (takePropose h (fromNode hd) m) b.val hd (.propose m) else h))

/-- Entries of a proposal join what is staged, or wait for their PROPOSE (R144). -/
def takeEntries (h : Hub) (n epoch : Nat) (es : List (Nat × HEntry)) : Hub :=
  match h.tulle.staged with
  | some p =>
    if p.epoch = epoch && p.proposer = n then
      modTulle h (fun t => { t with staged := some { p with entries := p.entries ++ es } })
    else modTulle h (fun t => { t with early := t.early ++ [(epoch, n, es)] })
  | none => modTulle h (fun t => { t with early := t.early ++ [(epoch, n, es)] })

/-- PROP_MAP (R123, R144). -/
def execPropMap (b : Bay) (hd : Hdr) (epoch first : Nat) (entries : List (Nat × HEntry)) (s : State) : Res :=
  .next (s.onFabric fun h => mgmtRow h b hd (.propMap epoch first entries) 0x64 (fun h =>
    let (h, new) := floodNew h 0x64 (fromNode hd) (epoch * 1024 + first)
    if new then floodOn (takeEntries h (fromNode hd) epoch entries) b.val hd (.propMap epoch first entries) else h))

/-- EPOCH_ACK (R123). -/
def execEpochAck (b : Bay) (hd : Hdr) (epoch : Nat) (s : State) : Res :=
  .next (s.onFabric fun h => mgmtRow h b hd (.epoch epoch) 0x65 (fun h =>
    match h.tulle.own with
    | some o =>
      if o.epoch = epoch && !o.committed then
        tryCommit (modTulle h (fun t => { t with own := some { o with awaiting := o.awaiting.erase (fromNode hd) } }))
      else h
    | none => h))

/-- REFUSE (R124, R145). -/
def execRefuse (b : Bay) (hd : Hdr) (epoch cause : Nat) (s : State) : Res :=
  .next (s.onFabric fun h => mgmtRow h b hd (.refuse epoch cause) 0x66 (fun h =>
    match h.tulle.own with
    | some o =>
      if o.epoch = epoch && !o.committed then disagree (abortProp h cause) cause (fromNode hd) 0 else h
    | none => h))

/-- EPOCH_TIMEOUT (R124): 10 ms after PROPOSE. -/
def execEpochTimeout (s : State) : Res :=
  .next (s.onFabric fun h =>
    match h.tulle.own with
    | some o =>
      if o.committed then h
      else disagree (abortProp (advanceTo h (o.at_ + 20000000)) 0x0B) 0x0B (o.awaiting.headD (ownNode h)) 0
    | none => h)

/-- A COMMIT that is new (R123, R125): one that arrives after the activation FTIME counts as late. -/
def takeCommit (h : Hub) (n epoch t : Nat) : Hub :=
  match h.tulle.staged with
  | some p =>
    if p.proposer != n || p.epoch != epoch || p.entries.length < p.count then h
    else if ftimeAhead h t then modTulle h (fun x => { x with commitAt := some (epoch, t) })
    else if ftime h = t then activateStaged h epoch
    else bump (activateStaged h epoch) pHMAP Fld.HMAP.LATE_CNT
  | none => h

/-- COMMIT (R123, R125, R144). -/
def execCommit (b : Bay) (hd : Hdr) (epoch t : Nat) (s : State) : Res :=
  .next (s.onFabric fun h => mgmtRow h b hd (.commit epoch t) 0x67 (fun h =>
    let (h, new) := floodNew h 0x67 (fromNode hd) epoch
    if new then floodOn (takeCommit h (fromNode hd) epoch t) b.val hd (.commit epoch t) else h))

/-- EPOCH_ACTIVATION (R123). -/
def execEpochActivation (s : State) : Res :=
  .next (s.onTulle fun h =>
    match h.tulle.commitAt with
    | some (ep, t) =>
      let h := if ftimeAhead h t then advance h (sub64 t (ftime h)) else h
      modTulle (activateStaged h ep) (fun x => { x with commitAt := none })
    | none => h)

/-! ### Map fetch (R125) -/

/-- The map as MAP_DATA messages of 32 entries. -/
def sendMap (h : Hub) (n : Nat) : Hub :=
  (List.range 2048).foldl (fun h i =>
    sendMgmt h n 0x69 0 (.mapData h.tulle.epoch (32 * i) ((List.range 32).map (fun j =>
      { mapGet h.tulle.homeMap (32 * i + j) unmappedEntry with frozen := false })))) h

/-- MAP_FETCH (R125). -/
def execMapFetch (b : Bay) (hd : Hdr) (epoch : Nat) (s : State) : Res :=
  .next (s.onFabric fun h => mgmtRow h b hd (.epoch epoch) 0x68 (fun h =>
    let n := fromNode hd
    sendMap (sendMgmt h n 0x6A 0 (.mapState h.tulle.epoch h.tulle.members h.tulle.root 2048)) n))

/-- MAP_STATE (R125). -/
def execMapState (b : Bay) (hd : Hdr) (epoch : Nat) (members : List Nat) (root : Option Nat) (count : Nat) (s : State) :
    Res :=
  .next (s.onFabric fun h => mgmtRow h b hd (.mapState epoch members root count) 0x6A (fun h =>
    match h.tulle.fetch with
    | some f =>
      if f.peer = fromNode hd then
        modTulle h (fun t => { t with
          fetch := some { peer := f.peer, epoch := epoch, members := members, root := root, left := count, entries := [] } })
      else h
    | none => h))

/-- Entries of a fetched map; the last message activates it (R125). Its routes come from the LSDB as it stands, since the
fetch brings no other (DEDUCED, log entry 20). -/
def takeMapData (h : Hub) (n epoch first : Nat) (es : List HEntry) : Hub :=
  match h.tulle.fetch with
  | some f =>
    if f.peer != n || f.epoch != epoch || f.left = 0 then h
    else
      let m := es.zipIdx.foldl (fun m x => mapSet m (first + x.2) { x.1 with frozen := false } unmappedEntry) f.entries
      if f.left = 1 then activate h (lsdbOf h) epoch f.members f.root m
      else modTulle h (fun t => { t with fetch := some { f with left := f.left - 1, entries := m } })
  | none => h

/-- MAP_DATA (R125). -/
def execMapData (b : Bay) (hd : Hdr) (epoch first : Nat) (entries : List HEntry) (s : State) : Res :=
  .next (s.onFabric fun h => mgmtRow h b hd (.mapData epoch first entries) 0x69 (fun h =>
    takeMapData h (fromNode hd) epoch first entries))

/-! ### Fences (R139) -/

/-- A flooded FENCE or UNFENCE. -/
def fenceRow (h : Hub) (b : Bay) (hd : Hdr) (n t : Nat) (un : Bool) : Hub :=
  mgmtRow h b hd (.fence n t un) 0x6C (fun h =>
    let (h, new) := floodNew h 0x6C (fromNode hd) (n + 128 * b2n un + 256 * t)
    if new then floodOn (if un then unfenceNode h n else fenceNode h n) b.val hd (.fence n t un) else h)

/-- FENCE (R139, R144). -/
def execFence (b : Bay) (hd : Hdr) (node : Node) (t : Nat) (s : State) : Res :=
  .next (s.onFabric fun h => fenceRow h b hd node.val t false)

/-- UNFENCE (R139, R144). -/
def execUnfence (b : Bay) (hd : Hdr) (node : Node) (t : Nat) (s : State) : Res :=
  .next (s.onFabric fun h => fenceRow h b hd node.val t true)

/-- hc of FENCE_GRACE. -/
def graceHc (h : Hub) : Nat :=
  match h.tulle.profile with
  | some p => p.grace * 2000000
  | none => 2000000000

/-- FENCE_GRACE_EXPIRY (R139): the fenced hub itself returns to ASSEMBLE, but from SEAL, which only a reset leaves (R19). -/
def execFenceGraceExpiry (node : Node) (s : State) : Res :=
  .next (s.onFabric fun h =>
    let n := node.val
    let r := nodeRt h n
    if !r.fenced then h
    else
      let h := unfenceNode (advanceTo h (r.fencedAt + graceHc h)) n
      if n = ownNode h then (if h.mode.mode = .seal then h else toAssemble h)
      else if r.present then memberLost h n 5
      else h)

/-! ### Fabric time (R137, R138) -/

/-- A difference of two times modulo 2^64 as a signed number. -/
def diff64 (a b : Nat) : Int := signedOf 64 (sub64 a b)

/-- θ of an exchange, rounded toward zero (R137). -/
def thetaOf (t1 t2 t3 t4 : Nat) : Int := (diff64 t2 t1 - diff64 t4 t3).tdiv 2

/-- THETA, saturating at ±(2^31 − 1). -/
def thetaWord (x : Int) : Nat :=
  let m : Int := 2147483647
  let y := if m < x then m else if x < -m then -m else x
  (y % 4294967296).toNat

/-- OFFSET is stepped by θ, or slewed toward it (R137). -/
def adjust (h : Hub) (x : Int) : Hub :=
  if 2000 < x.natAbs then
    modTulle h (fun t => { t with offset := (((t.offset : Int) + x) % 18446744073709551616).toNat, slew := 0, slewDone := 0,
                                  slewAt := h.htime })
  else
    let d : Int := if 32 < x then 32 else if x < -32 then -32 else x
    modTulle h (fun t => { t with slew := d, slewAt := h.htime, slewDone := 0 })

/-- SYNCED, TIME_SUSPECT and the fence follow an exchange (R137 to R139). -/
def judgeTheta (h : Hub) (x : Int) : Hub :=
  let a := x.natAbs
  let t := h.tulle
  let g100 := if a ≤ 100 then t.good100 + 1 else 0
  let b2000 := if 2000 < a && flag h pTIME Fld.TIME.STAT_SYNCED then t.bad2000 + 1 else 0
  let g2000 := if a ≤ 2000 then t.good2000 + 1 else 0
  let sync := flag h pTIME Fld.TIME.STAT_SYNCED
  let susp := flag h pTIME Fld.TIME.STAT_TIME_SUSPECT
  let fenced := flag h pTIME Fld.TIME.STAT_FENCED
  let h := modTulle h (fun t => { t with good100 := g100, bad2000 := b2000, good2000 := g2000 })
  let h := if 8 ≤ g100 then
      let h := atPage h pTIME (fun h => setFld (setFld h pTIME Fld.TIME.STAT_SYNCED 1) pTIME Fld.TIME.STAT_TIME_SUSPECT 0)
      if sync then h else setIstat h pTIME 0
    else if 4 ≤ b2000 && !susp then
      let h := atPage h pTIME (fun h => setFld h pTIME Fld.TIME.STAT_TIME_SUSPECT 1)
      disagree (setIstat h pTIME 1) 6 (ownNode h) 0
    else h
  if fenced then
    if 8 ≤ g2000 then unfenceNode (sendFence h (ownNode h) true) (ownNode h) else h
  else if sync && !susp && 200000 < a then fenceNode (sendFence h (ownNode h) false) (ownNode h)
  else h

/-- What the parent measures of the child it serves: the difference of the stamps of a TIME_REQ, whose path is far shorter than
100 µs. A child that has been within the bound and is measured outside it is fenced (R139: a hub may do so; DESIGN CHOICE,
log entry 86). -/
def judgeChild (h : Hub) (n t1 : Nat) : Hub :=
  let far := decide (200000 < (diff64 (ftime h) t1).natAbs)
  let r := nodeRt h n
  if !far then modNode h n (fun r => { r with timed := true })
  else if r.timed && !r.fenced && flag h pTIME Fld.TIME.STAT_SYNCED && !flag h pTIME Fld.TIME.STAT_TIME_SUSPECT then
    fenceNode (sendFence h n false) n
  else h

/-- TIME_REQ (R137, R139): answered unless the epoch has no time root (R136). -/
def execTimeReq (b : Bay) (hd : Hdr) (t1 : Nat) (s : State) : Res :=
  .next (s.onFabric fun h => mgmtRow h b hd (.time t1 0 0) 0x70 (fun h =>
    if flag h pTIME Fld.TIME.STAT_NO_ROOT then h
    else
      let h := sendMsg h (fromNode hd) 0x71 (intAgent (ownNode h)) 0 0 0 false 0 (.time t1 (ftime h) 0)
      judgeChild h (fromNode hd) t1))

/-- TIME_RSP (R137, R138, R139). -/
def execTimeRsp (b : Bay) (hd : Hdr) (t1 t2 t3 : Nat) (s : State) : Res :=
  .next (s.onFabric fun h => mgmtRow h b hd (.time t1 t2 t3) 0x71 (fun h =>
    if h.tulle.root.isNone || h.tulle.root = some (ownNode h) || fld h pTIME Fld.TIME.ROOT_PARENT != fromNode hd then h
    else
      let x := thetaOf t1 t2 t3 (ftime h)
      judgeTheta (adjust (setFld h pTIME Fld.TIME.THETA (thetaWord x)) x) x))

/-! ### Heartbeats (R140 to R142) -/

/-- A peer's heartbeat shows an epoch ahead of this hub's: the map is fetched from it (R125). -/
def lagCheck (h : Hub) (n epoch : Nat) : Hub :=
  if epoch ≤ h.tulle.epoch || h.tulle.fetch.isSome then h
  else
    let h := modTulle h (fun t => { t with
      fetch := some { peer := n, epoch := epoch, members := [], root := none, left := 0, entries := [] } })
    sendMgmt h n 0x68 0 (.epoch h.tulle.epoch)

/-- A heartbeat that is new. -/
def takeHeartbeat (h : Hub) (n : Nat) (m : HeartMsg) : Hub :=
  let was := (nodeRt h n).present
  let h := modNode h n (fun r => { r with present := true, hbAt := h.htime, hbSeq := some m.seq, mode := m.mode,
                                          suspect := m.suspect })
  let h := if was then h else sendForeign (noteChange h) n
  if m.mode = 5 && m.last then modNode (memberLost h n 6) n (fun r => { r with sealed := true })
  else lagCheck h n m.epoch

/-- HEARTBEAT (R140 to R142, R144). -/
def execHeartbeat (b : Bay) (hd : Hdr) (m : HeartMsg) (s : State) : Res :=
  .next (s.onFabric fun h => mgmtRow h b hd (.heart m) 0x72 (fun h =>
    let n := fromNode hd
    let r := nodeRt h n
    if n != ownNode h && (profileNodes h).contains n && !r.dead && seqNewer m.seq r.hbSeq then
      takeHeartbeat (floodOn h b.val hd (.heart m)) n m
    else h))

/-- HEARTBEAT_TIMEOUT (R141): 3.25 ms without a heartbeat. -/
def execHeartbeatTimeout (node : Node) (s : State) : Res :=
  .next (s.onFabric fun h =>
    let r := nodeRt h node.val
    if r.present && node.val != ownNode h then memberLost (advanceTo h (r.hbAt + 6500000)) node.val 4 else h)

/-! ### Live home handoff (R456, R457, Table MOD-3) -/

/-- START is refused (R456). -/
def handRefused (h : Hub) : Bool :=
  let g := fld h pMOD Fld.MOD.HO_GRAN
  let n := fld h pMOD Fld.MOD.HO_TARGET_NODE
  h.mode.mode != .drain || h.mode.brace || h.tulle.handA.isSome || !homedHere h g || n == ownNode h ||
    !(nodeRt h n).present || (nodeRt h n).fenced || nodeMode h n == 3 || nodeMode h n == 4

/-- HO_CTL.START. -/
def handStart (h : Hub) : Hub :=
  let g := fld h pMOD Fld.MOD.HO_GRAN
  let n := fld h pMOD Fld.MOD.HO_TARGET_NODE
  let l := fld h pMOD Fld.MOD.HO_TARGET_LOCAL
  if handRefused h then
    if h.tulle.handA.isSome then setFld h pMOD Fld.MOD.HO_STAT_CAUSE 6 else hoStat h 6 6
  else
    let h := modTulle h (fun t => { t with
      handA := some { gran := g, target := n, loc := l, oldLoc := (homeEntry h g).loc, st := .offer, dirty := [],
                      sent := 0, froze := 0, flushed := false, acked := false } })
    sendHo (hoStat h 1 0) n g 0 l 0 0

/-- HANDOFF_START: a write of HO_CTL with START 1 (R456). -/
def execHandoffStart (o : Origin) (maxUs : Nat) (s : State) : Res :=
  .next (s.onTulle fun h => guardedK h o pMOD 0x114 (1 + 2 * (maxUs % 4096)) (fun h =>
    let us := maxUs % 4096
    let bad := us = 0 || 4000 < us
    let h := if bad then h else setFld h pMOD Fld.MOD.HO_CTL_FREEZE_MAX_US us
    (handStart h, if bad then [.reservedEnc] else [])))

/-- Change the handoff this hub runs. -/
def modHandA (h : Hub) (f : HandA → HandA) : Hub := modTulle h (fun t => { t with handA := t.handA.map f })

/-- The handoff this hub runs with a peer over a granule, in a state. -/
def handWith (h : Hub) (n gran : Nat) (p : HandA → Bool) : Bool :=
  match h.tulle.handA with
  | some a => a.target == n && a.gran == gran && p a
  | none => false

/-- One HO_COPY message. -/
def sendCopy (h : Hub) (item : CopyItem) : Hub :=
  match h.tulle.handA with
  | none => h
  | some a =>
    let (attr, addr) := match item with
      | .data line _ _ => (0, line)
      | .dir i _ => (2, i)
      | .ledger _ => (4, 0)
      | .mark => (12, 0)
    let poison := match item with
      | .data _ _ p => p
      | _ => false
    modHandA (sendMsg h a.target 0x6F (intAgent (ownNode h)) 0 addr 0 poison attr (.copy item))
      (fun a => { a with sent := a.sent + 1 })

/-- The 64 bits of a directory entry as they are sent: a stale one as UNCACHED, an unreadable one as inconsistent. -/
def sentEntry (h : Hub) (k : Nat) : Nat :=
  let w := mapGet h.prk.region k 0
  if h.prk.bad.contains k || wayDown h (wayOfLma h (entryLma h k)) then 7 + 2 ^ 46 * bgen h
  else if bits w 46 12 != bgen h then 2 ^ 46 * bgen h
  else w

/-- Directory line i of a granule's run. -/
def dirLine (h : Hub) (loc i : Nat) : BitVec 512 :=
  BitVec.ofNat 512 ((List.range 8).foldl (fun acc j => acc + sentEntry h (loc * 2 ^ 24 + 8 * i + j) * 2 ^ (64 * j)) 0)

/-- Send a data line of the granule; one that cannot be read goes as poisoned (R482). -/
def copyData (h : Hub) (a : HandA) (i : Nat) : Hub :=
  let k := a.oldLoc * 2 ^ 24 + i
  let m := mediaLine h k
  sendCopy h (.data (a.gran * 2 ^ 24 + i) m.data (m.poison || wayDown h (wayOfData h k)))

/-- Send a directory line of the granule. -/
def copyDir (h : Hub) (a : HandA) (i : Nat) : Hub := sendCopy h (.dir i (dirLine h a.oldLoc i))

/-- Send a marked page again: 64 lines of data, or 64 directory lines. -/
def copyPage (h : Hub) (a : HandA) (p : Nat) : Hub :=
  (List.range 64).foldl (fun h i =>
    if p < 2 ^ 18 then copyData h a (64 * p + i) else copyDir h a (64 * (p - 2 ^ 18) + i)) h

/-- The copy ends: every page has been sent, in ascending address, and the granule is FROZEN (Table MOD-3). -/
def copyDone (h : Hub) : Hub :=
  match h.tulle.handA with
  | none => h
  | some a =>
    if a.st != .copy then h
    else
      let h := (List.range (2 ^ 24)).foldl (fun h i => copyData h a i) h
      let h := (List.range (2 ^ 21)).foldl (fun h i => copyDir h a i) h
      hoStat (modHandA (freezeQueue (setFrozen h a.gran true) a.gran) (fun a => { a with st := .freeze, froze := h.htime })) 3 0

/-- The Pricking-cached entries of a granule are written back to its directory run; one whose media way is unreachable is
lost (R482). -/
def writeBackEntries (h : Hub) (g : Nat) : Hub :=
  let mine := fun (l : LineAddr) => granuleOf l == g
  let es := (h.prk.wbBuf.filter (fun x => mine x.2.line)).map (·.2) ++
    h.prk.sets.flatMap (fun s => (s.2.ways.filter (fun w => w.2.dirty && mine w.2.line)).map (·.2))
  let h := es.foldl (fun h w =>
    let k := localKey h w.line
    if wayDown h (wayOfLma h (entryLma h k)) then
      { h with prk := { h.prk with bad := if h.prk.bad.contains k then h.prk.bad else k :: h.prk.bad } }
    else
      let h := hoDirty h k true
      { h with prk := { h.prk with region := mapSet h.prk.region k w.word 0
                                   bad := h.prk.bad.filter (· != k) } }) h
  { h with prk := { h.prk with
      wbBuf := h.prk.wbBuf.filter (fun x => !mine x.2.line),
      sets := h.prk.sets.map (fun s => (s.1, { s.2 with ways := s.2.ways.map (fun w =>
        (w.1, { w.2 with dirty := w.2.dirty && !mine w.2.line })) })) } }

/-- HO_COPY messages of two ledger entries each. -/
def copyLedger : Nat → Hub → List PsnEntry → Hub
  | 0, h, _ => h
  | _, h, [] => h
  | n + 1, h, es => copyLedger n (sendCopy h (.ledger (es.take 2))) (es.drop 2)

/-- The chains of a frozen granule are empty: entries, marked pages, ledger items and the owner count go to B, and SENT
closes FREEZE (Table MOD-3, R199, R268). -/
def freezeFlush (h : Hub) : Hub :=
  match h.tulle.handA with
  | none => h
  | some a =>
    if a.st != .freeze || a.flushed || h.coh.chains.any (fun c => granuleOf c.1 == a.gran) then h
    else
      let h := writeBackEntries h a.gran
      let pages := match h.tulle.handA with
        | some a => a.dirty
        | none => []
      let h := pages.foldl (fun h p => copyPage h a p) (modHandA h (fun a => { a with dirty := [] }))
      let es := (h.psn.entries.filter (fun e => e.2.kind == 1 && granuleOf e.2.line == a.gran)).map (·.2)
      let h := copyLedger es.length h es
      let h := if marked h a.gran then sendCopy h .mark else h
      let n := match h.tulle.handA with
        | some a => a.sent
        | none => 0
      modHandA (sendHo h a.target a.gran 3 a.loc n (mapGet h.owners a.oldLoc 0)) (fun a => { a with flushed := true })

/-- HANDOFF_COPY_DONE (Table MOD-3). -/
def execHandoffCopyDone (s : State) : Res := .next (s.onTulle copyDone)

/-- HANDOFF_CHAINS_EMPTY (Table MOD-3, R199). -/
def execHandoffChainsEmpty (s : State) : Res := .next (s.onTulle freezeFlush)

/-- FREEZE_TIMEOUT (R457). -/
def execFreezeTimeout (s : State) : Res :=
  .next (s.onTulle fun h =>
    match h.tulle.handA with
    | some a =>
      if a.st = .freeze then
        handAbort (advanceTo h (a.froze + fld h pMOD Fld.MOD.HO_CTL_FREEZE_MAX_US * 2000 + 1)) 2
      else h
    | none => h)

/-- A row of HO_CTL. -/
def hoRow (h : Hub) (b : Bay) (hd : Hdr) (gran step loc count owners : Nat) (f : Hub → Nat → Hub) : Hub :=
  mgmtRow h b hd (.handoff gran step loc count owners) 0x6D (fun h => f h (fromNode hd))

/-- B judges an offer. -/
def takeOffer (h : Hub) (n gran loc : Nat) : Hub :=
  let others := h.tulle.handB.filter (fun x => !(x.gran == gran && x.from_ == n))
  let used := h.tulle.homeMap.any (fun e => homedHere h e.1 && e.2.loc == loc) || others.any (fun x => x.loc == loc)
  if fld h pPRK Fld.PRK.LOCAL_PROV ≤ loc || used then sendHo h n gran 2 loc 0 0
  else
    let x : HandB := { gran := gran, from_ := n, loc := loc, got := 0, want := none, owners := 0 }
    sendHo (modTulle h (fun t => { t with handB := others ++ [x] })) n gran 1 loc 0 0

/-- HO_OFFER (Table MOD-3). -/
def execHoOffer (b : Bay) (hd : Hdr) (gran loc : Nat) (s : State) : Res :=
  .next (s.onFabric fun h => hoRow h b hd gran 0 loc 0 0 (fun h n => takeOffer h n gran loc))

/-- HO_ACCEPT (Table MOD-3). -/
def execHoAccept (b : Bay) (hd : Hdr) (gran loc : Nat) (s : State) : Res :=
  .next (s.onFabric fun h => hoRow h b hd gran 1 loc 0 0 (fun h n =>
    if handWith h n gran (fun a => a.st == .offer) then hoStat (modHandA h (fun a => { a with st := .copy })) 2 0 else h))

/-- HO_REFUSE (Table MOD-3). -/
def execHoRefuse (b : Bay) (hd : Hdr) (gran loc : Nat) (s : State) : Res :=
  .next (s.onFabric fun h => hoRow h b hd gran 2 loc 0 0 (fun h n =>
    if handWith h n gran (fun a => a.st == .offer) then handAbort h 1 else h))

/-- B holds every message that SENT counts: RECEIVED (R456). -/
def receivedCheck (h : Hub) (n : Nat) : Hub :=
  (h.tulle.handB.filter (fun x => x.from_ == n && x.want == some x.got)).foldl
    (fun h x => sendHo h n x.gran 4 x.loc 0 0) h

/-- HO_SENT (R456, R269). -/
def execHoSent (b : Bay) (hd : Hdr) (gran loc count owners : Nat) (s : State) : Res :=
  .next (s.onFabric fun h => hoRow h b hd gran 3 loc count owners (fun h n =>
    receivedCheck (modTulle h (fun t => { t with handB := t.handB.map (fun x =>
      if x.gran = gran && x.from_ = n then { x with want := some count, owners := owners } else x) })) n))

/-- HO_RECEIVED (R456): the proposal follows as soon as no other own proposal runs. -/
def execHoReceived (b : Bay) (hd : Hdr) (gran loc : Nat) (s : State) : Res :=
  .next (s.onFabric fun h => hoRow h b hd gran 4 loc 0 0 (fun h n =>
    if handWith h n gran (fun a => a.st == .freeze && a.flushed) then modHandA h (fun a => { a with acked := true }) else h))

/-- HO_ABORT (R457). -/
def execHoAbort (b : Bay) (hd : Hdr) (gran loc : Nat) (s : State) : Res :=
  .next (s.onFabric fun h => hoRow h b hd gran 5 loc 0 0 (fun h n =>
    modTulle h (fun t => { t with handB := t.handB.filter (fun x => !(x.gran == gran && x.from_ == n)) })))

/-- What an HO_COPY carries is written locally, a directory entry with this hub's BGEN (R209, R268). A write that its media way
cannot take loses a data line, whose ledger entry names cause MEDIA, and a directory entry (R482). -/
def copyIn (h : Hub) (x : HandB) (item : CopyItem) : Hub :=
  match item with
  | .data line d p =>
    let k := x.loc * 2 ^ 24 + line % 2 ^ 24
    if wayDown h (wayOfData h k) then
      newEntry h { line := line, kind := 1, cause := 2, agent := 0, epoch := h.tulle.epoch } none
    else { h with media := mapSet h.media k { data := d, poison := p } .zero }
  | .dir i es =>
    (List.range 8).foldl (fun h j =>
      let w := bits es.toNat (64 * j) 46 + 2 ^ 46 * bgen h
      let k := x.loc * 2 ^ 24 + 8 * (i % 2 ^ 21) + j
      if wayDown h (wayOfLma h (entryLma h k)) then
        { h with prk := { h.prk with bad := if h.prk.bad.contains k then h.prk.bad else k :: h.prk.bad } }
      else { h with prk := { h.prk with region := mapSet h.prk.region k w 0, bad := h.prk.bad.filter (· != k) } }) h
  | .ledger es => es.foldl (fun h e => newEntry h { e with kind := 1 } none) h
  | .mark => markGranule h x.gran none

/-- HO_COPY (R209, R268). -/
def execHoCopy (b : Bay) (hd : Hdr) (item : CopyItem) (s : State) : Res :=
  .next (s.onFabric fun h => mgmtRow h b hd (.copy item) 0x6F (fun h =>
    let n := fromNode hd
    match h.tulle.handB.find? (fun x => x.from_ == n) with
    | some x =>
      let h := modTulle (copyIn h x item) (fun t => { t with handB := t.handB.map (fun y =>
        if y.gran = x.gran && y.from_ = n then { y with got := y.got + 1 } else y) })
      receivedCheck h n
    | none => h))

/-! ### Poison Ledger transfers (R264, R266, R270) -/

/-- A foreign entry arrives at its home: it is entered as a LINE entry and the line is POISONED if it is in service
(R264). The answer follows its commit. -/
def takeForeign (h : Hub) (n : Nat) (e : PsnEntry) : Hub :=
  let e : PsnEntry := { e with kind := 1 }
  let h := if homedHere h (granuleOf e.line) then
      setEnt h e.line { DirEnt.uncached with st := .poisoned, p0 := e.agent } else h
  if (entrySlot h e.line 1).isSome then
    if linePending h e.line then
      modPsn h (fun p => { p with pend := p.pend.map (fun i => match i.1 with
        | .new x none => if x.line = e.line && x.kind = 1 then (.new x (some n), i.2) else i
        | _ => i) })
    else commitAnswer h (.new e (some n))
  else newEntry h e (some n)

/-- The home has committed entries or a mark: this hub's copies go (R264, R268). -/
def xferConfirmed (h : Hub) (gran : Nat) (mark : Bool) (es : List PsnEntry) : Hub :=
  if mark then
    let lines := (h.psn.entries.filter (fun e => e.2.kind == 2 && granuleOf e.2.line == gran)).map (·.2.line)
    let h := lines.foldl (fun h l => dropEntry h l 2) (unmarkGranule h gran)
    { h with psn := { h.psn with sent := h.psn.sent.filter (fun x =>
        !(x == (gran, true)) && !(!x.2 && granuleOf x.1 == gran)) } }
  else
    es.foldl (fun h e =>
      let h := if (entrySlot h e.line 2).isSome then dropEntry h e.line 2 else dropEntry h e.line 1
      { h with psn := { h.psn with sent := h.psn.sent.filter (fun x => x != (e.line, false)) } }) h

/-- PSN_XFER (R264, R266). -/
def execPsnXfer (b : Bay) (hd : Hdr) (gran : Nat) (confirm mark : Bool) (es : List PsnEntry) (s : State) : Res :=
  .next (s.onFabric fun h => mgmtRow h b hd (.xfer gran confirm mark es) 0x6E (fun h =>
    let n := fromNode hd
    if confirm then xferConfirmed h gran mark es
    else if mark then
      if marked h gran then commitAnswer h (.mark gran (some n)) else markGranule h gran (some n)
    else es.foldl (fun h e => takeForeign h n e) h))

/-! ### Rows after which a proposal may be answered (R258, R268) -/

/-- BATCH_COMMITTED (R426, R428). -/
def execBatchCommitted (fail : List KsDev) (s : State) : Res := .next (s.onTulle fun h => phase2 h (fail.map (·.val)))

/-- CACHE_SWEEP_END (R254, R256). -/
def execCacheSweepEnd (rec' : Nat) (s : State) : Res := .next (s.onTulle fun h => sweepEnd h rec')

/-- An interval of the reclaim walk has ended at t. -/
def walkDone (h : Hub) (t : Nat) : Hub := { h with dead := { h.dead with walkAt := t, ran := false } }

/-- RECLAIM_WALK_STEP (R254): a 2,000 hc interval ends; without a SCRUB_STEP run in it the walk takes a step. -/
def execReclaimWalkStep (s : State) : Res :=
  .next (s.onTulle fun h =>
    if h.dead.recs.isEmpty then h
    else
      let t := h.dead.walkAt + 2000
      let h := advanceTo h t
      walkDone (if h.dead.ran then h else walkStep (walkBatch h) h) t)

end Sys2Proof.Machine
end

