-- ==== Sys2Proof/Machine/Modes.lean ====
section
/-! DEFINITION. Modes and power events (chapter 17): BRACE, SEAL, MAINTAIN, mode requests, power domains, GPF, and the
heartbeat (R140, R142). -/

namespace Sys2Proof.Machine

/-- Change the mode unit. -/
def modMode (h : Hub) (f : ModeSt → ModeSt) : Hub := { h with mode := f h.mode }

/-- The hub runs: ASSEMBLE or BENCH has been entered since the start (R60). -/
def running (h : Hub) : Bool := h.boot.point == .running

/-! ### BRACE (R449, R451) -/

/-- The BRACE trigger that holds, by its BRACE_LAST code; 0 for none (R451). -/
def braceTrigger (h : Hub) : Nat :=
  if h.pins.pfailA && !h.mode.exclA then 1
  else if h.pins.pfailB && !h.mode.exclB then 2
  else if bit h.pins.railWarn 0 then 3
  else if bit h.pins.railWarn 1 then 4
  else if bit h.pins.railWarn 5 then 5
  else 0

/-- Ask for a Scorebook tail commit of a cause (R441). -/
def askTail (h : Hub) (cause : Nat) : Hub :=
  if h.scb.tails.contains cause then h else { h with scb := { h.scb with tails := h.scb.tails ++ [cause] } }

/-- A BRACE trigger appears (R449, R451): in SERVE the hub enters BRACE; in ASSEMBLE, DRAIN and MAINTAIN it sets the flag
and starts the tail commit. -/
def braceStart (h : Hub) (code : Nat) : Hub :=
  let m := h.mode.mode
  if !running h || h.mode.brace || m == .seal || m == .bench || code = 0 then h
  else
    let h := askTail (modMode h (fun x => { x with brace := true })) 2
    if m == .serve then
      setIstat (raise (setFld (bump h pPWR Fld.PWR.BRACE_CNT) pPWR Fld.PWR.BRACE_LAST code) 73) pPWR 1
    else h

/-- A trigger has gone: the 1 ms of R451 begins when none is left. -/
def braceQuiet (h : Hub) : Hub :=
  if braceTrigger h = 0 then modMode h (fun x => { x with quietAt := h.htime }) else h

/-- BRACE or its flag ends (R451). -/
def braceEnd (h : Hub) : Hub :=
  if !h.mode.brace || braceTrigger h != 0 then h
  else
    let h := modMode (advanceTo h (h.mode.quietAt + 2000000)) (fun x => { x with brace := false })
    if h.mode.mode == .serve then setIstat (raise h 75) pPWR 2 else h

/-- BRACE_EXIT (R451). -/
def execBraceExit (s : State) : Res := .next (s.onTulle braceEnd)

/-! ### Heartbeats (R140, R142) -/

/-- Flood a HEARTBEAT (Table TUL-9). -/
def sendHeartbeat (h : Hub) (last : Bool) : Hub :=
  if !tulleRuns h || h.tulle.profile.isNone then h
  else
    let n := (h.tulle.hbSeq + 1) % 2 ^ 32
    flood (modTulle h (fun t => { t with hbSeq := n })) 0x72
      (.heart { seq := n, mode := h.mode.mode.code, suspect := flag h pTIME Fld.TIME.STAT_TIME_SUSPECT,
                fenced := flag h pTIME Fld.TIME.STAT_FENCED, last := last, epoch := h.tulle.epoch,
                present := nodeMap (presentNodes h) })

/-! ### SEAL (R460 to R464) -/

/-- A service call in progress ends with STATUS REFUSED where the mode it needs is left (Table TRU-10). -/
def callRefused (h : Hub) : Hub :=
  if flag h pTRU Fld.TRU.MB_STAT_BUSY then
    let h := setFld (setFld h pTRU Fld.TRU.MB_STAT_STATUS 6) pTRU Fld.TRU.MB_STAT_RSP_LEN 0
    setIstat (setFld h pTRU Fld.TRU.MB_STAT_BUSY 0) pTRU 0
  else h

/-- An RLC line has a transaction open. -/
def rlcOpen (l : RLine) : Bool := !l.st.stable || l.recalled.isSome

/-- Recall and write back, or drop, every stable line of the RLC (R450, Table MOD-4). A line that finds no bobbin waits
for the next time. -/
def rlcFlush (h : Hub) : Hub :=
  (h.coh.rlc.map (·.1)).foldl (fun h line =>
    let l := rlcLine h line
    if l.st.stable && l.st != .i && l.recalled.isNone then evictLine h line else h) h

/-- No line of the RLC is held (R450, Table MOD-4). -/
def rlcEmpty (h : Hub) : Bool := h.coh.rlc.all (fun l => l.2.st == .i && l.2.recalled.isNone)

/-- The work of the phase is complete (Table MOD-4). -/
def sealDone (h : Hub) : Bool :=
  match h.mode.sealPhase with
  | 1 => h.coh.chains.isEmpty && h.coh.outs.isEmpty && h.coh.pulls.isEmpty && h.coh.rlc.all (fun l => !rlcOpen l.2) &&
      h.mov.toks.all (fun t => t.2.flight.isEmpty)
  | 2 => rlcEmpty h
  | 3 => (memBays h 1).all (fun b => (bayRt h b).gpfFlushed)
  | 4 => (presentNodes h).all (fun n => n == ownNode h)
  | 5 => (memBays h 2).all (fun b => (bayRt h b).gpfFlushed)
  | 6 => h.scb.tails.isEmpty && h.psn.pend.isEmpty && h.kep.batch.isNone
  | 7 => h.scb.sealed
  | _ => false

/-- A seal phase starts. Phase 7 starts only when phases 2 to 6 succeeded; otherwise the hold follows phase 6 (R461). -/
def sealStart (h : Hub) (k : Nat) : Hub :=
  let h := modMode h (fun x => { x with sealPhase := k })
  match k with
  | 2 => rlcFlush h
  | 5 => (memBays h 2).foldl (fun h b => emit (modBay h b (fun r => { r with gpfFlushed := false })) (.gpfReq b)) h
  | 6 => askTail h 3
  | 7 => if h.mode.sealOk then { h with scb := { h.scb with sealAsk := true } } else modMode h (fun x => { x with sealPhase := 8 })
  | _ => h

/-- A phase ends, with success or cut off, and the next starts (Table MOD-4, R142). -/
def sealNext (h : Hub) (ok : Bool) : Hub :=
  let k := h.mode.sealPhase
  let h := if ok || k = 1 then h else modMode h (fun x => { x with sealOk := false })
  let h := if k = 2 && ok then sendHeartbeat h true else h
  sealStart h (k + 1)

/-- Write-backs (R189). -/
def isWb (r : Req) : Bool :=
  match r.op with
  | .wbDirty _ => true
  | .evict => true
  | .memWr .. => true
  | _ => false

/-- A write-back is the line's transaction: it waits for its data or its memory write (R189, R192). -/
def wbRuns (t : Txn) : Bool := isWb t.req && (t.st = .mwr || t.st = .pull)

/-- A MemWr of the recorded owner that an abandoned transaction had taken as an answer reaches memory (R191, R463). -/
def landWrite (h : Hub) (line : LineAddr) (x : AgentId × LineData × BitVec 64 × Bool) : Hub :=
  if (entOf h line).owner == some x.1 then
    let (h, bad) := writeMedia h line (mergeBytes (mediaLine h (localKey h line)).data x.2.1 x.2.2.1) x.2.2.2 true
    if bad then h else setEnt h line .uncached
  else h

/-- The requests still open at the deadline of phase 1 are abandoned without further messages (Table MOD-4). Write-backs
are served until phase 7 ends (R463): those under way, those that waited on a chain and those still queued go on, and so
does a write-back of the RLC, whose CMP phase 2 awaits. Log entry 62. -/
def sealAbandon (h : Hub) : Hub :=
  let fix := fun (l : RLine) => ({ l with
    st := match l.st with
      | .isd => .i
      | .imd => .i
      | .smd => if l.wasF then .f else .s
      | x => x
    data := match l.recalled with
      | some rc => if l.st.owns then rc.hostWb.reverse.foldl (fun d x => mergeBytes d x.2.1 x.2.2.1) l.data else l.data
      | none => l.data
    recalled := none, cur := none, waiting := [], evicts := [] } : RLine)
  let fix' := fun (l : RLine) => let x := fix l; if x.st = .i then RLine.none else x
  let rlc := (h.coh.rlc.map (fun l => (l.1, fix' l.2))).filter (fun l => l.2 != RLine.none)
  let h := h.coh.rlc.foldl (fun h l => l.2.evicts.foldl (fun h r => replyCmp h r r.bob 0 false none) h) h
  let cut := h.coh.chains.filter (fun c => !c.2.head.any wbRuns)
  let h := cut.foldl (fun h c => dropFetch (specDiscard h c.1) c.1) h
  let chains := (h.coh.chains.map (fun c =>
    (c.1, { c.2 with head := c.2.head.filter wbRuns, waiting := [] }))).filter (fun c => c.2 != Chain.empty)
  let keep := fun (k : Nat) =>
    rlc.any (fun l => (l.2.st == .mia || l.2.st == .mix) && l.2.wbBob == k) ||
      chains.any (fun c => c.2.head.any (fun t => t.req.bob == k) || c.2.wbs.any (fun r => r.bob == k))
  let coh : Coh := { h.coh with
    chains := chains, outs := [], ingress := h.coh.ingress.filter (fun x => (isWb x.req && x.pool = 1) || x.pool = 2), hoQueue := [],
    staging := h.coh.staging.filter (fun x => stagedPool h x.req = 1), pulls := [], mres := [], rlc := rlc,
    bobs := h.coh.bobs.filter (fun e => keep e.1) }
  let h := { h with coh := coh, mov := { h.mov with toks := h.mov.toks.map (fun t => (t.1, { t.2 with flight := [] })) } }
  cut.foldl (fun h c =>
    let taken := match c.2.head with
      | some t => t.hostWb.reverse
      | none => []
    settleChain (c.2.wbs.length + 1) (taken.foldl (fun h x => landWrite h c.1 x) h) c.1) h

/-- Deadlines of the phases in hc from SEAL entry (Table MOD-4). -/
def sealDeadline (k : Nat) : Nat :=
  ([0, 100000, 1200000, 1800000, 1900000, 2400000, 3000000, 3120000] : List Nat).getD k 0

/-- SEAL is entered (R447, R452, R461): acceptance stops, the tail commit starts or continues, event source 74. -/
def enterSeal (h : Hub) (cause : Nat) : Hub :=
  if !running h || h.mode.mode == .seal || h.mode.mode == .bench then h
  else
    let h := handAbort (modMode h (fun x => { x with toServe := false })) 5
    let m : ModeSt := { h.mode with
      toMaintain := false, toServe := false, brace := false, sealCause := cause, sealPhase := 1, sealOk := true,
      sealTime := h.htime }
    let h := setMode { h with mode := m } .seal
    let h := if h.scb.tails.isEmpty then askTail h 3 else h
    let h := callRefused { h with trust := { h.trust with wdogAt := none } }
    baysByMode (raise h 74)

/-- A phase's deadline: what the phase still has open is cut off (R461). -/
def sealCut (h : Hub) : Hub :=
  match h.mode.sealPhase with
  | 1 => sealNext (sealAbandon h) false
  | 7 => sealNext { h with scb := { h.scb with sealAsk := false }, kep := { h.kep with batch := none } } false
  | _ => sealNext h false

/-! ### PFAIL (R452, R453) -/

/-- The start holds: a PFAIL channel that is not excluded is asserted (R60). -/
def startHeld (h : Hub) : Bool := (h.pins.pfailA && !h.mode.exclA) || (h.pins.pfailB && !h.mode.exclB)

/-- The start may take its next step (R60). -/
def mayStep (h : Hub) : Bool := !startHeld h

/-- Store the sequencer's step. -/
def setSeq (h : Hub) (s : SeqSt) : Hub := { h with boot := { h.boot with seq := s } }

/-- The sequencer begins the step that comes after the one that has ended, unless the start is held (R60, R75). -/
def seqResume (h : Hub) : Hub :=
  if startHeld h then h
  else
    match h.boot.seq with
    | .waiting => setSeq h .counting
    | .counted => setSeq h .sensing
    | .sensed => setSeq h .pll
    | _ => h

/-- The start span of R60. -/
def startSpan (h : Hub) : Bool := h.boot.seq != .off && !running h

/-- DISC in hc (R452). -/
def discHc (h : Hub) : Nat := fld h pPWR Fld.PWR.PFAIL_CFG_DISC_US * 2000

/-- Level of a channel. -/
def pfLevel (h : Hub) : PfCh → Bool
  | .a => h.pins.pfailA
  | .b => h.pins.pfailB

/-- A channel is excluded. -/
def pfExcl (h : Hub) : PfCh → Bool
  | .a => h.mode.exclA
  | .b => h.mode.exclB

/-- HTIME of a channel's assertion. -/
def pfAt (h : Hub) : PfCh → Nat
  | .a => h.mode.pfAtA
  | .b => h.mode.pfAtB

/-- The other channel. -/
def pfOther : PfCh → PfCh
  | .a => .b
  | .b => .a

/-- Drive a channel. -/
def pfDrive (h : Hub) (c : PfCh) (v : Bool) : Hub :=
  match c with
  | .a => { h with pins := { h.pins with pfailA := v }, mode := { h.mode with pfAtA := if v then h.htime else h.mode.pfAtA } }
  | .b => { h with pins := { h.pins with pfailB := v }, mode := { h.mode with pfAtB := if v then h.htime else h.mode.pfAtB } }

/-- Set or clear a channel's exclusion. -/
def pfExclude (h : Hub) (c : PfCh) (v : Bool) : Hub :=
  atPage h pPWR (fun h => modMode h (fun m => match c with
    | .a => { m with exclA := v }
    | .b => { m with exclB := v }))

/-- Number of a channel in PWR's log (R466). -/
def pfNum : PfCh → Nat
  | .a => 0
  | .b => 1

/-- A channel has been asserted alone for more than DISC (R452). -/
def pfDiscrepant (h : Hub) (c : PfCh) : Hub :=
  braceQuiet (setIstat (errlog (pfExclude h c true) pPWR 2 0 (pfNum c)) pPWR 0)

/-- A channel asserts (R60, R452). -/
def pfAssert (h : Hub) (c : PfCh) : Hub :=
  if pfLevel h c then h
  else
    let h := pfDrive h c true
    let o := (pfOther c)
    if !running h || pfExcl h c then h
    else if pfExcl h o then enterSeal h 2
    else if pfLevel h o then
      if h.htime - pfAt h o ≤ discHc h then enterSeal h 1 else enterSeal (pfDiscrepant h o) 2
    else braceStart h ((pfNum c) + 1)

/-- A channel deasserts (R452). -/
def pfDeassert (h : Hub) (c : PfCh) : Hub :=
  if !pfLevel h c then h
  else
    let h := pfDrive h c false
    if !running h then seqResume h
    else if pfExcl h c then h
    else
      let h := if pfLevel h (pfOther c) then h else bump h pPWR Fld.PWR.PFAIL_GLITCH_CNT
      braceQuiet h

/-- A channel is asserted alone. -/
def pfAlone (h : Hub) (c : PfCh) : Bool :=
  pfLevel h c && !pfExcl h c && !(pfLevel h (pfOther c) && !pfExcl h (pfOther c))

/-- PFAIL_ASSERT (R60, R451, R452). -/
def execPfailAssert (ch : PfCh) (s : State) : Res := .next (s.onPins fun h => pfAssert h ch)

/-- PFAIL_DEASSERT (R452). -/
def execPfailDeassert (ch : PfCh) (s : State) : Res := .next (s.onPins fun h => pfDeassert h ch)

/-- PFAIL_EXCLUSION (R452): one hc past DISC. -/
def execPfailExclusion (ch : PfCh) (s : State) : Res :=
  .next (s.onTulle fun h =>
    if running h && pfAlone h ch then pfDiscrepant (advanceTo h (pfAt h ch + discHc h + 1)) ch else h)

/-- PFAIL_BOOT_EXCLUSION (R453): 50 ms alone within the start span. -/
def execPfailBootExclusion (ch : PfCh) (s : State) : Res :=
  .next (s.onTulle fun h =>
    if startSpan h && pfAlone h ch then
      seqResume (modMode (pfExclude h ch true) (fun m => { m with bootExcl := true }))
    else h)

/-- A REINCLUDE write (R453). -/
def reinclude (h : Hub) (c : PfCh) : Hub × List AccKind :=
  if !pfExcl h c then (h, [])
  else if pfLevel h c then (h, [.stateRefused])
  else (pfExclude h c false, [])

/-- PFAIL_REINCLUDE (R453): DISC_US is written with its present value. -/
def execPfailReinclude (o : Origin) (ch : PfCh) (s : State) : Res :=
  .next (s.onTulle fun h =>
    guardedK h o pPWR 0x104 (fld h pPWR Fld.PWR.PFAIL_CFG_DISC_US + 2 ^ (13 + pfNum ch)) (fun h => reinclude h ch))

/-! ### Mode requests (R447, R448, R450) -/

/-- Outcome of a mode request. -/
def reqOutcome (h : Hub) (v : Nat) : Hub := setFld h pMOD Fld.MOD.REQ_STAT_OUTCOME v

/-- A request that Table MOD-1 does not allow. -/
def reqRefused (h : Hub) : Hub := setIstat (reqOutcome h 2) pMOD 1

/-- What SERVE needs beside the mode (Table MOD-1, R119). -/
def serveReady (h : Hub) : Bool :=
  quorumHeld h && h.tulle.joined && bgen h != 0 && !flag h pPRK Fld.PRK.STAT_FORMAT_BUSY && flag h pMOD Fld.MOD.CTL_SERVE_OK

/-- SERVE is requested. -/
def reqServe (h : Hub) : Hub :=
  if h.mode.toMaintain then reqRefused h
  else
    match h.mode.mode with
    | .drain =>
      if h.tulle.handA.isSome then reqOutcome (modMode h (fun m => { m with toServe := true })) 3
      else raise (setMode (reqOutcome h 1) .serve) 75
    | .maintain => if serveReady h then raise (setMode (reqOutcome h 1) .serve) 75 else reqRefused h
    | _ => reqRefused h

/-- DRAIN is requested: from SERVE, outside BRACE. -/
def reqDrain (h : Hub) : Hub :=
  if h.mode.mode = .serve && !h.mode.brace && !h.mode.toMaintain then
    let h := setMode (reqOutcome h 1) .drain
    if localCount h = 0 then setIstat h pMOD 4 else h
  else reqRefused h

/-- The entry to MAINTAIN goes on: once no op is on a stream the RLC is flushed (R450). -/
def maintainProgress (h : Hub) : Hub :=
  if h.mode.toMaintain && h.mov.toks.all (fun t => match t.2.st with
      | .stream .. => false
      | _ => true) then rlcFlush h
  else h

/-- MAINTAIN is requested: from SERVE or DRAIN, with no granule homed here. -/
def reqMaintain (h : Hub) : Hub :=
  if (h.mode.mode = .serve || h.mode.mode = .drain) && localCount h = 0 && !h.mode.toMaintain then
    maintainProgress (reqOutcome (modMode h (fun m => { m with toMaintain := true, toServe := false })) 3)
  else reqRefused h

/-- A write of a mode request to MOD.CTL, SERVE_OK keeping its value. -/
def modeReq (h : Hub) (o : Origin) (code : Nat) (f : Hub → Hub) : Hub :=
  guarded h o pMOD 0x104 (code + 8 * fld h pMOD Fld.MOD.CTL_SERVE_OK) f

/-- MODE_REQ_SERVE (R447). -/
def execModeReqServe (o : Origin) (s : State) : Res := .next (s.onTulle fun h => modeReq h o 1 reqServe)

/-- MODE_REQ_DRAIN (R447). -/
def execModeReqDrain (o : Origin) (s : State) : Res := .next (s.onTulle fun h => modeReq h o 2 reqDrain)

/-- MODE_REQ_MAINTAIN (R447, R450). -/
def execModeReqMaintain (o : Origin) (s : State) : Res := .next (s.onTulle fun h => modeReq h o 3 reqMaintain)

/-- SERVE_OK_WRITE (R448): a write of MOD.CTL with REQ 0. -/
def execServeOkWrite (o : Origin) (v : Bool) (s : State) : Res :=
  .next (s.onTulle fun h => plainWrite h o pMOD 0x104 (8 * b2n v))

/-- ENTER_SERVE (R447, R119, R207, R270). -/
def execEnterServe (s : State) : Res :=
  .next (s.onTulle fun h =>
    if running h && h.mode.mode = .assemble && serveReady h then raise (setMode h .serve) 75 else h)

/-- ENTER_MAINTAIN (R450): the RLC is empty. -/
def execEnterMaintain (s : State) : Res :=
  .next (s.onTulle fun h =>
    let h := maintainProgress h
    if h.mode.toMaintain && rlcEmpty h && groupInflight h 0 + groupInflight h 1 + groupInflight h 2 + groupInflight h 3 = 0 then
      rejectWaiting (setMode (reqOutcome (modMode h (fun m => { m with toMaintain := false })) 1) .maintain)
    else h)

/-! ### Power domains (R459) -/

/-- The state of a domain changes. -/
def setDom (h : Hub) (d v : Nat) : Hub :=
  let h := modMode (setFld h pPWR (Fld.PWR.DOM_STAT_STATE.nth d) v) (fun m => { m with domAt := mapPut m.domAt d h.htime })
  setIstat h pPWR 4

/-- A write may not take this domain out of ON: its quad holds a media way while media is provisioned, or an admitted T
link. -/
def domPinned (h : Hub) (d : Nat) : Bool :=
  d < 12 && domState h d = 0 &&
    ((fld h pPRK Fld.PRK.LOCAL_PROV != 0 &&
        (List.range (2 ^ fld h pPRK Fld.PRK.MEDIA_WAYS)).any (fun w => quadOf (leadOf h (wayBay h w)) == d)) ||
      (admittedLinks h).any (fun b => quadOf b == d))

/-- The lead bays of a quad. -/
def leadsIn (h : Hub) (q : Nat) : List Nat := ([0, 1, 2, 3].map (· + 4 * q)).filter (fun b => leadOf h b == b)

/-- A domain is ON again and its bays train. -/
def domOn (h : Hub) (d : Nat) : Hub :=
  let h := setDom h d 0
  if d < 12 then (leadsIn h d).foldl (fun h b => if lstate h b ≤ 1 then startTraining h b else h) h else noMoverCheck h

/-- A domain leaves ON. -/
def domClose (h : Hub) (d : Nat) : Hub :=
  let h := setDom h d 1
  if d < 12 then h else groupLeaves h (d - 12)

/-- A write of DOMd_CTL.REQ: 0 ON, 1 DRAINED, 2 OFF. The powering down or up that it starts is timed from a write that
changes REQ. -/
def domReq (h : Hub) (d req : Nat) : Hub × List AccKind :=
  if req != 0 && domPinned h d then (h, [.stateRefused])
  else
    let st := domState h d
    let new := fld h pPWR (Fld.PWR.DOM_CTL_REQ.nth d) != req
    let h := setFld h pPWR (Fld.PWR.DOM_CTL_REQ.nth d) req
    if req = 0 then (if st = 1 || st = 2 then domOn h d else
      if st = 3 && new then modMode h (fun m => { m with domAt := mapPut m.domAt d h.htime }) else h, [])
    else if st = 0 then (domClose h d, [])
    else if st = 2 && req = 2 && new then (modMode h (fun m => { m with domAt := mapPut m.domAt d h.htime }), [])
    else (h, [])

/-- A write of DOMd_CTL. -/
def domWrite (h : Hub) (o : Origin) (d req : Nat) : Hub :=
  guardedK h o pPWR (0x140 + 4 * d) req (fun h => domReq h d req)

/-- DOMAIN_REQ_ON (R459). -/
def execDomainReqOn (o : Origin) (d : Domain) (s : State) : Res := .next (s.onTulle (withStops fun h => domWrite h o d.val 0))

/-- DOMAIN_REQ_DRAINED (R459). -/
def execDomainReqDrained (o : Origin) (d : Domain) (s : State) : Res :=
  .next (s.onTulle (withStops fun h => domWrite h o d.val 1))

/-- DOMAIN_REQ_OFF (R459). -/
def execDomainReqOff (o : Origin) (d : Domain) (s : State) : Res := .next (s.onTulle (withStops fun h => domWrite h o d.val 2))

/-- A domain with nothing inside is DRAINED: its links are disabled or dropped and its bays hold in DISABLED. -/
def domDrained (h : Hub) (d : Nat) : Hub :=
  let h := setDom h d 2
  if d < 12 then
    (leadsIn h d).foldl (fun h b =>
      match roleOf h b with
      | 0 => h
      | 1 => setLstate (hostReset h b) b 1
      | _ => setLstate (linkFalls h b) b 1) h
  else h

/-- DOMAIN_DRAINED (R459): INFLIGHT is 0. -/
def execDomainDrained (d : Domain) (s : State) : Res :=
  .next (s.onTulle (withStops fun h => if domState h d.val = 1 && domInflight h d.val = 0 then domDrained h d.val else h))

/-- When a domain's state, or the request it waits for, last changed. -/
def domSince (h : Hub) (d : Nat) : Nat := mapGet h.mode.domAt d 0

/-- DOMAIN_OFF (R459). -/
def execDomainOff (d : Domain) (s : State) : Res :=
  .next (s.onTulle fun h =>
    if domState h d.val = 2 && fld h pPWR (Fld.PWR.DOM_CTL_REQ.nth d.val) = 2 then
      setDom (advanceTo h (domSince h d.val + 2000)) d.val 3
    else h)

/-- DOMAIN_POWER_UP (R459). -/
def execDomainPowerUp (d : Domain) (s : State) : Res :=
  .next (s.onTulle fun h =>
    if domState h d.val = 3 && fld h pPWR (Fld.PWR.DOM_CTL_REQ.nth d.val) = 0 then
      domOn (advanceTo h (domSince h d.val + 20000)) d.val
    else h)

/-! ### GPF (R462) -/

/-- GPF_PHASE2_REQUEST (R462): it completes at once where every write that the host sent before has been written to media,
or forwarded to its home and acknowledged; otherwise it waits for that. -/
def execGpfPhase2Request (b : Bay) (s : State) : Res :=
  .next (s.onTulle fun h =>
    if !(memBays h 1).contains b.val then h
    else if hostWritesDone h b.val then gpfEnds h b.val
    else modBay h b.val (fun r => { r with gpfAsked := true }))

/-- GPF_COMPLETE (R461). -/
def execGpfComplete (b : Bay) (s : State) : Res :=
  .next (s.onTulle fun h =>
    if h.mode.sealPhase = 5 && (memBays h 2).contains b.val then modBay h b.val (fun r => { r with gpfFlushed := true })
    else h)

end Sys2Proof.Machine
end

