-- ==== Sys2Proof/Machine/Events.lean ====
section
/-! DEFINITION. Picot (chapter 13) and the dumps and overflow reports of chapter 14: compare channels, the event matrix and
its tasks, capture inputs, SYNC_OUT. A row that a time brings about moves HTIME on to it. Raised sources act on the task
inputs (R357) when a command of this file or of the register port next runs, or at an idle step. -/

namespace Sys2Proof.Machine

/-! ### Compare channels (R341 to R349) -/

/-- Change what a channel holds beside its registers. -/
def modChan (h : Hub) (c : Nat) (f : ChanRt → ChanRt) : Hub :=
  { h with pic := { h.pic with chans := mapSet h.pic.chans c (f (chanRt h c)) .reset } }

/-- MODE of a channel (Table PIC-1). -/
def chMode (h : Hub) (c : Nat) : Nat := fld h pPIC (Fld.PIC.CH_CTL_MODE.nth c)

/-- INTERVAL of a channel. -/
def chInt (h : Hub) (c : Nat) : Nat := fld h pPIC (Fld.PIC.CH_INTERVAL.nth c)

/-- C of a channel. -/
def chCmp (h : Hub) (c : Nat) : Nat := fld64 h pPIC (Fld.PIC.CH_CMP_LO.nth c) (Fld.PIC.CH_CMP_HI.nth c)

/-- Store C. -/
def setCmp (h : Hub) (c v : Nat) : Hub := setFld64 h pPIC (Fld.PIC.CH_CMP_LO.nth c) (Fld.PIC.CH_CMP_HI.nth c) v

/-- T of a channel in hc t (R342). -/
def chT (h : Hub) (c t : Nat) : Nat :=
  if flag h pPIC (Fld.PIC.CH_CTL_TB.nth c) then (t + h.tulle.offset) % 2 ^ 64 else t

/-- C has been reached at T (R343). -/
def reached (t c : Nat) : Bool := sub64 t c < 2 ^ 63

/-- The hc in which an armed ONE_SHOT or AUTO channel next fires (R343, R344). -/
def nextFire (h : Hub) (c : Nat) : Option Nat :=
  if !(chMode h c == 1 || chMode h c == 2) || !flag h pPIC (Fld.PIC.CH_STAT_ARMED.nth c) then none
  else
    let x := chanRt h c
    let b := match x.lastFire with
      | some t => max x.armAt (t + 1)
      | none => x.armAt
    let b := if flag h pPIC (Fld.PIC.CH_CTL_TB.nth c) then max b h.htime else b
    let t := chT h c b
    some (if reached t (chCmp h c) then b else b + sub64 (chCmp h c) t)

/-- The hc in which a PERIOD channel next wraps (R348). -/
def nextWrap (h : Hub) (c : Nat) : Option Nat :=
  if chMode h c != 3 then none
  else
    let x := chanRt h c
    if x.wrapLate then some (x.armAt + 1)
    else if chInt h c = 0 then none
    else some ((x.tset + chInt h c) % 2 ^ 64)

/-- Raise an event source in hc t. -/
def raiseAt (h : Hub) (src t : Nat) : Hub :=
  if h.pic.raised.contains (src, t) then h else { h with pic := { h.pic with raised := h.pic.raised ++ [(src, t)] } }

/-- A firing in hc f is delivered (R350, R354). -/
def deliver (h : Hub) (c f : Nat) : Hub :=
  let h := raiseAt (bump h pPIC (Fld.PIC.CH_FIRE_CNT.nth c)) c f
  if c = 63 && flag h pPIN Fld.PIN.SYNC_OUT_EN then
    { h with pins := { h.pins with syncOut := true }, pic := { h.pic with syncAt := f } }
  else h

/-- Let time pass until a channel's C is reached, where FTIME was slewed meanwhile. -/
def awaitCmp : Nat → Hub → Nat → Nat → Hub × Nat
  | 0, h, _, f => (h, f)
  | n + 1, h, c, f =>
    let h := advanceTo h f
    let t := chT h c f
    if reached t (chCmp h c) then (h, f) else awaitCmp n h c (f + sub64 (chCmp h c) t)

/-- A ONE_SHOT or AUTO channel fires (R343, R345, R346, R350). -/
def fireCmp (h : Hub) (c f : Nat) : Hub :=
  let (h, f) := awaitCmp 3 h c f
  let t := chT h c f
  let cmp := chCmp h c
  let lag := sub64 t cmp
  let iv := chInt h c
  let auto := chMode h c == 2
  let next := (cmp + iv) % 2 ^ 64
  let skip := auto && flag h pPIC (Fld.PIC.CH_CTL_SKIP.nth c) && reached t next
  let m := lag / iv + 1
  let late := reached (chanRt h c).tset cmp || skip
  let h := setFld h pPIC (Fld.PIC.CH_STAT_FIRED.nth c) 1
  let h := if late then setIstat (bump (setFld h pPIC (Fld.PIC.CH_STAT_LATE.nth c) 1) pPIC Fld.PIC.LATE_CNT) pPIC 0 else h
  let h := if skip then bumpBy h pPIC Fld.PIC.SKIP_CNT (m - 1) else h
  let h := if flag h pPIC (Fld.PIC.CH_CTL_STALE_CHK.nth c) && fld h pPIC Fld.PIC.STALE_US * 2000 < lag then
      let h := bump (setFld h pPIC (Fld.PIC.CH_STAT_STALE.nth c) 1) pPIC Fld.PIC.STALE_CNT
      setIstat (errlog h pPIC 1 c (min (lag / 2000) 0xFFFFFFFF)) pPIC 1
    else deliver h c f
  let h := if auto then setCmp h c (if skip then (cmp + m * iv) % 2 ^ 64 else next)
    else setFld h pPIC (Fld.PIC.CH_STAT_ARMED.nth c) 0
  modChan h c (fun x => { x with lastFire := some f, tset := if auto then t else x.tset })

/-- A PERIOD channel wraps (R348). -/
def firePeriod (h : Hub) (c f : Nat) : Hub :=
  let h := advanceTo h f
  let late := (chanRt h c).wrapLate
  let h := modChan h c (fun x => { x with tset := f, wrapLate := false, lastFire := some f })
  let h := setFld h pPIC (Fld.PIC.CH_COUNT.nth c) (min (h.htime - f) (chInt h c - 1))
  let h := if late then setIstat (setFld h pPIC (Fld.PIC.CH_STAT_WRAPLATE.nth c) 1) pPIC 2 else h
  deliver (setFld h pPIC (Fld.PIC.CH_STAT_FIRED.nth c) 1) c f

/-- What the old settings still bring about before the arm point of a write in hc w (R344). -/
def chanDue : Nat → Hub → Nat → Nat → Hub
  | 0, h, _, _ => h
  | n + 1, h, c, w =>
    match nextFire h c, nextWrap h c with
    | some f, _ => if f ≤ w + 2 then chanDue n (fireCmp h c f) c w else h
    | none, some f => if f ≤ w + 3 then chanDue n (firePeriod h c f) c w else h
    | none, none => h

/-- C is written (R344, R345). -/
def cmpSet (h : Hub) (c v : Nat) : Hub :=
  let w := h.htime
  let t := chT h c w
  let h := setCmp (chanDue 3 h c w) c v
  let h := if chMode h c = 1 || chMode h c = 2 then setFld h pPIC (Fld.PIC.CH_STAT_ARMED.nth c) 1 else h
  if chMode h c = 3 then h else modChan h c (fun x => { x with armAt := w + 3, tset := t })

/-- INTERVAL is written (R344, R348). -/
def intervalSet (h : Hub) (c v : Nat) : Hub :=
  let w := h.htime
  let h := setFld (chanDue 3 h c w) pPIC (Fld.PIC.CH_INTERVAL.nth c) v
  modChan h c (fun x =>
    { x with armAt := w + 3, wrapLate := decide (chMode h c = 3) && decide (v ≤ sub64 (w + 3) x.tset) })

/-- PHASE is written (R344). -/
def phaseSet (h : Hub) (c v : Nat) : Hub :=
  let w := h.htime
  let h := setFld (chanDue 3 h c w) pPIC (Fld.PIC.CH_PHASE.nth c) v
  if chMode h c = 3 then h else modChan h c (fun x => { x with armAt := w + 3 })

/-- START computes the comparand (R347). -/
def startCmp (h : Hub) (c ta : Nat) : Nat :=
  let iv := chInt h c
  let ph := fld h pPIC (Fld.PIC.CH_PHASE.nth c)
  (if ta < ph then ph else ((ta - ph) / iv + 1) * iv + ph) % 2 ^ 64

/-- CTL is written (R344, R347, R349). -/
def ctlSet (h : Hub) (c v : Nat) : Hub × List AccKind :=
  let w := h.htime
  let new := bits v 0 2
  let start := bit v 5
  let iv := chInt h c
  let ph := fld h pPIC (Fld.PIC.CH_PHASE.nth c)
  if (new = 2 && iv = 0) || (new = 3 && iv < 2) || (start && iv ≤ ph) then (h, [.reservedEnc])
  else
    let h := chanDue 3 h c w
    let old := chMode h c
    let h := setFld h pPIC (Fld.PIC.CH_CTL_MODE.nth c) new
    let h := setFld h pPIC (Fld.PIC.CH_CTL_TB.nth c) (bits v 2 1)
    let h := setFld h pPIC (Fld.PIC.CH_CTL_SKIP.nth c) (bits v 3 1)
    let h := setFld h pPIC (Fld.PIC.CH_CTL_STALE_CHK.nth c) (bits v 4 1)
    if new = 3 then
      let h := setFld h pPIC (Fld.PIC.CH_STAT_ARMED.nth c) 0
      if old = 3 && !start then (h, [])
      else
        let p := if start then ph else 0
        (setFld (modChan h c (fun x => { x with armAt := w + 3, tset := sub64 (w + 3) p, wrapLate := false }))
          pPIC (Fld.PIC.CH_COUNT.nth c) p, [])
    else
      let h := if old = 3 then
          modChan (setFld h pPIC (Fld.PIC.CH_COUNT.nth c) 0) c (fun x => { x with tset := chT h c w, wrapLate := false })
        else h
      let h := modChan h c (fun x => { x with armAt := w + 3 })
      if new = 0 then (setFld h pPIC (Fld.PIC.CH_STAT_ARMED.nth c) 0, [])
      else if start then
        let h := setCmp h c (startCmp h c (chT h c (w + 3)))
        (setFld (modChan h c (fun x => { x with tset := chT h c w })) pPIC (Fld.PIC.CH_STAT_ARMED.nth c) 1, [])
      else (h, [])

/-- PIC61 and PIC62, and task inputs 61 and 62, are the hub's own (R364). -/
def hubsOwn (c : Nat) : Bool := c == 61 || c == 62

/-- A write of one of a channel's registers. -/
def chanWrite (h : Hub) (o : Origin) (c : Nat) (r : ChanReg) (v : Nat) : Hub :=
  let own := fun (f : Hub → Hub × List AccKind) (h : Hub) => if hubsOwn c then (h, [AccKind.stateRefused]) else f h
  match r with
  | .cmpHi => highWriteK h o pPIC (0x404 + 32 * c) v (fun h lo => own (fun h => (cmpSet h c (lo + 2 ^ 32 * v), [])) h)
  | .interval => guardedK h o pPIC (0x408 + 32 * c) v (own (fun h => (intervalSet h c v, [])))
  | .phase => guardedK h o pPIC (0x40C + 32 * c) v (own (fun h => (phaseSet h c v, [])))
  | .ctl => guardedK h o pPIC (0x410 + 32 * c) v (own (fun h => ctlSet h c v))

/-- The reserved channels and task inputs start (R364, Table PIC-9). -/
def picStart (h : Hub) : Hub :=
  let one := fun (h : Hub) (c iv kind : Nat) =>
    let h := setFld h pPIC (Fld.PIC.CH_INTERVAL.nth c) iv
    let h := setFld h pPIC (Fld.PIC.CH_CTL_MODE.nth c) 2
    let h := setFld h pPIC (Fld.PIC.CH_CTL_SKIP.nth c) 1
    let h := setFld (setCmp h c iv) pPIC (Fld.PIC.CH_STAT_ARMED.nth c) 1
    let h := modChan h c (fun _ => { ChanRt.reset with tset := h.htime, armAt := h.htime })
    let h := setFld h pEVT (Fld.EVT.T_SRCMASK1.nth c) (2 ^ (c - 32))
    setFld (setFld h pEVT (Fld.EVT.T_TASK_KIND.nth c) kind) pEVT (Fld.EVT.T_TASK_EN.nth c) 1
  one (one h 61 250000 7) 62 2000000 6

/-! ### Dumps (R373 to R375) -/

/-- The pages that CNT.DMASK selects, ascending. -/
def dumpPages (h : Hub) : List Nat :=
  allPages.filter (fun p => bit (fld h pCNT (Fld.CNT.DMASK.nth (p / 32))) (p % 32))

/-- A dump record (Table CNT-4). -/
def dumpBytes (h : Hub) (pg seq : Nat) : List Nat :=
  leBytes 8 h.htime ++ (([0, 1, 2, 3, 4, 5, 6, 7] : List Nat).flatMap (fun k => leBytes 6 (cval h pg k))) ++
    leBytes 2 pg ++ [fld h pg Fld.HDR.COVF, 0] ++ leBytes 4 seq

/-- Write one dump record and take CLEAR. -/
def dumpPage (seq : Nat) (h : Hub) (pg : Nat) : Hub :=
  let tail := fld h pCNT Fld.CNT.DUMP_TAIL
  let addr := fld64 h pCNT Fld.CNT.DUMP_BASE_LO Fld.CNT.DUMP_BASE_HI + tail % 2 ^ fld h pCNT Fld.CNT.DUMP_CFG_RING_LOG2 * 64
  let h1 := ringStore h pCNT (flag h pCNT Fld.CNT.DUMP_CFG_RING_INT) addr (dumpBytes h pg seq)
  let h1 := setFld h1 pCNT Fld.CNT.DUMP_TAIL (tail + 1)
  if flag h1 pCNT Fld.CNT.DUMP_CFG_CLEAR then countersClear h1 pg else h1

/-- A dump's snapshot and records; the flag says that it was dropped (R375). -/
def dumpRun (h : Hub) : Hub × Bool :=
  let ps := dumpPages h
  let seq := fld h pCNT Fld.CNT.DUMP_SEQ
  let room := ringFree (fld h pCNT Fld.CNT.DUMP_CFG_RING_LOG2) (fld h pCNT Fld.CNT.DUMP_TAIL) (fld h pCNT Fld.CNT.DUMP_HEAD)
  if room < ps.length then
    (setFld (setIstat (bump h pCNT Fld.CNT.DUMP_DROP_CNT) pCNT 2) pCNT Fld.CNT.DUMP_SEQ (seq + 1), true)
  else (setFld (ps.foldl (dumpPage seq) h) pCNT Fld.CNT.DUMP_SEQ (seq + 1), false)

/-! ### Tasks (R357 to R363) -/

/-- KIND of a task input (Table PIC-8). -/
def tKind (h : Hub) (t : Nat) : Nat := fld h pEVT (Fld.EVT.T_TASK_KIND.nth t)

/-- This hub has a time parent (R136). -/
def hasParent (h : Hub) : Bool :=
  !(h.tulle.root.isNone || h.tulle.root == some (ownNode h) || flag h pTIME Fld.TIME.STAT_NO_ROOT)

/-- A TIME_REQ waits on some link. -/
def timeReqWaits (h : Hub) : Bool := h.tulle.links.any (fun l => l.2.queue.any (fun m => m.hdr.opc == 0x70))

/-- What a task does when it starts; the flag says that it ends at once (Table PIC-8). -/
def taskAct (h : Hub) (t : Nat) : Hub × Bool :=
  match tKind h t with
  | 1 =>
    let f := if t < 32 then Fld.EVT.TASK_IRQ_LO else Fld.EVT.TASK_IRQ_HI
    (setIstat (setFld h pEVT f (fld h pEVT f ||| 2 ^ (t % 32))) pEVT 0, false)
  | 2 => dumpRun h
  | 3 => (askTail h 1, false)
  | 4 =>
    let d := fld h pEVT (Fld.EVT.T_TASK_ARG.nth t)
    if domState h d != 0 || domPinned h d then (h, true) else ((domReq h d 1).1, false)
  | 5 => (scrubTask h, false)
  | 6 => (sendHeartbeat h false, true)
  | 7 =>
    if hasParent h && tulleRuns h then
      (sendMsg h (fld h pTIME Fld.TIME.ROOT_PARENT) 0x70 (intAgent (ownNode h)) 0 0 0 false 0 (.time (ftime h) 0 0)
       , false)
    else (h, true)
  | _ => (h, true)

/-- A task starts running. -/
def taskStart (h : Hub) (t : Nat) : Hub :=
  let h := bump (setFld h pEVT (Fld.EVT.T_TSTAT_RUNNING.nth t) 1) pEVT (Fld.EVT.T_RUNS.nth t)
  let (h, ended) := taskAct h t
  if ended then setFld h pEVT (Fld.EVT.T_TSTAT_RUNNING.nth t) 0 else h

/-- SEAL keeps a kind from running (R363). -/
def sealBars (h : Hub) (kind : Nat) : Bool :=
  h.mode.mode == .seal && (kind == 2 || kind == 4 || kind == 5 || kind == 7 || (kind == 6 && 2 < h.mode.sealPhase))

/-- A running task ends; a pending trigger starts it again (R360). -/
def taskEnd (h : Hub) (t : Nat) : Hub :=
  let h := setFld h pEVT (Fld.EVT.T_TSTAT_RUNNING.nth t) 0
  if flag h pEVT (Fld.EVT.T_TSTAT_PENDING.nth t) then
    let h := setFld h pEVT (Fld.EVT.T_TSTAT_PENDING.nth t) 0
    if sealBars h (tKind h t) then h else taskStart h t
  else h

/-- A task input acts on n sources raised in one hc (R360, R363). -/
def taskTrigger (h : Hub) (t n : Nat) : Hub :=
  let h := bumpBy h pEVT (Fld.EVT.T_HITS.nth t) n
  let h := if 2 ≤ n then
      setIstat (bump (setFld h pEVT (Fld.EVT.T_TSTAT_COALESCED.nth t) 1) pEVT Fld.EVT.COALESCE_CNT) pEVT 1
    else h
  if sealBars h (tKind h t) then h
  else if !flag h pEVT (Fld.EVT.T_TSTAT_RUNNING.nth t) then taskStart h t
  else if !flag h pEVT (Fld.EVT.T_TSTAT_PENDING.nth t) then setFld h pEVT (Fld.EVT.T_TSTAT_PENDING.nth t) 1
  else
    let h := bump (setFld h pEVT (Fld.EVT.T_TSTAT_OVERRUN.nth t) 1) pEVT Fld.EVT.OVERRUN_CNT
    setIstat (errlog h pEVT 1 t (fld h pEVT (Fld.EVT.T_HITS.nth t))) pEVT 2

/-- Number by which a dump tick stands among the raised sources; no SRCMASK selects it. -/
def dumpSource : Nat := 128

/-- A task input selects a source (R357, R373). -/
def selects (h : Hub) (t j : Nat) : Bool :=
  if j = dumpSource then tKind h t == 2
  else
    bit (fld h pEVT ((([Fld.EVT.T_SRCMASK0, Fld.EVT.T_SRCMASK1, Fld.EVT.T_SRCMASK2, Fld.EVT.T_SRCMASK3] :
      List FieldDef).getD (j / 32) Fld.EVT.T_SRCMASK3).nth t)) (j % 32)

/-- The task inputs that are bound and enabled (R361). -/
def liveTasks (h : Hub) : List Nat :=
  (List.range 64).filter (fun t => tKind h t != 0 && flag h pEVT (Fld.EVT.T_TASK_EN.nth t))

/-- The task inputs act on the sources of one hc. -/
def tasksOn (h : Hub) (srcs : List Nat) : Hub :=
  (liveTasks h).foldl (fun h t =>
    let n := (srcs.filter (selects h t)).length
    if n = 0 then h else taskTrigger h t n) h

/-- A capture input sees its edge in hc t (R351, R353). -/
def captureAt (h : Hub) (i t : Nat) : Hub :=
  let h := raiseAt h (64 + i) t
  if flag h pPIC (Fld.PIC.CAP_STAT_VALID.nth i) then
    setIstat (bump (setFld h pPIC (Fld.PIC.CAP_STAT_OVERRUN.nth i) 1) pPIC Fld.PIC.CAP_OVR_CNT) pPIC 4
  else
    let h := setFld64 h pPIC (Fld.PIC.CAP_LO.nth i) (Fld.PIC.CAP_HI.nth i) t
    setIstat (setFld h pPIC (Fld.PIC.CAP_STAT_VALID.nth i) 1) pPIC 3

/-- A capture source that is a pin's edge (Table PIC-5). -/
def pinEdge (src : Nat) : Bool := (0x80 ≤ src && src ≤ 0x84) || (0x90 ≤ src && src ≤ 0x9B)

/-- The capture inputs that select an event source see it raised in hc t (Table PIC-5). -/
def capturesOf (h : Hub) (src t : Nat) : Hub :=
  (List.range 8).foldl (fun h i =>
    if src < 96 && flag h pPIC (Fld.PIC.CAP_CFG_EN.nth i) && fld h pPIC (Fld.PIC.CAP_CFG_SRC.nth i) == src then captureAt h i t
    else h) h

/-- The capture inputs see the raised sources, and the sources that they raise in turn. -/
def capturesRun : Nat → Hub → List (Nat × Nat) → Hub
  | 0, h, _ => h
  | _, h, [] => h
  | n + 1, h, x :: xs =>
    let h' := capturesOf h x.1 x.2
    capturesRun n h' (xs ++ h'.pic.raised.drop h.pic.raised.length)

/-- The capture inputs and the task inputs act on every source raised so far, the tasks hc by hc (R351, R357). -/
def eventsRun (h : Hub) : Hub :=
  if h.pic.raised.isEmpty then h
  else
    let h := capturesRun (9 * h.pic.raised.length) h h.pic.raised
    let byHc := h.pic.raised.foldl (fun m x => mapPut m x.2 (mapGet m x.2 [] ++ [x.1])) ([] : List (Nat × List Nat))
    byHc.foldl (fun h x => tasksOn h x.2) { h with pic := { h.pic with raised := [] } }

/-- Act on the hub, and let the task inputs act. -/
def State.onPicot (s : State) (f : Hub → Hub) : State := s.onTulle (withStops fun h => eventsRun (f h))

/-! ### The rows -/

/-- CMP_WRITE (R344): a write of a channel's CMP high half, INTERVAL, PHASE or CTL. -/
def execCmpWrite (o : Origin) (c : Chan) (r : ChanReg) (v : Word) (s : State) : Res :=
  .next (s.onPicot fun h => chanWrite h o c.val r v.toNat)

/-- CHANNEL_START (R347): a write of CTL with START. -/
def execChannelStart (o : Origin) (c : Chan) (v : Word) (s : State) : Res :=
  .next (s.onPicot fun h => chanWrite h o c.val .ctl (v.toNat ||| 0x20))

/-- COMPARE_FIRE (R343, R345, R346, R350). -/
def execCompareFire (c : Chan) (s : State) : Res :=
  .next (s.onPicot fun h =>
    match nextFire h c.val with
    | some f => fireCmp h c.val f
    | none => h)

/-- PERIOD_WRAP (R348). -/
def execPeriodWrap (c : Chan) (s : State) : Res :=
  .next (s.onPicot fun h =>
    match nextWrap h c.val with
    | some f => firePeriod h c.val f
    | none => h)

/-- The work of a running task has ended (Table PIC-8). -/
def taskOver (h : Hub) (t : Nat) : Bool :=
  match tKind h t with
  | 2 => true
  | 3 => !h.scb.tails.contains 1
  | 4 => 2 ≤ domState h (fld h pEVT (Fld.EVT.T_TASK_ARG.nth t))
  | 5 => true
  | 7 => !timeReqWaits h
  | _ => false

/-- TASK_END (R358, R360): the work of a task, FW_IRQ apart, has ended. -/
def execTaskEnd (t : Chan) (s : State) : Res :=
  .next (s.onPicot fun h =>
    if flag h pEVT (Fld.EVT.T_TSTAT_RUNNING.nth t.val) && taskOver h t.val then
      taskEnd (if tKind h t.val = 2 then setIstat h pCNT 1 else h) t.val
    else h)

/-- A write of a TASK_IRQ half; the halves are independent (R362). -/
def taskIrqWrite (h : Hub) (o : Origin) (hi : Bool) (v : Nat) : Hub :=
  let f := if hi then Fld.EVT.TASK_IRQ_HI else Fld.EVT.TASK_IRQ_LO
  let was := fld h pEVT f
  let h := plainWrite h o pEVT f.off v
  let now := fld h pEVT f
  ((List.range 32).filter (fun j => bit was j && !bit now j)).foldl (fun h j =>
    let t := if hi then 32 + j else j
    if tKind h t = 1 && flag h pEVT (Fld.EVT.T_TSTAT_RUNNING.nth t) then taskEnd h t else h) h

/-- TASK_IRQ_CLEAR (R362). -/
def execTaskIrqClear (o : Origin) (hi : Bool) (v : Word) (s : State) : Res :=
  .next (s.onPicot fun h => taskIrqWrite h o hi v.toNat)

/-- A write of SWFIRE raises the sources 88 to 95 (R356). -/
def swfireWrite (h : Hub) (o : Origin) (v : Nat) : Hub :=
  guarded h o pEVT 0x108 v (fun h => ((List.range 8).filter (bit v)).foldl (fun h b => raise h (88 + b)) h)

/-- SWFIRE (R356). -/
def execSwfire (o : Origin) (v : Word) (s : State) : Res := .next (s.onPicot fun h => swfireWrite h o v.toNat)

/-- A write of TASK (R359, R361, R364). R8 keeps the previous value of a field that is given a reserved encoding: an ARG above 11
beside KIND 4 is one of ARG and of what KIND would then bind, and the write leaves both as they are and applies EN (DEDUCED,
log entry 13). -/
def taskWrite (h : Hub) (t v : Nat) : Hub × List AccKind :=
  let kind := bits v 0 4
  let arg := bits v 4 4
  let en := bits v 8 1
  let k0 := tKind h t
  let a0 := fld h pEVT (Fld.EVT.T_TASK_ARG.nth t)
  let busy := flag h pEVT (Fld.EVT.T_TSTAT_RUNNING.nth t) || flag h pEVT (Fld.EVT.T_TSTAT_PENDING.nth t)
  if hubsOwn t then (h, [.stateRefused])
  else if busy then
    if kind = k0 && arg = a0 && en = 0 && flag h pEVT (Fld.EVT.T_TASK_EN.nth t) then
      (setFld (setFld h pEVT (Fld.EVT.T_TASK_EN.nth t) 0) pEVT (Fld.EVT.T_TSTAT_PENDING.nth t) 0, [])
    else (h, [.stateRefused])
  else if 2 ≤ kind && kind ≤ 5 && (List.range 64).any (fun u => u != t && tKind h u == kind) then (h, [.stateRefused])
  else
    let h := setFld h pEVT (Fld.EVT.T_TASK_EN.nth t) en
    if kind = 4 && 11 < arg then (h, [.reservedEnc])
    else
      let h := setFld h pEVT (Fld.EVT.T_TASK_ARG.nth t) arg
      if 6 ≤ kind then (h, [.reservedEnc]) else (setFld h pEVT (Fld.EVT.T_TASK_KIND.nth t) kind, [])

/-- TASK_WRITE (R359, R361). -/
def execTaskWrite (o : Origin) (t : Chan) (v : Word) (s : State) : Res :=
  .next (s.onPicot fun h => guardedK h o pEVT (0x210 + 32 * t.val) v.toNat (fun h => taskWrite h t.val v.toNat))

/-- CAPTURE_EDGE (R351, R353): the pin edge that the capture input selects has come, the present hc being the capture hc. The
edges of event sources are captured as the sources are raised. -/
def execCaptureEdge (i : Slice) (s : State) : Res :=
  .next (s.onPicot fun h =>
    let i := i.val
    if !h.boot.hclk || !flag h pPIC (Fld.PIC.CAP_CFG_EN.nth i) || !pinEdge (fld h pPIC (Fld.PIC.CAP_CFG_SRC.nth i)) then h
    else captureAt h i h.htime)

/-- SYNC_IN_PULSE (R355): a rising edge leaves the filter. -/
def execSyncInPulse (s : State) : Res :=
  .next (s.onPicot fun h =>
    if h.boot.hclk then raise { h with pins := { h.pins with syncIn := true, syncInAt := h.htime } } 72 else h)

/-- SYNC_OUT falls. -/
def syncOutLow (h : Hub) : Hub := { h with pins := { h.pins with syncOut := false } }

/-- SYNC_OUT_PULSE_END (R354). -/
def execSyncOutPulseEnd (s : State) : Res :=
  .next (s.onPicot fun h =>
    if h.pins.syncOut then
      syncOutLow (advanceTo h (h.pic.syncAt + 2 + fld h pPIC Fld.PIC.SYNC_WIDTH))
    else h)

/-- A page's counter overflowed in hc t: OVF_TIME, the page's bit, the interrupt and source 84 (R378). -/
def ovfReport (h : Hub) (pg t : Nat) : Hub :=
  let h := if bit (fld h pCNT Fld.HDR.ISTAT) 0 then h else setFld64 h pCNT Fld.CNT.OVF_TIME_LO Fld.CNT.OVF_TIME_HI t
  let m := Fld.CNT.OVF_MAP.nth (pg / 32)
  raise (setIstat (setFld h pCNT m (fld h pCNT m ||| 2 ^ (pg % 32))) pCNT 0) 84

/-- OVERFLOW_REPORT (R378): the oldest overflow is reported. -/
def execOverflowReport (s : State) : Res :=
  .next (s.onPicot fun h =>
    match h.perf.ovfPending with
    | [] => h
    | (pg, t) :: rest =>
      ovfReport (advanceTo { h with perf := { h.perf with ovfPending := rest } } (t + 1)) pg t)

/-- hc of the dump period (R373). -/
def dumpPeriod (h : Hub) : Nat := 2 ^ fld h pCNT Fld.CNT.DUMP_CFG_K * 2000

/-- DUMP_TICK (R373): HTIME reaches the next multiple of the dump period. -/
def execDumpTick (s : State) : Res :=
  .next (s.onPicot fun h =>
    if !h.boot.hclk || !flag h pCNT Fld.CNT.DUMP_CFG_EN then h
    else
      let h := advanceTo h ((h.htime / dumpPeriod h + 1) * dumpPeriod h)
      if (liveTasks h).any (fun t => tKind h t == 2) then raise h dumpSource else bump h pCNT Fld.CNT.DUMP_NOTASK_CNT)

/-- A write of SMP.CFG; EN loads the LFSRs (R379). -/
def smpCfgWrite (h : Hub) (o : Origin) (v : Nat) : Hub :=
  let was := flag h pSMP Fld.SMP.CFG_EN
  let h := plainWrite h o pSMP 0x100 v
  if !was && flag h pSMP Fld.SMP.CFG_EN then
    { h with meter := { h.meter with lfsr := lfsrLoad (fld h pSMP Fld.SMP.SEED) } }
  else h

/-- SAMPLING_ENABLE (R379). -/
def execSamplingEnable (o : Origin) (v : Word) (s : State) : Res := .next (s.onPicot fun h => smpCfgWrite h o v.toNat)

end Sys2Proof.Machine
end

