-- ==== Sys2Proof/Machine/Power.lean ====
section
/-! DEFINITION. Resets, supplies, the clock and thermal limits (R60 to R80), the end of the SEAL sequence, and the rows of
the management bus, the test access port and the bays' recoveries. -/

namespace Sys2Proof.Machine

/-! ### Reset (R61, R72, R80) -/

/-- A reset of the hub with a cause of Table PKG-9 (R61). What it leaves: the board's levels, the output record, the
keep store, the fuses, the pool media and the directory region, the owner counts, the THERMTRIP latch, PREV_RESET and
LOSS_CNT. A VAUX reset clears the last four, and while VAUX stays low the next start is POWER_ON (R72). While THERMTRIP_N is asserted no other reset changes PREV_RESET. -/
def hubReset (h : Hub) (cause rail : Nat) (vaux : Bool) : Hub :=
  let hold := h.pins.thermtrip
  let gone := vaux || bit h.pins.railReset 5
  let c := if gone then 0 else if hold then fld h pCLK Fld.CLK.PREV_RESET_CAUSE else cause
  let r := if gone then 0 else if hold then fld h pCLK Fld.CLK.PREV_RESET_RAIL else rail
  let n := if vaux then 0 else fld h pCLK Fld.CLK.LOSS_CNT
  let z : Hub := { Hub.reset with
    out := h.out, free := h.free, keep := h.keep, media := h.media, fuses := h.fuses, tap := h.tap,
    owners := if vaux then [] else h.owners,
    prk := { Prk.reset with region := h.prk.region, bad := h.prk.bad },
    pins := { h.pins with syncOut := false, syncIn := false, thermtrip := hold && !vaux },
    boot := { Boot.reset with vauxLost := vaux || h.boot.vauxLost },
    sramWipe := true }
  setFld (setFld (setFld z pCLK Fld.CLK.PREV_RESET_CAUSE c) pCLK Fld.CLK.PREV_RESET_RAIL r) pCLK Fld.CLK.LOSS_CNT n

/-- The boot sequencer may leave reset (R75, R80). -/
def canStart (h : Hub) : Bool :=
  h.boot.seq == .off && !h.pins.hubReset && !bit h.pins.railReset 5 && !h.pins.thermtrip && h.pins.refclk

/-- The boot sequencer starts at offset 0, where a PFAIL channel may hold it (R60). -/
def seqStart (h : Hub) : Hub := if canStart h then seqResume (setSeq h .waiting) else h

/-- Clear a bit of a number. -/
def clearBit (v i : Nat) : Nat := if bit v i then v - 2 ^ i else v

/-- Number of a rail in PWR.RAIL_WARN (Table MOD-5). -/
def railNum : Rail → Nat
  | .vcore => 0 | .vsram => 1 | .vphyA => 2 | .vphyH => 3 | .vio => 4 | .vaux => 5

/-- SEQUENCER_START (R75): VAUX is above 1.64 V and HUB_RESET_N is deasserted. -/
def execSequencerStart (s : State) : Res :=
  .next (s.onSupply fun h => seqStart { h with pins := { h.pins with railReset := clearBit h.pins.railReset 5 } })

/-- The hub is reset and held so by HUB_RESET_N (R61). -/
def hubHeld (h : Hub) : Hub := let h := hubReset h 1 0 false; { h with pins := { h.pins with hubReset := true } }

/-- How the hub drives the bus of a keep store device: released while HUB_RESET_N is asserted (R469), parked while the device
is FAILED (R65). -/
def ksDrive (h : Hub) (d : Nat) : KsDrive :=
  if h.pins.hubReset then .released else if devState h d = 2 then .parked else .bus

/-- Both buses are driven as the state now says. -/
def ksDrives (h : Hub) : Hub := [0, 1].foldl (fun h d => emit h (.ksBus d (ksDrive h d))) h

/-- HUB_RESET_ASSERT (R61, R469). -/
def execHubResetAssert (s : State) : Res :=
  .next (s.onSupply fun h =>
    if h.pins.hubReset then h else ksDrives (hubHeld h))

/-- HUB_RESET_DEASSERT (R61, R469). -/
def execHubResetDeassert (s : State) : Res :=
  .next (s.onSupply fun h =>
    if h.pins.hubReset then seqStart (ksDrives { h with pins := { h.pins with hubReset := false } }) else h)

/-! ### Supplies (R70 to R72) -/

/-- The warnings of the rails change, with ALERT_N (R71). -/
def setRails (h : Hub) (warn : Nat) : Hub := atPage h pPWR (fun h => { h with pins := { h.pins with railWarn := warn } })

/-- RAIL_BELOW_WARNING (R70, R71). -/
def execRailBelowWarning (r : Rail) (s : State) : Res :=
  .next (s.onSupply fun h =>
    if bit h.pins.railWarn (railNum r) then h
    else
      let h := setIstat (setRails h (h.pins.railWarn ||| 2 ^ railNum r)) pPWR 3
      match r with
      | .vcore => braceStart h 3
      | .vsram => braceStart h 4
      | .vaux => braceStart h 5
      | _ => h)

/-- RAIL_ABOVE_WARNING (R70): the rail is above its reset threshold too. -/
def execRailAboveWarning (r : Rail) (s : State) : Res :=
  .next (s.onSupply fun h =>
    if bit h.pins.railWarn (railNum r) then
      let h := setRails h (clearBit h.pins.railWarn (railNum r))
      let h := { h with pins := { h.pins with railReset := clearBit h.pins.railReset (railNum r) } }
      match r with
      | .vcore => braceQuiet h
      | .vsram => braceQuiet h
      | .vaux => braceQuiet h
      | _ => h
    else h)

/-- A rail falls below its reset threshold. -/
def railFalls (h : Hub) (r : Rail) : Hub :=
  let i := railNum r
  let h := hubReset h 2 i (r == .vaux)
  { h with pins := { h.pins with railWarn := h.pins.railWarn ||| 2 ^ i, railReset := h.pins.railReset ||| 2 ^ i } }

/-- RAIL_BELOW_RESET (R70, R72). A rail that is held below already has risen past the threshold and its hysteresis since,
which no row reports while it stays below warning (DEDUCED, log entry 78). -/
def execRailBelowReset (r : Rail) (s : State) : Res := .next (s.onSupply fun h => railFalls h r)

/-! ### The clock (R77, R78) -/

/-- The loss of REFCLK is declared (R77, Table PKG-7): holdover, and the tail commit alone. -/
def clockLost (h : Hub) : Hub :=
  let h := setIstat (atPage h pCLK (fun h => setFld h pCLK Fld.CLK.STAT_HOLDOVER 1)) pCLK 0
  let h := count h pCLK Fld.CLK.LOSS_CNT
  { h with scb := { h.scb with tails := [4] }, kep := { h.kep with batch := none }, mode := { h.mode with sealOk := false } }

/-- REFCLK_LOSS (R77, R78): holdover once the PLL has locked, otherwise the sequencer stops. In the hold of SEAL only
the supply monitors run. -/
def execRefclkLoss (s : State) : Res :=
  .next (s.onSupply fun h =>
    if !h.pins.refclk then h
    else
      let h := { h with pins := { h.pins with refclk := false } }
      if h.mode.sealPhase = 8 then h
      else if !flag h pCLK Fld.CLK.STAT_LOCKED then
        { h with boot := { h.boot with seq := .off } }
      else clockLost h)

/-- CLOCK_LOSS_RESET (R77): 64 hc after the tail commit, or at offset 200,080. -/
def execClockLossReset (s : State) : Res :=
  .next (s.onSupply fun h => if flag h pCLK Fld.CLK.STAT_HOLDOVER then hubReset h 3 0 false else h)

/-- REFCLK_RETURN (R78). -/
def execRefclkReturn (s : State) : Res :=
  .next (s.onSupply fun h =>
    if h.pins.refclk then h else seqStart { h with pins := { h.pins with refclk := true } })

/-! ### Thermal limits (R80, R455) -/

/-- THERMTRIP (R80). -/
def execThermtrip (s : State) : Res :=
  .next (s.onSupply fun h =>
    if h.pins.thermtrip then h
    else let h := hubReset h 4 0 false; { h with pins := { h.pins with thermtrip := true } })

/-- THERMTRIP_RELEASE (R80): the five main rails have stayed below reset for 1 s. -/
def execThermtripRelease (s : State) : Res :=
  .next (s.onSupply fun h =>
    if h.pins.thermtrip && h.pins.railReset % 32 = 31 then seqStart { h with pins := { h.pins with thermtrip := false } }
    else h)

/-- Throttling starts at WARN_C and ends below WARN_C - 5 (R455); both are two's complement (DESIGN CHOICE for
WARN_C, log entry 61). -/
def thermJudge (h : Hub) : Hub :=
  let t := signedOf 8 (fld h pPWR Fld.PWR.THERM_TEMP_MAX)
  let w := signedOf 8 (fld h pPWR Fld.PWR.THERM_WARN_C)
  let on := flag h pPWR Fld.PWR.THERM_THROTTLE
  if !on && w ≤ t then setIstat (atPage h pPWR (fun h => setFld h pPWR Fld.PWR.THERM_THROTTLE 1)) pPWR 6
  else if on && t < w - 5 then pumpAll (atPage h pPWR (fun h => setFld h pPWR Fld.PWR.THERM_THROTTLE 0))
  else h

/-- THERMAL_WARNING (R455): the highest sensor reads `temp`. -/
def execThermalWarning (temp : BitVec 8) (s : State) : Res :=
  .next (s.onTulle fun h => thermJudge (setFld h pPWR Fld.PWR.THERM_TEMP_MAX temp.toNat))

/-! ### The SEAL sequence (R461) -/

/-- The hold is reached: with cause BENCH_REQ the hub resets (R454). -/
def sealHold (h : Hub) : Hub := if h.mode.sealPhase = 8 && h.mode.sealCause = 3 then hubReset h 5 0 false else h

/-- A sequence of SEAL runs: a clock loss abandons it (R77). -/
def sealRuns (h : Hub) : Bool :=
  h.mode.mode == .seal && 1 ≤ h.mode.sealPhase && h.mode.sealPhase ≤ 7 && !flag h pCLK Fld.CLK.STAT_HOLDOVER

/-- SEAL_PHASE_END (R461, R142): a phase whose work is complete ends; the flush of phase 2 goes on until it is. -/
def execSealPhaseEnd (s : State) : Res :=
  .next (s.onTulle fun h =>
    if !sealRuns h then h
    else if sealDone h then sealHold (sealNext h true)
    else if h.mode.sealPhase = 2 then rlcFlush h
    else h)

/-- SEAL_PHASE_DEADLINE (R461): a phase that misses its deadline is cut off there. -/
def execSealPhaseDeadline (s : State) : Res :=
  .next (s.onTulle fun h =>
    if !sealRuns h then h
    else
      let h := advanceTo h (h.mode.sealTime + sealDeadline h.mode.sealPhase)
      sealHold (if sealDone h then sealNext h true else sealCut h))

/-- BENCH_REQUEST (R454): the debounced level of BENCH_REQ_N. -/
def execBenchRequest (low : Bool) (s : State) : Res :=
  .next (s.onPins fun h =>
    let was := h.pins.benchReq
    let h := { h with pins := { h.pins with benchReq := low } }
    if low && !was then enterSeal h 3 else h)

/-! ### The management bus (R62, R63) -/

/-- MGMT.STATE. -/
def setMgmt (h : Hub) (v : Nat) : Hub := setFld h pPIN Fld.PIN.MGMT_STATE v

/-- A recovery attempt starts (R63). -/
def recoverStart (h : Hub) : Hub :=
  let h := setIstat (bump h pPIN Fld.PIN.MGMT_RECOV_CNT) pPIN 0
  { h with mgmt := { h.mgmt with tries := h.mgmt.tries + 1, at_ := h.htime } }

/-- The bus is free after an attempt, or not: the third failure makes MGMT.STATE FAILED (R63). -/
def recoverEnd (h : Hub) (freed : Bool) : Hub :=
  let failed := fld h pPIN Fld.PIN.MGMT_STATE = 3
  if freed then
    let h := setMgmt { h with mgmt := { h.mgmt with tries := 0 } } h.mgmt.prev
    if failed then setIstat h pPIN 2 else h
  else if !failed && 3 ≤ h.mgmt.tries then setIstat (setMgmt h 3) pPIN 1
  else h

/-- The management bus runs: the island is on HCLK. -/
def mgmtRuns (h : Hub) : Bool := h.boot.hclk && h.mode.sealPhase != 8

/-- The pulses are sent: SDA is still low and SCL has been high for 1 ms (R63). -/
def busPulses (t : BusTry) : Bool := t.sda && !t.scl

/-- The lines an attempt leaves low, SCL and SDA. -/
def busLeft (t : BusTry) : Bool × Bool := if busPulses t then (t.sclAfter, t.sdaAfter) else (t.scl, t.sda)

/-- An attempt of R63: the drivers are released and the target logic is reset, so that the dynamic address is lost; where SDA
alone stays low, nine SCL pulses and a STOP follow. -/
def recoverTry (h : Hub) (t : BusTry) : Hub :=
  let h := recoverStart { h with mgmt := { h.mgmt with addr := none } }
  let h := if busPulses t then emit (emit h (.sclPulses 9)) .i3cStop else h
  recoverEnd { h with pins := { h.pins with sclLow := (busLeft t).1, sdaLow := (busLeft t).2 } } (!(busLeft t).1 && !(busLeft t).2)

/-- I3C_STUCK_TIMEOUT (R63): a line has stayed low for 35 ms. -/
def execI3cStuckTimeout (scl sda : Bool) (t : BusTry) (s : State) : Res :=
  .next (s.onTulle fun h =>
    let st := fld h pPIN Fld.PIN.MGMT_STATE
    if !mgmtRuns h || !(scl || sda) || 2 ≤ st then h
    else recoverTry (setMgmt { h with mgmt := { h.mgmt with prev := st, tries := 0 } } 2) t)

/-- I3C_RECOVERY_RETRY (R63): 1 s after the last attempt, 10 s once FAILED. -/
def execI3cRecoveryRetry (t : BusTry) (s : State) : Res :=
  .next (s.onTulle fun h =>
    let st := fld h pPIN Fld.PIN.MGMT_STATE
    if !mgmtRuns h || st < 2 then h
    else recoverTry (advanceTo h (h.mgmt.at_ + (if st = 3 then 20000000000 else 2000000000))) t)

/-- DYNAMIC_ADDRESS_ASSIGNMENT (R62): the controller gives the target its dynamic address. -/
def execDynamicAddressAssignment (addr : BitVec 7) (s : State) : Res :=
  .next (s.onTulle fun h =>
    if mgmtRuns h && fld h pPIN Fld.PIN.MGMT_STATE ≤ 1 then
      setMgmt { h with mgmt := { h.mgmt with addr := some addr.toNat } } 0
    else h)

/-- KS_TRANSFER_FAIL (R65, R432): the bus is parked and the device marked FAILED. -/
def execKsTransferFail (d : KsDev) (cause : Nat) (s : State) : Res :=
  .next (s.onTulle fun h => if devState h d.val = 2 then h else emit (devFail h d.val cause 0) (.ksBus d.val .parked))

/-! ### Bay events that no mode change follows (Table BAY-12) -/

/-- RECOVERY_ENTRY: the link of a bay enters Recovery. -/
def execRecoveryEntry (b : Bay) (s : State) : Res :=
  .next (s.onTulle fun h =>
    if leadOf h b.val = b.val && bayUp h b.val then bump h (pBAY b.val) Fld.BAY.RECOVERY_CNT else h)

/-- A flit is replayed on a link, on which FEC has corrected so many flits since the last replay (REPLAY_CNT and FEC_CORR_CNT
of Table BAY-5). -/
def flitsReplayed (h : Hub) (b corrected : Nat) : Hub :=
  bump (if corrected = 0 then h else bumpBy h (pBAY b) Fld.BAY.FEC_CORR_CNT corrected) (pBAY b) Fld.BAY.REPLAY_CNT

/-- FLIT_REPLAY: a flit is replayed on the link of a bay. The flits that FEC corrected, which no row of the table reports,
are counted with it (DESIGN CHOICE, log entry 77). -/
def execFlitReplay (r : FlitIn) (s : State) : Res :=
  .next (s.onTulle fun h =>
    if leadOf h r.bay.val = r.bay.val && bayUp h r.bay.val then flitsReplayed h r.bay.val r.corrected else h)

/-! ### The test access port (R66) -/

/-- What an instruction leaves to drive the balls (IEEE 1149.1, 1149.6). -/
def tapDrive : TapIr → BallDrive
  | .extest | .clamp => .scan
  | .extestPulse => .pulse
  | .extestTrain => .train
  | .highz => .float
  | .idcode | .bypass | .sample => .mission

/-- Load a TAP instruction: what drives the balls may change. -/
def tapLoad (h : Hub) (i : TapIr) : Hub :=
  let was := tapDrive h.tap.ir
  let h := { h with tap := { h.tap with ir := i } }
  if tapDrive i = was then h else emit h (.balls (tapDrive i) h.tap.preload)

/-- The sideband levels that the model holds, among the balls that boundary scan reaches (R66). -/
def sidebandLevels (h : Hub) : List Bool :=
  [!h.pins.hubReset, !h.pins.pfailA, !h.pins.pfailB, h.pins.syncIn, !h.pins.benchReq, !h.pins.sclLow, !h.pins.sdaLow,
   !h.pins.thermtrip, h.pins.syncOut] ++ (List.range 12).map (fun k => !bit h.pins.qrst k)

/-- The boundary register captures the balls and is shifted out. -/
def tapCapture (h : Hub) : Hub :=
  emit { h with free := h.free + 1 } (.tdo (Config.boundaryWord (sidebandLevels h) h.free))

/-- TAP_BYPASS (R66): the bypass register, which captures 0, lies between TDI and TDO. -/
def execTapBypass (s : State) : Res :=
  .next (s.act fun h => let h := tapLoad h .bypass; emit { h with tap := { h.tap with bypass := false } } (.tdo 0))

/-- TAP_IDCODE (R66): the identification register is shifted out; the spec gives no value of it. -/
def execTapIdcode (s : State) : Res :=
  .next (s.act fun h => emit (tapLoad h .idcode) (.tdo Config.tapIdcode.toNat))

/-- TAP_SAMPLE_PRELOAD (R66): the balls are captured and shifted out, and the update stage takes the data shifted in. -/
def execTapSamplePreload (data : Nat) (s : State) : Res :=
  .next (s.act fun h => let h := tapCapture (tapLoad h .sample); { h with tap := { h.tap with preload := data } })

/-- TAP_EXTEST (R66): the balls are driven from the update stage, and captured. -/
def execTapExtest (s : State) : Res := .next (s.act fun h => tapCapture (tapLoad h .extest))

/-- TAP_CLAMP (R66): the balls are driven from the update stage, with the bypass register selected. -/
def execTapClamp (s : State) : Res :=
  .next (s.act fun h => let h := tapLoad h .clamp; { h with tap := { h.tap with bypass := false } })

/-- TAP_HIGHZ (R66): the balls float, with the bypass register selected. -/
def execTapHighz (s : State) : Res :=
  .next (s.act fun h => let h := tapLoad h .highz; { h with tap := { h.tap with bypass := false } })

/-- TAP_EXTEST_PULSE (R66). -/
def execTapExtestPulse (s : State) : Res := .next (s.act fun h => tapCapture (tapLoad h .extestPulse))

/-- TAP_EXTEST_TRAIN (R66). -/
def execTapExtestTrain (s : State) : Res := .next (s.act fun h => tapCapture (tapLoad h .extestTrain))

/-- TEST_LOGIC_RESET: TRST_N, or five TMS ones, reset the test logic (PRESUMED, log entry 40). -/
def execTestLogicReset (s : State) : Res := .next (s.act fun h => tapLoad h .idcode)

end Sys2Proof.Machine
end

