-- ==== Sys2Proof/Machine/Boot.lean ====
section
/-! DEFINITION. The start: boot sequencer (R75), ROM and Zhozha (R388 to R402, R467 to R470), firmware slots (R390, R392), the
boot ledger (R406 to R410), the release of the core domain and of the management cores. -/

namespace Sys2Proof.Machine

/-! ### Zhozha's records (R392, R400, R409, R206) -/

/-- Zhozha writes items of its log (Table KEP-4); nothing is written while no device is HEALTHY. -/
def zhPut (h : Hub) (items : List (Nat × Nat × Nat)) : Hub :=
  if items.isEmpty || (healthyDevs h).isEmpty then h
  else
    let bs := items.map (fun i => KBody.zh i.1 i.2.1 i.2.2)
    let us := fun (h : Hub) => batchUnits (numberFrom (lastSeq h 4 + 1) bs)
    let h := if roomFor h 4 (us h) then h else switchBanks h 4
    let u := us h
    let h := (activeDevs h).foldl (fun h d => devPuts h d 4 u) h
    bump { h with keep := { h.keep with blank := false } } pKEP Fld.KEP.BATCH_CNT

/-- The boot select record (R392): slots 0 A, 1 B; a trial 0 none, 1 A, 2 B. -/
structure BootSel where
  zhActive : Nat
  zhTrial  : Nat
  zhRuns   : Nat
  ckActive : Nat
  ckTrial  : Nat
  ckRuns   : Nat
  tries    : Nat
  /-- LAST_FAIL is WATCHDOG. -/
  wdog     : Bool
  deriving DecidableEq, Repr

/-- The record as a value (the layout within it is the model's own, log entry 44). -/
def packSel (b : BootSel) : Nat :=
  b.zhActive % 2 + 2 * (b.zhTrial % 4) + 8 * (b.zhRuns % 2) + 16 * (b.ckActive % 2) + 32 * (b.ckTrial % 4) +
    128 * (b.ckRuns % 2) + 256 * (b.tries % 16) + 4096 * b2n b.wdog

/-- The record a value holds. -/
def unpackSel (v : Nat) : BootSel :=
  { zhActive := bits v 0 1, zhTrial := bits v 1 2, zhRuns := bits v 3 1, ckActive := bits v 4 1, ckTrial := bits v 5 2,
    ckRuns := bits v 7 1, tries := bits v 8 4, wdog := bit v 12 }

/-- The committed boot select record; ACTIVE A and no trial where there is none. -/
def bootSel (h : Hub) : BootSel := unpackSel ((zhItem h 1 0).getD 0)

/-- Write the boot select record. -/
def putSel (h : Hub) (b : BootSel) : Hub := if b = bootSel h then h else zhPut h [(1, 0, packSel b)]

/-- MCn (R400). -/
def mcOf (h : Hub) (n : Nat) : Nat := (zhItem h 2 n).getD 0

/-! ### Firmware slots (R390, R392) -/

/-- Every check of R390 but the floor. -/
def imgSound (h : Hub) (kind : Nat) (i : Image) : Bool :=
  i.stored && i.typ == kind + 1 && i.keyHash == h.fuses.vendor && i.ecdsaOk && i.mldsaOk && i.digestOk &&
    (if kind = 0 then decide (i.length ≤ 262144) && i.loadLen == 0
     else decide (i.length ≤ 20963328) && i.loadLen % 65536 == 0 && decide (i.loadLen ≤ 12582912) &&
       decide (i.loadLen ≤ i.length))

/-- The SVN floor of a kind. -/
def imgFloor (h : Hub) (kind : Nat) : Nat := if kind = 0 then h.fuses.zhSvn else mcOf h 0

/-- The image in a slot. -/
def imgAt (h : Hub) (kind slot : Nat) : Option Image := mapGet? h.keep.images (2 * kind + slot)

/-- The slot holds a valid image (R390). -/
def imgValid (h : Hub) (kind slot : Nat) : Bool :=
  match imgAt h kind slot with
  | some i => imgSound h kind i && imgFloor h kind ≤ i.svn
  | none => false

/-- The slot fails only on its SVN. -/
def imgBelow (h : Hub) (kind slot : Nat) : Bool :=
  match imgAt h kind slot with
  | some i => imgSound h kind i && i.svn < imgFloor h kind
  | none => false

/-- The choice of R392. -/
structure Pick where
  slot     : Option Nat
  active   : Nat
  trial    : Nat
  runs     : Nat
  onTrial  : Bool
  reverted : Bool
  deriving DecidableEq, Repr

/-- Steps 1 to 3 of R392. -/
def pickSlot (valid : Nat → Bool) (active trial runs : Nat) : Pick :=
  let last := fun (trial runs : Nat) (rev : Bool) =>
    if valid active then Pick.mk (some active) active trial runs false rev
    else if valid (1 - active) then Pick.mk (some (1 - active)) (1 - active) trial runs false rev
    else Pick.mk none active trial runs false rev
  if trial = 0 then last 0 runs false
  else if runs = 0 then
    if valid (trial - 1) then Pick.mk (some (trial - 1)) active trial 1 true false else last trial 1 false
  else last 0 0 true

/-- Reason when no slot of a kind is valid (Table TRU-7). Where only one slot fails on its SVN alone, 0x01 is taken. -/
def noImage (h : Hub) (kind : Nat) : Nat := if imgBelow h kind 0 && imgBelow h kind 1 then 2 else 1

/-! ### The boot ledger (R406 to R411) -/

/-- Units of a ledger record. -/
def LdgRec.units (r : LdgRec) : Nat := if r.checkpoint then 5 else 1

/-- EXPORTED_TO (R409). -/
def exportedTo (h : Hub) : Nat := (zhItem h 3 0).getD 0

/-- The record is not exported. -/
def notExported (h : Hub) (r : LdgRec) : Bool := !r.torn && exportedTo h < r.lseq

/-- The boot records. -/
def bootRecs (h : Hub) : List LdgRec := h.keep.ledger.filter (fun r => !r.torn && !r.checkpoint)

/-- The checkpoints. -/
def checkRecs (h : Hub) : List LdgRec := h.keep.ledger.filter (fun r => !r.torn && r.checkpoint)

/-- The record of highest LSEQ. -/
def topRec : List LdgRec → Option LdgRec
  | [] => none
  | r :: t => match topRec t with
    | some x => if r.lseq < x.lseq then some x else some r
    | none => some r

/-- LSEQ of the head, 0 for none (R406). -/
def headLseq (h : Hub) : Nat := match topRec (bootRecs h) with
  | some r => r.lseq
  | none => 0

/-- Unexported units. -/
def unexported (h : Hub) : Nat := (h.keep.ledger.filter (notExported h)).foldl (fun n r => n + r.units) 0

/-- Where a record of u units goes (R406). -/
def ldgPlace (pos u : Nat) : Nat := if 4096 < pos + u then 0 else pos

/-- The sector that follows the last unit of a record at a place (R408). -/
def ldgNext (pos u : Nat) : Nat := ((ldgPlace pos u + u - 1) / 64 + 1) % 64

/-- A record lies in a sector. -/
def inSector (s : Nat) (r : LdgRec) : Bool := r.unit / 64 == s || (r.unit + r.units - 1) / 64 == s

/-- The erase of R408 for a record of u units at a place would erase an unexported record. -/
def ldgOverwrites (h : Hub) (pos u : Nat) : Bool :=
  h.keep.ledger.any (fun r => inSector (ldgNext pos u) r && notExported h r)

/-- The LDG page shows the ledger (Table TRU-11). -/
def ldgShow (h : Hub) : Hub :=
  let u := unexported h
  let near := flag h pLDG Fld.LDG.STAT_NEAR_FULL
  let h := setFld64 h pLDG Fld.LDG.LSEQ_LO Fld.LDG.LSEQ_HI (headLseq h)
  let h := setFld64 h pLDG Fld.LDG.EXPORTED_LO Fld.LDG.EXPORTED_HI (exportedTo h)
  let h := setFld64 h pLDG Fld.LDG.CP_LSEQ_LO Fld.LDG.CP_LSEQ_HI (match topRec (checkRecs h) with
    | some r => r.lseq
    | none => 0)
  let h := setFld (setFld h pLDG Fld.LDG.UNEXPORTED u) pLDG Fld.LDG.STAT_NEAR_FULL (b2n (decide (3584 < u)))
  let hd := match topRec (bootRecs h) with
    | some r => sha384 r.bytes
    | none => List.replicate 48 0
  let h := (List.range 12).foldl (fun h i => setFld h pLDG (Fld.LDG.HEAD.nth i) (ofLeBytes ((hd.drop (4 * i)).take 4))) h
  if 3584 < u && !near then setIstat h pLDG 1 else h

/-- A ledger record is erased room for and committed (R406, R408, R410). -/
def ldgPut (h : Hub) (r : LdgRec) : Hub :=
  let u := r.units
  let p := ldgPlace h.keep.ldgPos u
  let s := ldgNext h.keep.ldgPos u
  let lost := (h.keep.ledger.filter (fun r => inSector s r && notExported h r)).length
  let h := if lost = 0 then h else setIstat (bumpBy h pLDG Fld.LDG.OVERWRITE_CNT lost) pLDG 2
  let keep := h.keep.ledger.filter (fun r => !inSector s r)
  let h := { h with keep := { h.keep with
    blank := false, ledger := keep ++ [{ r with unit := p }], ldgPos := (p + u) % 4096 } }
  setIstat h pLDG 0

/-- Draw a signature of n bytes. -/
def drawSig (h : Hub) (n : Nat) : List Nat × Hub :=
  (leBytes n (Config.signature h.free), { h with free := h.free + 1 })

/-- SHA-384 of the alias public keys of the Zhozha image that runs. -/
def aliasBytes (h : Hub) : List Nat :=
  match h.trust.zhImg with
  | some i => leBytes 48 (Config.aliasHash i.digest i.svn).toNat
  | none => List.replicate 48 0

/-- FLAGS of a boot record that Zhozha writes (Table TRU-8). -/
def bootFlags (h : Hub) (torn lost : Bool) : Nat :=
  b2n torn + 2 * b2n (keepSealed h) + 4 * b2n lost + 8 * fld h pLDG Fld.LDG.STAT_STRICT +
    16 * fld h pLDG Fld.LDG.BOOT_ZH_TRIAL + 32 * fld h pLDG Fld.LDG.BOOT_CK_TRIAL + 64 * b2n h.trust.reverted +
    128 * b2n (decide ((healthyDevs h).length < 2))

/-- Digest of something that may be absent. -/
def digestOf {α : Type} (x : Option α) (f : α → Nat) : List Nat :=
  match x with
  | some v => leBytes 48 (f v)
  | none => List.replicate 48 0

/-- A serial of something that may be absent. -/
def serialOf {α : Type} (x : Option α) (f : α → Nat) : List Nat :=
  match x with
  | some v => leBytes 4 (f v)
  | none => [0, 0, 0, 0]

/-- Bytes 0 to 919 of a boot record (Table TRU-8). SIGNER 1 is the ROM's: what only Zhozha can fill is zero (R407). -/
def bootBody (h : Hub) (signer lseq outcome flags : Nat) : List Nat :=
  let z := signer == 0
  let only := fun (bs : List Nat) => if z then bs else List.replicate bs.length 0
  let prev := match topRec (bootRecs h) with
    | some r => sha384 r.bytes
    | none => List.replicate 48 0
  [1, 1, 1, signer] ++ only (leBytes 4 flags) ++ leBytes 8 lseq ++ prev ++
    leBytes 8 h.fuses.serial ++ leBytes 4 0x4B484B01 ++
    [h.fuses.grade % 4, fld h pCLK Fld.CLK.PREV_RESET_CAUSE, fld h pCLK Fld.CLK.PREV_RESET_RAIL, outcome % 256] ++
    only ([fld h pLDG Fld.LDG.BOOT_TRIES, fld h pLDG Fld.LDG.BOOT_LIMIT, fld h pLDG Fld.LDG.BOOT_ZH_SLOT,
      fld h pLDG Fld.LDG.BOOT_CK_SLOT] ++ leBytes 4 (fld h pLDG Fld.LDG.ZH_SVN) ++ leBytes 4 (fld h pLDG Fld.LDG.CK_SVN)) ++
    [h.fuses.zhSvn % 256, 0, 0, 0] ++
    only (serialOf h.trust.policy (·.serial) ++ serialOf h.tulle.profile (·.serial) ++ leBytes 2 (fld h pPRK Fld.PRK.BGEN)) ++
    List.replicate 6 0 ++
    only (digestOf h.trust.zhImg (·.digest) ++ digestOf h.trust.ckImg (·.digest) ++ digestOf h.trust.policy (·.digest) ++
      digestOf h.tulle.profile (fun _ => h.tulle.digest)) ++
    leBytes 48 Config.romDigest.toNat ++ only (aliasBytes h) ++ leBytes 8 h.htime ++ List.replicate 512 0

/-- A boot record of a start (R407). -/
def bootRecord (h : Hub) (signer outcome flags : Nat) : LdgRec × Hub :=
  let lseq := headLseq h + 1
  let body := bootBody h signer lseq outcome flags
  let (sig, h) := drawSig h 96
  let bs := body ++ sig
  ({ lseq := lseq, checkpoint := false, torn := false, unit := 0, bytes := bs ++ leBytes 4 (crc32c bs) ++ [0, 0, 0, 0] }, h)

/-- A checkpoint over a boot record (Table TRU-9, R427). -/
def checkRecord (h : Hub) (r : LdgRec) : LdgRec × Hub :=
  let prev := match topRec (checkRecs h) with
    | some c => sha384 c.bytes
    | none => List.replicate 48 0
  let head := [2, 1, 5, 0, 0, 0, 0, 0] ++ leBytes 8 r.lseq ++ sha384 r.bytes ++ prev ++ aliasBytes h ++ leBytes 8 h.htime
  let (sig, h) := drawSig h 4627
  let bs := head ++ sig ++ List.replicate 321 0
  ({ lseq := r.lseq, checkpoint := true, torn := false, unit := 0, bytes := bs ++ leBytes 4 (crc32c bs) }, h)

/-- A checkpoint falls due with a record (R407). -/
def checkDue (r : LdgRec) : Bool := r.lseq % 32 == 0

/-- A boot record that Zhozha writes is committed, and its checkpoint after it. -/
def ldgCommit (h : Hub) (r : LdgRec) : Hub :=
  let h := ldgPut h r
  let h := if checkDue r then let (c, h) := checkRecord h r; ldgPut h c else h
  ldgShow h

/-- The erases that a boot record, and the checkpoint due with it, need would erase an unexported record. -/
def ldgBlocked (h : Hub) (r : LdgRec) : Bool :=
  let p := ldgPlace h.keep.ldgPos 1
  ldgOverwrites h h.keep.ldgPos 1 || (checkDue r && ldgOverwrites h ((p + 1) % 4096) 5)

/-- A torn record found at the write position keeps its units (R427). -/
def tornFound (h : Hub) : Hub :=
  let p := ldgPlace h.keep.ldgPos 1
  { h with keep := { h.keep with
    ledger := h.keep.ledger ++ [{ lseq := 0, checkpoint := false, torn := true, unit := p, bytes := [] }],
    ldgPos := (p + 1) % 4096 } }

/-- Zhozha writes the boot record of a start with an outcome; the answer is the outcome in force, 0x0A where a strict
ledger holds the record back (R407, R410). -/
def zhRecord (h : Hub) (torn : Bool) (outcome : Nat) : Hub × Nat :=
  let h := if torn then tornFound h else h
  let strict := flag h pLDG Fld.LDG.STAT_STRICT
  let lseq := headLseq h + 1
  let lost := ldgOverwrites h h.keep.ldgPos 1
  let h := { h with scb := { h.scb with bootLseq := lseq } }
  let (r, h1) := bootRecord h 0 outcome (bootFlags h torn lost)
  if strict && ldgBlocked h r then
    let (r, h) := bootRecord h 0 0x0A (bootFlags h torn false)
    (setFld (ldgShow { h with trust := { h.trust with held := some r } }) pLDG Fld.LDG.STAT_HELD 1, 0x0A)
  else (ldgCommit h1 r, outcome)

/-! ### BENCH from a start (Table TRU-7) -/

/-- BENCH is entered from the start; R452 judges the PFAIL channels from now on (R453). -/
def benchEnter (h : Hub) (tier : Bool) (reason : Nat) : Hub :=
  let h := modMode h (fun m => { m with
    tier := tier, reason := reason, pfAtA := if h.pins.pfailA then h.htime else m.pfAtA,
    pfAtB := if h.pins.pfailB then h.htime else m.pfAtB })
  let h := setMode { h with boot := { h.boot with point := .running, zin := none } } .bench
  baysByMode (if tier then setFld h pLDG Fld.LDG.BOOT_REASON reason else h)

/-- The ROM ends a start in BENCH and writes its record, where a device can take it (R407, R471). -/
def romBench (h : Hub) (reason : Nat) (record : Bool) : Hub :=
  let h := if record && !(healthyDevs h).isEmpty then
      let (r, h) := bootRecord h 1 reason 0
      ldgPut h r
    else h
  benchEnter h false reason

/-! ### The boot sequencer (R75, Table PKG-6) -/

/-- REFCLK_COUNT_DONE (R75): `count` REFCLK edges in place of 100; within 5 % fuse sensing starts, unless
the start is held: the count that runs completes, and no further step begins (R60). -/
def execRefclkCountDone (count : Nat) (s : State) : Res :=
  .next (s.onTulle fun h =>
    if h.boot.seq = .counting && 95 ≤ count && count ≤ 105 then seqResume (setSeq h .counted) else h)

/-- FUSE_SENSING_DONE (R388). The PLL is enabled whatever the checks find, since the ROM that holds the hub in BENCH runs on
HCLK (DEDUCED, log entry 41). GLB shows the fuses, and WARN_C takes the limit of the grade (R455). -/
def execFuseSensingDone (eccOk : Bool) (s : State) : Res :=
  .next (s.onTulle fun h =>
    if h.boot.seq = .sensing then
      let h := setFld64 h pGLB Fld.GLB.SERIAL_LO Fld.GLB.SERIAL_HI h.fuses.serial
      let h := setFld h pGLB Fld.GLB.INFO_GRADE h.fuses.grade
      let h := if h.fuses.grade = 1 then setFld h pPWR Fld.PWR.THERM_WARN_C 105 else h
      seqResume { h with boot := { h.boot with seq := .sensed, eccOk := eccOk } }
    else h)

/-- PLL_LOCK (R74): `rc` REFCLK periods after it was enabled. -/
def execPllLock (rc : Nat) (s : State) : Res :=
  .next (s.onTulle fun h =>
    if h.boot.seq = .pll then
      setSeq (setFld (setFld h pCLK Fld.CLK.STAT_LOCKED 1) pCLK Fld.CLK.LOCK_RC rc) .locked
    else h)

/-- HCLK_SWITCH (R75, R339). The sequencer counts REFCLK, so a clock that is lost keeps it from the switch (DEDUCED, log
entry 41). -/
def execHclkSwitch (s : State) : Res :=
  .next (s.onTulle fun h =>
    if h.boot.seq = .locked && mayStep h && h.pins.refclk then
      { h with htime := 0, boot := { h.boot with seq := .done, hclk := true, point := .rom } }
    else h)

/-! ### The ROM (R395 step 1) -/

/-- The ROM chooses a Zhozha slot, or ends the start in BENCH. -/
def romStart (h : Hub) : Hub :=
  if !h.boot.eccOk || 2 ≤ h.fuses.grade then romBench h 1 true
  else if (activeDevs h).isEmpty then romBench h 4 false
  else
    let b := bootSel h
    let p := pickSlot (imgValid h 0) b.zhActive b.zhTrial b.zhRuns
    let h := if (zhItem h 1 0).isSome then putSel h { b with zhActive := p.active, zhTrial := p.trial, zhRuns := p.runs } else h
    match p.slot with
    | none => romBench h (noImage h 0) true
    | some k =>
      let h := setFld (setFld h pLDG Fld.LDG.BOOT_ZH_SLOT k) pLDG Fld.LDG.BOOT_ZH_TRIAL (b2n p.onTrial)
      let i := imgAt h 0 k
      let h := setFld (setFld h pLDG Fld.LDG.FLOOR h.fuses.zhSvn) pLDG Fld.LDG.ZH_SVN (match i with
        | some i => i.svn
        | none => 0)
      { h with trust := { h.trust with zhImg := i, reverted := p.reverted }, boot := { h.boot with point := .zhozha } }

/-- ROM_START (R25, R388, R392, R395). -/
def execRomStart (s : State) : Res :=
  .next (s.onTulle fun h => if h.boot.point = .rom && mayStep h then romStart h else h)

/-! ### The owner policy and the profile (R399, R112, R113) -/

/-- An owner root key in force: fused and not revoked. -/
def rootInForce (h : Hub) (key : Nat) : Bool :=
  (List.range 4).any (fun i => h.fuses.owners.getD i none == some key && !bit h.fuses.revoke i)

/-- No owner slot is fused. -/
def unowned (h : Hub) : Bool := h.fuses.owners.all (·.isNone)

/-- A policy slot is valid (R399). -/
def policyValid (h : Hub) (p : Policy) : Bool :=
  p.stored && p.ecdsaOk && p.mldsaOk && rootInForce h p.rootHash && mcOf h 1 ≤ p.serial

/-- The valid entry of highest serial. -/
def topBy {α : Type} (ok : α → Bool) (serial : α → Nat) : List α → Option α
  | [] => none
  | x :: t => match topBy ok serial t with
    | some y => if ok x && serial y < serial x then some x else some y
    | none => if ok x then some x else none

/-- The policy that governs this start. -/
def policyPick (h : Hub) : Option Policy := topBy (policyValid h) (·.serial) (h.keep.policies.map (·.2))

/-- The granules of a range. -/
def rangeSize (r : MapRange) : Nat := r.last + 1 - r.first

/-- Two ranges overlap in granules, or in the local runs of one home. -/
def rangesClash (a b : MapRange) : Bool :=
  (a.first ≤ b.last && b.first ≤ a.last) ||
    (a.home == b.home && a.base < b.base + rangeSize b && b.base < a.base + rangeSize a)

/-- No two members of a list are related. -/
def pairwiseNot {α : Type} (r : α → α → Bool) : List α → Bool
  | [] => true
  | x :: t => t.all (fun y => !r x y) && pairwiseNot r t

/-- A profile body passes the checks (R113). -/
def profileOk (h : Hub) (p : Profile) : Bool :=
  let ns := p.members.map (·.1)
  pairwiseNot (· == ·) ns && pairwiseNot (· == ·) (p.members.map (·.2)) && (p.members.map (·.2)).contains h.fuses.serial &&
    decide (p.svnFloor ≤ fld h pLDG Fld.LDG.ZH_SVN) && p.roots.all (fun n => n == 0xFF || ns.contains n) &&
    decide (p.levelMin ≤ p.levelMax) && decide (p.levelMin ≤ 1) && decide (1 ≤ p.levelMax) &&
    p.ranges.all (fun r => decide (r.first ≤ r.last)) && pairwiseNot rangesClash p.ranges &&
    p.ranges.all (fun r => ns.contains r.home && r.atomic != 3 && decide (r.base + rangeSize r ≤ 8192)) &&
    ns.all (fun n => decide (((p.ranges.filter (fun r => r.home == n)).foldl (fun k r => k + rangeSize r) 0) ≤ 8192)) &&
    decide (1 ≤ p.members.length) && decide (p.members.length ≤ 128) && p.roots.all (fun n => n ≤ 127 || n == 0xFF) &&
    decide (1 ≤ p.levelMin) && decide (p.levelMax ≤ 15) && decide (1 ≤ p.grace) && decide (p.grace ≤ 60000) &&
    decide (p.ranges.length ≤ 4096) && ns.all (fun n => decide (n ≤ 127)) && p.rsvdZero && p.lenOk

/-- The key pair is that of the policy in force (Table TRU-6). -/
def opsKey (h : Hub) (key : Nat) : Bool :=
  match h.trust.policy with
  | some p => p.opsKey == key
  | none => false

/-- Both signatures of a profile verify under the owner's key that the policy names (R112, Table TRU-6). -/
def profileSigned (h : Hub) (p : Profile) : Bool := p.ecdsaOk && p.mldsaOk && opsKey h p.key

/-- The profile that governs this start, before the checks of its body (R112, MC2 of Table TRU-7a). -/
def profilePick (h : Hub) : Option Profile :=
  topBy (fun p => p.stored && profileSigned h p && mcOf h 2 ≤ p.serial) (·.serial) (h.keep.profiles.map (·.2))

/-- A member's 16 bytes of a profile body. -/
def memberBytes (m : Nat × Nat) : List Nat := [m.1 % 128] ++ List.replicate 7 0 ++ leBytes 8 m.2

/-- A range's 8 bytes of a profile body. -/
def rangeBytes (r : MapRange) : List Nat :=
  leBytes 8 (r.first % 2 ^ 16 + 2 ^ 16 * (r.last % 2 ^ 16) + 2 ^ 32 * (r.home % 128) + 2 ^ 39 * b2n r.memo +
    2 ^ 40 * (r.atomic % 4) + 2 ^ 42 * (r.base % 8192))

/-- The body of a profile (Table TUL-1). -/
def profileBytes (p : Profile) : List Nat :=
  leBytes 8 p.fabricId ++ leBytes 4 p.serial ++ [p.members.length % 256] ++ p.members.flatMap memberBytes ++
    p.roots.map (· % 256) ++ [p.levelMin % 256, p.levelMax % 256] ++ leBytes 4 p.svnFloor ++ leBytes 4 p.grace ++
    leBytes 2 p.ranges.length ++ p.ranges.flatMap rangeBytes

/-- The profile digest (R112), as a number whose byte 0 is the lowest. -/
def profileDigest (p : Profile) : Nat := ofLeBytes (sha384 (profileBytes p))

/-- The profile's map (Table TUL-1). -/
def profileMap (p : Profile) : List (Nat × HEntry) :=
  p.ranges.foldl (fun m r => (List.range (rangeSize r)).foldl (fun m i =>
    mapPut m (r.first + i) { home := r.home, valid := true, memo := r.memo, atomic := r.atomic, frozen := false, loc := r.base + i }) m) []

/-! ### Zhozha (R395 steps 2 to 6) -/

/-- Zhozha ends the start in BENCH, with its record (R407). -/
def zhBench (h : Hub) (torn : Bool) (reason : Nat) : Hub :=
  let (h, r) := zhRecord h torn reason
  benchEnter h true r

/-- A blank store on an unowned part is initialised (R470). -/
def initStore (h : Hub) : Hub :=
  let b : BootSel := { zhActive := fld h pLDG Fld.LDG.BOOT_ZH_SLOT, zhTrial := 0, zhRuns := 0, ckActive := 0, ckTrial := 0,
                       ckRuns := 0, tries := 0, wdog := false }
  zhPut h ((List.range 8).map (fun n => (2, n, 0)) ++ [(1, 0, packSel b), (3, 0, 0), (4, 0, 0)])

/-- A record that a start needs is missing (R400). -/
def recordsMissing (h : Hub) : Bool :=
  (List.range 8).any (fun n => (zhItem h 2 n).isNone) || (zhItem h 1 0).isNone || (zhItem h 4 0).isNone

/-- The counting reason of Table TRU-7, LAST_FAIL being WATCHDOG or not. -/
def countReason (h : Hub) (wdog : Bool) : Nat :=
  let c := fld h pCLK Fld.CLK.PREV_RESET_CAUSE
  if c = 3 then 6 else if c = 4 then 7 else if wdog then 3 else 8

/-- Capacity that each of w media ways must provide for P local granules: their data and an eighth of it for the directory
(R14, R202, R203). -/
def wayNeeds (p w : Nat) : Nat := (p * 2 ^ 30 * 9 / 8 + w - 1) / w

/-- The checks of R203: every media way is up and provides that capacity. -/
def mediaOk (p : Policy) (z : ZhIn) : Bool :=
  (List.range (2 ^ p.ways)).all (fun w => match z.media.getD w none with
    | some c => wayNeeds p.prov (2 ^ p.ways) ≤ c
    | none => false)

/-- The class-Z fields that the policy sets; H and D bays begin to train (R27, R201 to R203). -/
def loadClassZ (h : Hub) (p : Policy) (mediaOk : Bool) : Hub :=
  let h := (List.range 12).foldl (fun h q => setFld h (pBAY (4 * q)) Fld.BAY.ROLECFG_QBOND (p.qbonds.getD q 0)) h
  let h := (List.range 48).foldl (fun h b => setFld h (pBAY b) Fld.BAY.ROLECFG_ROLE (p.roles.getD b 0)) h
  let h := setFld (setFld h pPRK Fld.PRK.MEDIA_WAYS p.ways) pPRK Fld.PRK.MEDIA_GRAN p.gran
  let h := (List.range 16).foldl (fun h w => setFld h pPRK (Fld.PRK.MEDIA_WAY.nth w) (p.wayBays.getD w 0)) h
  let h := setFld h pPRK Fld.PRK.LOCAL_PROV (if mediaOk then p.prov else 0)
  (leadsOf h 1 ++ leadsOf h 2).foldl startTraining h

/-- The owner counts are applied, after an unsealed boot with marks (R269). -/
def applyOwners (h : Hub) : Hub :=
  if keepSealed h then { h with owners := [], boot := { h.boot with vauxLost := false } }
  else
    let m := storedMap h
    let mine := m.filter (fun e => e.2.valid && e.2.home == ownNode h)
    let lost := if h.boot.vauxLost then mine else mine.filter (fun e => mapGet h.owners e.2.loc 0 != 0)
    let h := lost.foldl (fun h e => markGranule h e.1 none) h
    setIstat { h with owners := [], boot := { h.boot with vauxLost := false } } pPSN 3

/-- The boot generation advances; from 4,095 to 1 a format is due (R206, R207). -/
def advanceBgen (h : Hub) (mediaOk : Bool) : Hub :=
  let old := (zhItem h 4 0).getD 0
  if old = 4095 then (if mediaOk then formatStart h else h)
  else setFld (zhPut h [(4, 0, old + 1)]) pPRK Fld.PRK.BGEN (old + 1)

/-- Ledger entries, marks and map that the keep store holds (R264, R435, R436). -/
def loadKeep (h : Hub) : Hub :=
  let es := keepPsn h
  let psn : Psn := { h.psn with entries := (List.range es.length).zip es, marks := keepMarks h }
  { h with psn := psn, tulle := { h.tulle with stored := keepMap h } }

/-- The map in force from the start: the stored one where it belongs to the profile, else the profile's (R126). -/
def startMap (h : Hub) (p : Profile) : Hub :=
  match h.tulle.stored with
  | some (ep, ser, m) =>
    if ser = p.serial then modTulle h (fun t => { t with homeMap := m, epoch := ep, stage := m })
    else modTulle h (fun t => { t with homeMap := profileMap p, stage := profileMap p })
  | none => modTulle h (fun t => { t with homeMap := profileMap p, stage := profileMap p })

/-- The profile is accepted (R113). -/
def takeProfile (h : Hub) (p : Profile) : Hub :=
  let n := match p.members.find? (fun m => m.2 == h.fuses.serial) with
    | some m => m.1
    | none => 0
  let h := setFld (setFld h pTUL Fld.TUL.NODE_ID n) pTUL Fld.TUL.NODE_VALID 1
  let d := profileDigest p
  let h := setFld (setFld h pTUL Fld.TUL.DIGEST_LO (bits d 0 32)) pTUL Fld.TUL.DIGEST_HI (bits d 32 32)
  startMap (modTulle h (fun t => { t with profile := some p, digest := d })) p

/-- The Chakacon slot is chosen (R392). -/
def pickChakacon (h : Hub) : Hub × Bool :=
  let b := bootSel h
  let p := pickSlot (imgValid h 1) b.ckActive b.ckTrial b.ckRuns
  let h := putSel h { b with ckActive := p.active, ckTrial := p.trial, ckRuns := p.runs }
  match p.slot with
  | none => (h, false)
  | some k =>
    let i := imgAt h 1 k
    let h := setFld (setFld h pLDG Fld.LDG.BOOT_CK_SLOT k) pLDG Fld.LDG.BOOT_CK_TRIAL (b2n p.onTrial)
    let h := setFld h pLDG Fld.LDG.CK_SVN (match i with
      | some i => i.svn
      | none => 0)
    ({ h with trust := { h.trust with ckImg := i, reverted := h.trust.reverted || p.reverted } }, true)

/-- Steps 3 to 6 once the core domain runs, with the policy in force. -/
def zhRun (h : Hub) (z : ZhIn) : Hub :=
  match h.trust.policy with
  | none => h
  | some p =>
    let h := loadKeep (loadClassZ h p (mediaOk p z))
    match profilePick h with
    | none => zhBench h z.torn 5
    | some f =>
      if !profileOk h f then zhBench h z.torn 5
      else
        let h := takeProfile h f
        let (h, ok) := pickChakacon h
        if !ok then zhBench h z.torn (noImage h 1)
        else
          let h := advanceBgen (applyOwners h) (mediaOk p z)
          let (h, r) := zhRecord h z.torn (if h.pins.benchReq then 9 else 0)
          if r != 0 then benchEnter h true r
          else
            { h with scb := { h.scb with boot := 1 }, boot := { h.boot with point := .ready, zin := none } }

/-- Step 2, the policy and the count of starts (R400, R402, R399, R470). -/
def zhStart (h : Hub) (z : ZhIn) : Hub :=
  let h := keepStart h
  let h := if h.keep.blank && unowned h && z.writable then initStore h else h
  if !z.writable then benchEnter h true 4
  else if recordsMissing h then zhBench h z.torn 4
  else
    let b := bootSel h
    let t := b.tries
    let h := putSel h { b with tries := min (t + 1) 15, wdog := false }
    let h := setFld h pLDG Fld.LDG.BOOT_TRIES (min (t + 1) 15)
    match policyPick h with
    | none => zhBench h z.torn 5
    | some p =>
      let h := { h with trust := { h.trust with policy := some p } }
      let h := setFld (setFld h pLDG Fld.LDG.BOOT_LIMIT p.bootLimit) pLDG Fld.LDG.STAT_STRICT (b2n p.strict)
      if p.bootLimit ≤ t then zhBench h z.torn (countReason h b.wdog)
      else if h.boot.coreOn then zhRun h z
      else { h with boot := { h.boot with point := .waitCore, zin := some z } }

/-- ZHOZHA_START (R395, R402, R468). -/
def execZhozhaStart (z : ZhIn) (s : State) : Res :=
  .next (s.onTulle fun h => if h.boot.point = .zhozha && mayStep h then zhStart h z else h)

/-- Zhozha, which waited for the core domain, goes on (R468). -/
def zhResume (h : Hub) : Hub :=
  match h.boot.zin with
  | some z => if h.boot.point = .waitCore && h.boot.coreOn && mayStep h then zhRun h z else h
  | none => h

/-- CORE_DOMAIN_RELEASE (R68, R364): the five main rails have stayed above warning for 20,000 hc. -/
def execCoreDomainRelease (s : State) : Res :=
  .next (s.onTulle fun h =>
    if h.boot.hclk && !h.boot.coreOn && h.pins.railWarn % 32 = 0 then
      zhResume (picStart { h with boot := { h.boot with coreOn := true } })
    else h)

/-- The first n body bytes of an image from an offset on. -/
def bodyBytes (digest off n : Nat) : List Nat := (List.range n).map (fun i => (Config.imageByte digest (off + i)).toNat)

/-- The resident part of Chakacon lies at offset 0 of management SRAM (R394). -/
def loadResident (h : Hub) : Hub :=
  match h.trust.ckImg with
  | some i => { h with sram := h.sram ++ [(0, bodyBytes i.digest 0 i.loadLen)] }
  | none => h

/-- The management cores are released: the watchdog starts, the hub is in ASSEMBLE and present at itself, a change of its
present set (R118, R123; DEDUCED, log entry 45), and R452 judges the PFAIL channels from
now on (R395, R403, R447, R453). -/
def releaseCores (h : Hub) : Hub :=
  let m : ModeSt := { h.mode with
    pfAtA := if h.pins.pfailA then h.htime else h.mode.pfAtA
    pfAtB := if h.pins.pfailB then h.htime else h.mode.pfAtB }
  let h := { h with
    mode := m, boot := { h.boot with point := .running }, trust := { h.trust with wdogAt := some h.htime, wdogHalf := false } }
  let h := baysByMode (setFld (loadResident h) pLDG Fld.LDG.BOOT_REASON 0)
  braceStart (noteChange h) (braceTrigger h)

/-- MGMT_CORE_RELEASE (R394, R395, R467). -/
def execMgmtCoreRelease (s : State) : Res :=
  .next (s.onTulle fun h =>
    let h := zhResume h
    if h.boot.point = .ready && h.boot.coreOn && mayStep h then releaseCores h else h)

/-- FORMAT_DONE (R207): after the format of a start, generation 1 is committed and written. -/
def execFormatDone (s : State) : Res :=
  .next (s.onTulle fun h =>
    if !flag h pPRK Fld.PRK.STAT_FORMAT_BUSY then h
    else
      let h := formatEnd h
      if bgen h = 0 && zhItem h 4 0 = some 4095 then applyLedger (setFld (zhPut h [(4, 0, 1)]) pPRK Fld.PRK.BGEN 1)
      else applyLedger h)

end Sys2Proof.Machine
end

