-- ==== Sys2Proof/Machine/Trust.lean ====
section
/-! DEFINITION. Zhozha's services of the TRU mailbox (Table TRU-10, carrier M), the watchdog (R403) and the health window
(R404). -/

namespace Sys2Proof.Machine

/-! ### A call of the mailbox (R412, R414) -/

/-- A call completes with a status and response bytes (R414, R416). -/
def complete (h : Hub) (status : Nat) (rsp : List Nat) : Hub :=
  let h := (List.range ((rsp.length + 3) / 4)).foldl (fun h i => setFld h pTRU (Fld.TRU.MB_RSP.nth i) (word4 rsp i)) h
  let h := setFld (setFld h pTRU Fld.TRU.MB_STAT_STATUS status) pTRU Fld.TRU.MB_STAT_RSP_LEN rsp.length
  setIstat (setFld h pTRU Fld.TRU.MB_STAT_BUSY 0) pTRU 0

/-- Zhozha serves: the start is over, and the hub is not in the ROM tier of BENCH. -/
def zhServes (h : Hub) : Bool := running h && (h.mode.mode != .bench || h.mode.tier)

/-- The call that runs has a code. -/
def callRuns (h : Hub) (code : Nat) : Bool := zhServes h && flag h pTRU Fld.TRU.MB_STAT_BUSY && h.trust.call == code

/-- What a service leaves: the hub, the status, the response. -/
abbrev Svc := Hub × Nat × List Nat

/-- A service of the mailbox: the call with its code completes, with REFUSED in a mode that Table TRU-10 does not allow. -/
def service (h : Hub) (code : Nat) (allowed : Bool) (act : Hub → Svc) : Hub :=
  if !callRuns h code then h
  else if !allowed then complete h 6 []
  else
    let (h, st, rsp) := act h
    complete h st rsp

/-- "All but SEAL". -/
def notSeal (h : Hub) : Bool := h.mode.mode != .seal

/-- "SERVE outside BRACE, DRAIN, MAINTAIN". -/
def stageMode (h : Hub) : Bool :=
  (h.mode.mode == .serve && !h.mode.brace) || h.mode.mode == .drain || h.mode.mode == .maintain

/-- "SERVE, DRAIN". -/
def openMode (h : Hub) : Bool := h.mode.mode == .serve || h.mode.mode == .drain

/-- Zhozha can write the keep store (R434). -/
def storeOk (h : Hub) : Bool := !(healthyDevs h).isEmpty

/-- MB_NOP (R412). -/
def execMbNop (s : State) : Res := .next (s.onTulle fun h => service h 1 (notSeal h) (fun h => (h, 0, [])))

/-! ### Health and the watchdog (R403, R404) -/

/-- HEALTH_DECLARE (R404). A declaration made while one runs leaves it running. -/
def healthDeclare (h : Hub) : Hub :=
  if flag h pLDG Fld.LDG.BOOT_HEALTH then h
  else setFld { h with trust := { h.trust with healthAt := h.htime } } pLDG Fld.LDG.BOOT_HEALTH 1

/-- HEALTH_DECLARE (R404, R412). -/
def execHealthDeclare (s : State) : Res :=
  .next (s.onTulle fun h => service h 2 (h.mode.mode == .serve) (fun h => (healthDeclare h, 0, [])))

/-- The versions that run, as floors: the counters that rise to them (R401). -/
def floorItems (h : Hub) : List (Nat × Nat × Nat) :=
  let ck := match h.trust.ckImg with
    | some i => i.svn
    | none => 0
  let po := match h.trust.policy with
    | some p => p.serial
    | none => 0
  let pr := match h.tulle.profile with
    | some p => p.serial
    | none => 0
  ([(2, 0, ck), (2, 1, po), (2, 2, pr)] : List (Nat × Nat × Nat)).filter (fun i => mcOf h i.2.1 < i.2.2)

/-- Advance the floors to the running versions (R389, R401). -/
def svnCommit (h : Hub) : Hub :=
  let zh := match h.trust.zhImg with
    | some i => i.svn
    | none => 0
  let h := { h with fuses := { h.fuses with zhSvn := max h.fuses.zhSvn (min zh 64) } }
  setFld (zhPut h (floorItems h)) pLDG Fld.LDG.FLOOR h.fuses.zhSvn

/-- BOOT_TRIES is cleared and the slots on trial are kept (R392, R401, R404). -/
def healthClear (h : Hub) : Hub :=
  let b := bootSel h
  let b : BootSel := { b with
    tries := 0
    zhActive := if b.zhTrial = 0 then b.zhActive else b.zhTrial - 1
    zhTrial := 0
    zhRuns := 0
    ckActive := if b.ckTrial = 0 then b.ckActive else b.ckTrial - 1
    ckTrial := 0
    ckRuns := 0 }
  let h := setFld (putSel h b) pLDG Fld.LDG.BOOT_HEALTH 0
  match h.trust.policy with
  | some p => if p.autoSvn then svnCommit h else h
  | none => h

/-- HEALTH_TIMER (R404): 60 s in SERVE or DRAIN after the declaration. -/
def execHealthTimer (s : State) : Res :=
  .next (s.onTulle fun h =>
    if zhServes h && flag h pLDG Fld.LDG.BOOT_HEALTH && openMode h then
      healthClear (advanceTo h (h.trust.healthAt + 120000000000))
    else h)

/-- The watchdog restarts, where it runs. -/
def wdogKick (h : Hub) : Hub :=
  if h.trust.wdogAt.isSome then { h with trust := { h.trust with wdogAt := some h.htime, wdogHalf := false } } else h

/-- WDOG_KICK (R403). -/
def execWdogKick (s : State) : Res := .next (s.onTulle fun h => service h 3 (notSeal h) (fun h => (wdogKick h, 0, [])))

/-- The half of WDOG_MS is marked as passed. -/
def halfSeen (h : Hub) : Hub := { h with trust := { h.trust with wdogHalf := true } }

/-- Half of WDOG_MS has passed without a kick (R416). -/
def wdogHalf (h : Hub) : Hub :=
  match h.trust.wdogAt, h.trust.policy with
  | some t, some p =>
    if h.trust.wdogHalf then h
    else
      let h := advanceTo h (t + p.wdogMs * 1000000)
      setIstat (halfSeen h) pTRU 1
  | _, _ => h

/-- WDOG_HALF (R416). -/
def execWdogHalf (s : State) : Res := .next (s.onTulle wdogHalf)

/-- WDOG_MS has passed without a kick: LAST_FAIL is WATCHDOG and the hub resets (R403). -/
def wdogExpire (h : Hub) : Hub :=
  match h.trust.wdogAt, h.trust.policy with
  | some t, some p =>
    let h := advanceTo h (t + p.wdogMs * 2000000)
    hubReset (putSel h { bootSel h with wdog := true }) 5 0 false
  | _, _ => h

/-- WATCHDOG_EXPIRY (R403). -/
def execWatchdogExpiry (s : State) : Res := .next (s.onTulle wdogExpire)

/-- RELAY (R412): the length of the answer is the command's; its bytes are Zhozha's answer to a message that the call does not
describe, and they are free. -/
def execRelay (len : Nat) (s : State) : Res :=
  .next (s.onTulle fun h => service h 4 (notSeal h) (fun h =>
    let (bs, h) := freeBytes h (min len 512)
    (h, 0, bs)))

/-! ### Firmware (R392, R393, R394) -/

/-- The number of an image kind. -/
def kindNum : FwKind → Nat
  | .zhozha => 0
  | .chakacon => 1

/-- The number of a slot. -/
def slotNum : Slot → Nat
  | .a => 0
  | .b => 1

/-- Bytes of a slot of a kind (Table KEP-1). -/
def slotSize (kind : Nat) : Nat := if kind = 0 then 2 ^ 20 else 20 * 2 ^ 20

/-- The slot of a kind that is ACTIVE. -/
def activeSlot (h : Hub) (kind : Nat) : Nat := if kind = 0 then (bootSel h).zhActive else (bootSel h).ckActive

/-- TRIAL of a kind. -/
def trialSlot (h : Hub) (kind : Nat) : Nat := if kind = 0 then (bootSel h).zhTrial else (bootSel h).ckTrial

/-- The slot from which the running image of a kind was launched at this start. -/
def launchedSlot (h : Hub) (kind : Nat) : Option Nat :=
  if kind = 0 then (if h.trust.zhImg.isSome then some (fld h pLDG Fld.LDG.BOOT_ZH_SLOT) else none)
  else if h.trust.ckImg.isSome then some (fld h pLDG Fld.LDG.BOOT_CK_SLOT) else none

/-- Write a slot (R393). What the slot holds then is the command's operand; a sector that fails leaves the slot invalid
(R433). -/
def stageSlot (h : Hub) (kind slot : Nat) (img : Image) : Hub × Nat :=
  if activeSlot h kind = slot || launchedSlot h kind = some slot then (h, 6)
  else if !storeOk h then (h, 5)
  else ({ h with keep := { h.keep with images := mapPut h.keep.images (2 * kind + slot) img } }, if img.stored then 0 else 5)

/-- Validate a slot and name it TRIAL (R393). -/
def activateSlot (h : Hub) (kind slot : Nat) : Hub × Nat :=
  let b := bootSel h
  if activeSlot h kind = slot || trialSlot h kind = slot + 1 then (h, 6)
  else if imgBelow h kind slot then (h, 4)
  else if !imgValid h kind slot then (h, 3)
  else if !storeOk h then (h, 5)
  else if kind = 0 then (putSel h { b with zhTrial := slot + 1, zhRuns := 0 }, 0)
  else (putSel h { b with ckTrial := slot + 1, ckRuns := 0 }, 0)

/-- FW_STAGE (R393, R412, R414, R469): a chunk of `len` bytes of the buffer at an offset of the slot. -/
def execFwStage (k : FwKind) (sl : Slot) (off len : Nat) (img : Image) (s : State) : Res :=
  .next (s.onTulle fun h => byProgrammer h
    (fun e => { e with images := mapPut e.images (2 * kindNum k + slotNum sl) img })
    (fun h => service h 0x10 (stageMode h) (fun h =>
      if slotSize (kindNum k) < off + len || sramSize < fld h pTRU Fld.TRU.MB_BUF_OFF + len then (h, 2, [])
      else
        let (h, st) := stageSlot h (kindNum k) (slotNum sl) img
        (h, st, []))))

/-- FW_ACTIVATE (R390, R393). -/
def execFwActivate (k : FwKind) (sl : Slot) (s : State) : Res :=
  .next (s.onTulle fun h => service h 0x11 (stageMode h) (fun h =>
    let (h, st) := activateSlot h (kindNum k) (slotNum sl)
    (h, st, [])))

/-- The slot of lower serial, an empty one before any other. -/
def lowerSlot {α : Type} (m : List (Nat × α)) (serial : α → Nat) : Nat :=
  match mapGet? m 0, mapGet? m 1 with
  | none, _ => 0
  | some _, none => 1
  | some a, some b => if serial b < serial a then 1 else 0

/-- The serial that a slot's content counts with: none where a failure left the slot invalid (R433). -/
def heldSerial (stored : Bool) (serial : Nat) : Nat := if stored then serial else 0

/-- The serial of a policy slot. -/
def policySerial (p : Policy) : Nat := heldSerial p.stored p.serial

/-- The serial of a profile slot. -/
def profileSerial (p : Profile) : Nat := heldSerial p.stored p.serial

/-- POLICY_INSTALL (R399, R433, Table TRU-10): a serial that does not exceed both slots is refused. -/
def policyInstall (h : Hub) (p : Policy) : Hub × Nat :=
  if !(p.ecdsaOk && p.mldsaOk && rootInForce h p.rootHash) then (h, 3)
  else if h.keep.policies.any (fun e => e.2.stored && p.serial ≤ e.2.serial) then (h, 6)
  else if p.serial < mcOf h 1 then (h, 4)
  else if !storeOk h then (h, 5)
  else ({ h with keep := { h.keep with policies := mapPut h.keep.policies (lowerSlot h.keep.policies policySerial) p } },
    if p.stored then 0 else 5)

/-- PROFILE_INSTALL (R112, R399, Table TRU-10). -/
def profileInstall (h : Hub) (p : Profile) : Hub × Nat :=
  if !profileSigned h p then (h, 3)
  else if h.keep.profiles.any (fun e => e.2.stored && p.serial ≤ e.2.serial) then (h, 6)
  else if p.serial < mcOf h 2 then (h, 4)
  else if !storeOk h then (h, 5)
  else ({ h with keep := { h.keep with profiles := mapPut h.keep.profiles (lowerSlot h.keep.profiles profileSerial) p } },
    if p.stored then 0 else 5)

/-- POLICY_INSTALL (R399, R469). -/
def execPolicyInstall (p : Policy) (s : State) : Res :=
  .next (s.onTulle fun h => byProgrammer h
    (fun e => { e with policies := mapPut e.policies (lowerSlot e.policies policySerial) p })
    (fun h => service h 0x12 (stageMode h) (fun h =>
      let (h, st) := policyInstall h p
      (h, st, []))))

/-- PROFILE_INSTALL (R412, R469). -/
def execProfileInstall (p : Profile) (s : State) : Res :=
  .next (s.onTulle fun h => byProgrammer h
    (fun e => { e with profiles := mapPut e.profiles (lowerSlot e.profiles profileSerial) p })
    (fun h => service h 0x13 (stageMode h) (fun h =>
      let (h, st) := profileInstall h p
      (h, st, []))))

/-- SVN_COMMIT (R401). -/
def execSvnCommit (s : State) : Res :=
  .next (s.onTulle fun h => service h 0x14 (openMode h) (fun h => if storeOk h then (svnCommit h, 0, []) else (h, 5, [])))

/-- Bytes of the overlay chunk of an index of an image, and its offset in the body; none beyond the last (R394). -/
def overlayChunk (i : Image) (n : Nat) : Option (Nat × Nat) :=
  let off := i.loadLen + 65536 * n
  if off < i.length then some (off, min 65536 (i.length - off)) else none

/-- OVERLAY_READ (R394): the chunk index is MB_REQ0. -/
def overlayRead (h : Hub) (digestOk : Bool) : Hub × Nat :=
  match h.trust.ckImg with
  | none => (h, 2)
  | some i =>
    match overlayChunk i (fld h pTRU (Fld.TRU.MB_REQ.nth 0)) with
    | none => (h, 2)
    | some (off, n) =>
      let at_ := fld h pTRU Fld.TRU.MB_BUF_OFF
      if fld h pTRU Fld.TRU.MB_BUF_LEN < n || sramSize < at_ + n then (h, 2)
      else if !digestOk then (h, 5)
      else ({ h with sram := h.sram ++ [(at_, bodyBytes i.digest off n)] }, 0)

/-- OVERLAY_READ (R394). -/
def execOverlayRead (digestOk : Bool) (s : State) : Res :=
  .next (s.onTulle fun h => service h 0x15 (notSeal h) (fun h =>
    let (h, st) := overlayRead h digestOk
    (h, st, [])))

/-! ### Counters and reset -/

/-- MC_READ (R400). -/
def execMcRead (n : Nat) (s : State) : Res :=
  .next (s.onTulle fun h => service h 0x20 (notSeal h) (fun h =>
    if 7 < n then (h, 2, []) else (h, 0, leBytes 4 (mcOf h n))))

/-- MC_INCR (R400): MC3 to MC7; a counter saturates at 0xFFFF_FFFF. -/
def execMcIncr (n : Nat) (s : State) : Res :=
  .next (s.onTulle fun h => service h 0x21 (notSeal h) (fun h =>
    if n < 3 || 7 < n then (h, 2, [])
    else if !storeOk h then (h, 5, [])
    else (zhPut h [(2, n, satAdd 32 (mcOf h n) 1)], 0, [])))

/-- RESET_REQUEST (R412). -/
def execResetRequest (s : State) : Res :=
  .next (s.onTulle fun h =>
    if !callRuns h 0x30 then h
    else if notSeal h then hubReset h 5 0 false
    else complete h 6 [])

end Sys2Proof.Machine
end

