-- ==== Sys2Proof/Machine/Attest.lean ====
section
/-! DEFINITION. Quinsor management commands (Table TRU-10, carrier C; R405, R410 to R413, R471), the hub as SPDM responder
(R398, R471) and the messages of MCTP (R62, R471). -/

namespace Sys2Proof.Machine

/-! ### Management commands (R412, R413) -/

/-- The hub answers management commands and messages: the start is over and SEAL has not shut its bays. -/
def answers (h : Hub) : Bool := running h && h.mode.sealPhase != 8

/-- The ROM tier of BENCH, where the ROM answers instead of Zhozha. -/
def romTier (h : Hub) : Bool := h.mode.mode == .bench && !h.mode.tier

/-- The Zhozha tier of BENCH. -/
def zhTier (h : Hub) : Bool := h.mode.mode == .bench && h.mode.tier

/-- A management command that Zhozha carries out: REFUSED in a mode that Table TRU-10 does not allow, and no answer from
the ROM, which knows BENCH_STATUS alone (R471). -/
def mgmtCmd (h : Hub) (c : QCarrier) (allowed : Bool) (act : Hub → Svc) : Hub :=
  if !answers h || romTier h then h
  else if !allowed then emit h (.answer c 6 [])
  else
    let (h, st, data) := act h
    emit h (.answer c st data)

/-- The hybrid signature of an owner-signed command holds, made with a key that the command allows, over the current nonce
(R391, R413). -/
def sigGood (h : Hub) (sig : OwnerSig) (keyOk : Bool) : Bool :=
  sig.ecdsaOk && sig.mldsaOk && keyOk && h.trust.nonce == some sig.nonce

/-- The nonce of a command is spent (R413). -/
def spend (h : Hub) (sig : OwnerSig) : Hub :=
  if h.trust.nonce = some sig.nonce then { h with trust := { h.trust with nonce := none } } else h

/-- An owner-signed command: AUTH_FAIL and no change where its signature fails; its nonce is spent either way (R413). -/
def signedCmd (h : Hub) (sig : OwnerSig) (keyOk : Bool) (act : Hub → Svc) : Svc :=
  if sigGood h sig keyOk then act (spend h sig) else (spend h sig, 3, [])

/-- The committed ledger record of an LSEQ. -/
def ledgerAt (h : Hub) (check : Bool) (lseq : Nat) : Option LdgRec :=
  h.keep.ledger.find? (fun r => !r.torn && r.checkpoint == check && r.lseq == lseq)

/-- LSEQ of the last checkpoint. -/
def checkLseq (h : Hub) : Nat :=
  match topRec (checkRecs h) with
  | some r => r.lseq
  | none => 0

/-- LDG_INFO: head, EXPORTED_TO, last checkpoint, LEDGER_STRICT; the order is the table's, the widths are the registers'
(DESIGN CHOICE, log entry 46). -/
def ldgInfo (h : Hub) : Svc :=
  (h, 0, leBytes 8 (headLseq h) ++ leBytes 8 (exportedTo h) ++ leBytes 8 (checkLseq h) ++ [fld h pLDG Fld.LDG.STAT_STRICT])

/-- The bytes of a boot record and of the checkpoint that follows it. -/
def ledgerBytes (h : Hub) (lseq : Nat) : List Nat :=
  match ledgerAt h false lseq with
  | none => []
  | some r => r.bytes ++ (match ledgerAt h true lseq with
    | some c => c.bytes
    | none => [])

/-- LDG_READ. Records past the head are left out. -/
def ldgRead (h : Hub) (lseq count : Nat) : Svc :=
  if lseq = 0 || headLseq h < lseq || count = 0 || 4 < count then (h, 2, [])
  else if (ledgerAt h false lseq).isNone then (h, 7, [])
  else (h, 0, (List.range count).flatMap (fun i => ledgerBytes h (lseq + i)))

/-- The alias certificate, where Zhozha runs. -/
def aliasCert (h : Hub) : List Nat :=
  match h.trust.zhImg with
  | some i => (Config.aliasCert h.fuses.serial i.digest i.svn).map (·.toNat)
  | none => []

/-- The certificates of the intermediate key and of DeviceID, as bytes. -/
def deviceCerts (h : Hub) : List Nat :=
  let c := Config.deviceCerts h.fuses.serial
  (c.1 :: c.2).map (·.toNat)

/-- The certificates that the hub holds (R397). -/
def certChain (h : Hub) : List Nat := deviceCerts h ++ aliasCert h

/-- LDG_CERTS. -/
def ldgCerts (h : Hub) : Svc := if (activeDevs h).isEmpty then (h, 5, []) else (h, 0, certChain h)

/-- LDG_NONCE (R413). -/
def ldgNonce (h : Hub) : Svc :=
  let (bs, h) := freeBytes h 32
  ({ h with trust := { h.trust with nonce := some (ofLeBytes bs) } }, 0, bs)

/-- A held boot record is written as soon as the erase it needs is allowed (R410). -/
def releaseHeld (h : Hub) : Hub :=
  match h.trust.held with
  | none => h
  | some r =>
    if ldgBlocked h r then h
    else setFld (ldgCommit { h with trust := { h.trust with held := none } } r) pLDG Fld.LDG.STAT_HELD 0

/-- EXPORTED_TO advances (R409, R411, R416). -/
def ackTo (h : Hub) (lseq : Nat) : Svc :=
  if lseq ≤ exportedTo h then (h, 0, [])
  else if headLseq h < lseq then (h, 2, [])
  else if !storeOk h then (h, 5, [])
  else (releaseHeld (setIstat (ldgShow (zhPut h [(3, 0, lseq)])) pLDG 3), 0, [])

/-- BENCH_RELEASE (R405). The answer goes out before the reset. -/
def benchRelease (h : Hub) (c : QCarrier) (sig : OwnerSig) : Hub :=
  if !answers h || romTier h then h
  else if !zhTier h then emit h (.answer c 6 [])
  else if !sigGood h sig (opsKey h sig.key || rootInForce h sig.key) then emit (spend h sig) (.answer c 3 [])
  else
    let h := spend h sig
    let h := putSel h { bootSel h with tries := 0 }
    hubReset (emit h (.answer c 0 [])) 5 0 false

/-- Replace an element of a list. -/
def setAt {α : Type} : List α → Nat → α → List α
  | [], _, _ => []
  | _ :: t, 0, x => x :: t
  | y :: t, n + 1, x => y :: setAt t n x

/-- OWNER_CLAIM (R389). -/
def ownerClaim (h : Hub) (key : Nat) : Svc :=
  ({ h with fuses := { h.fuses with owners := setAt h.fuses.owners 0 (some key) } }, 0, [])

/-- Another root key that is fused and not revoked. -/
def otherRoot (h : Hub) (slot key : Nat) : Bool :=
  (List.range 4).any (fun i => i != slot && h.fuses.owners.getD i none == some key && !bit h.fuses.revoke i)

/-- OWNER_REVOKE (R389). A slot that is not fused is a bad argument. -/
def ownerRevoke (h : Hub) (slot : Nat) : Svc :=
  if (h.fuses.owners.getD slot none).isNone then (h, 2, [])
  else ({ h with fuses := { h.fuses with revoke := h.fuses.revoke ||| 2 ^ slot } }, 0, [])

/-- IMAGE_UPDATE: FW_STAGE and FW_ACTIVATE of the slot that is not ACTIVE (R393, Table TRU-10). -/
def imageUpdate (h : Hub) (kind : Nat) (img : Image) : Svc :=
  let slot := 1 - activeSlot h kind
  let (h, st) := stageSlot h kind slot img
  if st != 0 then (h, st, [])
  else
    let (h, st) := activateSlot h kind slot
    (h, st, [])

/-- BENCH_STATUS: the reason, the fused floor, and TYPE and SVN of each Zhozha slot; zero for an empty slot (R471). -/
def benchStatus (h : Hub) : List Nat :=
  [h.mode.reason % 256, h.fuses.zhSvn % 256] ++ [0, 1].flatMap (fun k =>
    match imgAt h 0 k with
    | some i => (i.typ % 256) :: leBytes 4 i.svn
    | none => [0, 0, 0, 0, 0])

/-- Carry out BENCH_STATUS: the ROM's alone; Zhozha offers no service of that code. -/
def benchStatusCmd (h : Hub) (c : QCarrier) : Hub :=
  if !answers h then h else if romTier h then emit h (.answer c 0 (benchStatus h)) else emit h (.answer c 1 [])

/-- A management command (R412), however it is carried. -/
def runCmd (h : Hub) (c : QCarrier) : QCmd → Hub
  | .ldgInfo => mgmtCmd h c (notSeal h) ldgInfo
  | .ldgRead l n => mgmtCmd h c (notSeal h) (fun h => ldgRead h l n)
  | .ldgCerts => mgmtCmd h c (notSeal h) ldgCerts
  | .ldgNonce => mgmtCmd h c (notSeal h) ldgNonce
  | .ldgAck sig l => mgmtCmd h c (notSeal h) (fun h => signedCmd h sig (opsKey h sig.key) (fun h => ackTo h l))
  | .benchRelease sig => benchRelease h c sig
  | .ownerClaim k => mgmtCmd h c (zhTier h && unowned h) (fun h => ownerClaim h k)
  | .ownerRevoke sig i => mgmtCmd h c (zhTier h) (fun h => signedCmd h sig (otherRoot h i.val sig.key) (fun h => ownerRevoke h i.val))
  | .imageUpdate k img => mgmtCmd h c (zhTier h) (fun h => imageUpdate h (kindNum k) img)
  | .benchStatus => benchStatusCmd h c
  | .other _ => mgmtCmd h c true (fun h => (h, 1, []))

/-- LDG_INFO (R412). -/
def execLdgInfo (c : QCarrier) (s : State) : Res := .next (s.onTulle fun h => runCmd h c .ldgInfo)

/-- LDG_READ (R412). -/
def execLdgRead (c : QCarrier) (lseq count : Nat) (s : State) : Res :=
  .next (s.onTulle fun h => runCmd h c (.ldgRead lseq count))

/-- LDG_CERTS (R412). -/
def execLdgCerts (c : QCarrier) (s : State) : Res := .next (s.onTulle fun h => runCmd h c .ldgCerts)

/-- LDG_NONCE (R412, R413). -/
def execLdgNonce (c : QCarrier) (s : State) : Res := .next (s.onTulle fun h => runCmd h c .ldgNonce)

/-- LDG_ACK (R410, R411). -/
def execLdgAck (c : QCarrier) (sig : OwnerSig) (lseq : Nat) (s : State) : Res :=
  .next (s.onTulle fun h => runCmd h c (.ldgAck sig lseq))

/-- BENCH_RELEASE (R405). -/
def execBenchRelease (c : QCarrier) (sig : OwnerSig) (s : State) : Res :=
  .next (s.onTulle fun h => runCmd h c (.benchRelease sig))

/-- OWNER_CLAIM (R389). -/
def execOwnerClaim (c : QCarrier) (keyHash : Nat) (s : State) : Res :=
  .next (s.onTulle fun h => runCmd h c (.ownerClaim keyHash))

/-- OWNER_REVOKE (R389). -/
def execOwnerRevoke (c : QCarrier) (sig : OwnerSig) (slot : Fin 4) (s : State) : Res :=
  .next (s.onTulle fun h => runCmd h c (.ownerRevoke sig slot))

/-- IMAGE_UPDATE (R412). -/
def execImageUpdate (c : QCarrier) (k : FwKind) (img : Image) (s : State) : Res :=
  .next (s.onTulle fun h => runCmd h c (.imageUpdate k img))

/-- BENCH_STATUS (R471). -/
def execBenchStatus (c : QCarrier) (s : State) : Res := .next (s.onTulle fun h => runCmd h c .benchStatus)

/-! ### The SPDM responder (R398, R471). Message codes, the layout of the answers and the order of a connection are those of
DSP0274 (PRESUMED, log entry 47). -/

/-- The connection's key: the lead bay of the H bay whose DOE carries it, or 48 for MCTP. -/
def spdmKey (h : Hub) : SpdmPort → Nat
  | .doe b => leadOf h b.val
  | .mctp => 48

/-- The transport carries messages. -/
def spdmUp (h : Hub) : SpdmPort → Bool
  | .doe b => isHost h b.val
  | .mctp => mgmtRuns h
where
  /-- The bay leads an H group whose link is up. -/
  isHost (h : Hub) (b : Nat) : Bool := (leadsOf h 1).contains (leadOf h b) && bayUp h b

/-- The connection of a port. -/
def conn (h : Hub) (p : SpdmPort) : SpdmConn := mapGet h.trust.spdm (spdmKey h p) .reset

/-- Change the connection of a port. -/
def modConn (h : Hub) (p : SpdmPort) (f : SpdmConn → SpdmConn) : Hub :=
  { h with trust := { h.trust with spdm := mapSet h.trust.spdm (spdmKey h p) (f (conn h p)) .reset } }

/-- ERROR with an error code. -/
def spdmError (h : Hub) (p : SpdmPort) (code : Nat) : Hub := emit h (.spdm p 0x7F code 0 [])

/-- Send a response; one of Zhozha's longer than the transfer size waits to be asked for in chunks. -/
def respond (h : Hub) (p : SpdmPort) (code p1 p2 : Nat) (data : List Nat) : Hub :=
  if romTier h || decide (data.length + 4 ≤ Config.spdmTransfer) then emit h (.spdm p code p1 p2 data)
  else
    let (bs, h) := freeBytes h 1
    let hd := bs.headD 0
    let h := modConn h p (fun c => { c with large := some (hd, 0, [0x13, code, p1, p2] ++ data) })
    emit h (.spdm p 0x7F 0x0F 0 [hd])

/-- A request that needs the connection at a stage; `rom` says that the ROM answers it too (R471). Hub and request are
judged first; a request out of order is UnexpectedRequest. -/
def spdmReq (h : Hub) (p : SpdmPort) (rom : Bool) (stage : Nat) (act : Hub → Hub) : Hub :=
  if !answers h || h.mode.mode == .seal || !spdmUp h p then h
  else if romTier h && !rom then spdmError h p 7
  else if (conn h p).stage < stage then spdmError h p 4
  else act h

/-- A request inside a session that stands at a point of its setup. -/
def inSession (h : Hub) (p : SpdmPort) (at_ : Nat) (act : Hub → Hub) : Hub :=
  spdmReq h p false 3 (fun h => if (conn h p).session = at_ then act h else spdmError h p 4)

/-- SPDM_GET_VERSION (R398, R471): 1.2 and 1.3 from Zhozha, 1.3 from the ROM. A connection begins anew. -/
def execSpdmGetVersion (p : SpdmPort) (s : State) : Res :=
  .next (s.onTulle fun h => spdmReq h p true 0 (fun h =>
    respond (modConn h p (fun _ => { SpdmConn.reset with stage := 1 })) p 0x04 0 0
      (if romTier h then [0, 1, 0x00, 0x13] else [0, 2, 0x00, 0x12, 0x00, 0x13])))

/-- The capability flags of R398: CERT, CHAL, MEAS with signature, ENCRYPT, MAC, MUT_AUTH, KEY_EX, HBEAT, KEY_UPD, CHUNK.
The ROM has CERT and CHAL (R471). -/
def spdmFlags (h : Hub) : Nat := if romTier h then 6 else 0x263D6

/-- The body of CAPABILITIES: reserved, CTExponent, reserved, flags, data transfer size and largest message (PRESUMED from
DSP0274, log entry 90). -/
def spdmCaps (h : Hub) : List Nat :=
  [0, Config.spdmCtExponent.toNat, 0, 0] ++ leBytes 4 (spdmFlags h) ++ leBytes 4 Config.spdmTransfer ++
    leBytes 4 Config.spdmMaxMsg.toNat

/-- The algorithm structures of ALGORITHMS: DHE secp384r1, AES-256-GCM, ECDSA P-384 for the requester's signature, and the
SPDM key schedule. The ROM, which runs no session, names none. -/
def spdmAlgStructs (h : Hub) : List Nat :=
  if romTier h then [] else [2, 0x20, 0x10, 0, 3, 0x20, 0x02, 0, 4, 0x20, 0x80, 0, 5, 0x20, 0x01, 0]

/-- The body of ALGORITHMS: length, DMTF measurement specification, SHA-384 measurements, ECDSA P-384, SHA-384, no external
algorithms, and the structures (PRESUMED from DSP0274, log entry 90). -/
def spdmAlgs (h : Hub) : List Nat :=
  let s := spdmAlgStructs h
  leBytes 2 (36 + s.length) ++ (if romTier h then [0, 0, 0, 0, 0, 0] else [1, 0, 4, 0, 0, 0]) ++ leBytes 4 0x80 ++
    leBytes 4 0x02 ++ List.replicate 16 0 ++ s

/-- SPDM_GET_CAPABILITIES (R398, R471). -/
def execSpdmGetCapabilities (p : SpdmPort) (s : State) : Res :=
  .next (s.onTulle fun h => spdmReq h p true 1 (fun h =>
    respond (modConn h p (fun c => { c with stage := max c.stage 2 })) p 0x61 0 0 (spdmCaps h)))

/-- SPDM_NEGOTIATE_ALGORITHMS (R398, R471): ECDSA P-384, SHA-384, DHE secp384r1, AES-256-GCM. -/
def execSpdmNegotiateAlgorithms (p : SpdmPort) (s : State) : Res :=
  .next (s.onTulle fun h => spdmReq h p true 2 (fun h =>
    respond (modConn h p (fun c => { c with stage := 3 })) p 0x63
      ((spdmAlgStructs h).length / 4) 0 (spdmAlgs h)))

/-- The chain of slot 0: its header (length, reserved, hash of the root; PRESUMED from DSP0274, log entry 90), then the
certificates: with the alias certificate where Zhozha runs, else up to DeviceID. -/
def slotChain (h : Hub) : List Nat :=
  let certs := if romTier h then deviceCerts h else certChain h
  leBytes 2 (52 + certs.length) ++ [0, 0] ++ leBytes 48 Config.rootHash.toNat ++ certs

/-- SPDM_GET_DIGESTS (R398). -/
def execSpdmGetDigests (p : SpdmPort) (s : State) : Res :=
  .next (s.onTulle fun h => spdmReq h p false 3 (fun h => respond h p 0x01 0 1 (sha384 (slotChain h))))

/-- SPDM_GET_CERTIFICATE (R397, R398, R471): `len` bytes of the chain of slot 0 from an offset; an error where no keep store
device can be read. -/
def execSpdmGetCertificate (p : SpdmPort) (slot off len : Nat) (s : State) : Res :=
  .next (s.onTulle fun h => spdmReq h p true 3 (fun h =>
    let chain := slotChain h
    if slot != 0 || chain.length ≤ off then spdmError h p 1
    else if (activeDevs h).isEmpty then spdmError h p 5
    else
      let part := (chain.drop off).take len
      respond h p 0x02 0 0 (leBytes 2 part.length ++ leBytes 2 (chain.length - off - part.length) ++ part)))

/-- A fresh nonce of 32 bytes and a signature. -/
def nonceAndSig (h : Hub) (sign : Bool) : List Nat × Hub :=
  let (bs, h) := freeBytes h 32
  if sign then let (sig, h) := drawSig h 96; (bs ++ sig, h) else (bs, h)

/-- SPDM_CHALLENGE (R398, R471): signed with the alias key, by the ROM with the DeviceID key. -/
def execSpdmChallenge (p : SpdmPort) (slot : Nat) (s : State) : Res :=
  .next (s.onTulle fun h => spdmReq h p true 3 (fun h =>
    if slot != 0 then spdmError h p 1
    else
      let (bs, h) := nonceAndSig h true
      respond h p 0x03 0 1 (sha384 (slotChain h) ++ bs)))

/-- A digest with a version, or zeros. -/
def versioned {α : Type} (x : Option α) (digest version : α → Nat) : List Nat :=
  match x with
  | some v => sha384 (leBytes 48 (digest v) ++ leBytes 4 (version v))
  | none => List.replicate 48 0

/-- The owner slots in force. -/
def ownerMask (h : Hub) : Nat :=
  (List.range 4).foldl (fun m i => m + (if (h.fuses.owners.getD i none).isSome && !bit h.fuses.revoke i then 2 ^ i else 0)) 0

/-- The value of a measurement block (Table TRU-5). Blocks 2 to 5 name a digest and a version and hold one SHA-384 digest:
SHA-384 over the two (DEDUCED, log entry 48). -/
def measBlock (h : Hub) (i : Nat) : List Nat :=
  if i = 1 then leBytes 48 Config.romDigest.toNat
  else if i = 2 then versioned h.trust.zhImg (·.digest) (·.svn)
  else if i = 3 then versioned h.trust.ckImg (·.digest) (·.svn)
  else if i = 4 then versioned h.trust.policy (·.digest) (·.serial)
  else if i = 5 then versioned h.tulle.profile (fun _ => h.tulle.digest) (·.serial)
  else if i = 6 then [h.fuses.grade % 4, b2n h.fuses.prod, h.fuses.zhSvn % 256, ownerMask h]
  else leBytes 8 (headLseq h) ++ (match topRec (bootRecs h) with
    | some r => sha384 r.bytes
    | none => List.replicate 48 0)

/-- A block with its index and length. -/
def measRecord (h : Hub) (i : Nat) : List Nat :=
  let v := measBlock h i
  [i] ++ leBytes 2 v.length ++ v

/-- SPDM_GET_MEASUREMENTS (R398, Table TRU-5): index 0 asks for the number of blocks, 0xFF for all of them. -/
def execSpdmGetMeasurements (p : SpdmPort) (index : Nat) (sign : Bool) (s : State) : Res :=
  .next (s.onTulle fun h => spdmReq h p false 3 (fun h =>
    if 7 < index && index != 0xFF then spdmError h p 1
    else
      let blocks := if index = 0 then [] else if index = 0xFF then [1, 2, 3, 4, 5, 6, 7] else [index]
      let body := blocks.flatMap (measRecord h)
      let (tail, h) := nonceAndSig h sign
      respond h p 0x60 (if index = 0 then 7 else 0) 0 (leBytes 1 blocks.length ++ leBytes 3 body.length ++ body ++ tail)))

/-- A session opens: its answer carries free bytes, a signature, and the request for mutual authentication, a free bit. -/
def spdmOpen (h : Hub) (p : SpdmPort) (reqId : Nat) : Hub :=
  let (r, h) := freeBytes h 131
  let (sig, h) := drawSig h 96
  let wants := r.headD 0 % 2 == 1
  let h := modConn h p (fun c => { c with session := 1, mutAuth := wants, authd := false, keys := 0 })
  respond h p 0x64 0 0 (leBytes 2 reqId ++ (r.drop 1).take 2 ++ [b2n wants] ++ r.drop 3 ++ sig)

/-- SPDM_KEY_EXCHANGE (R398): a session opens; whether it asks for mutual authentication the spec leaves open. One session
is held per port (DESIGN CHOICE, log entry 49). -/
def execSpdmKeyExchange (p : SpdmPort) (slot reqId : Nat) (s : State) : Res :=
  .next (s.onTulle fun h => spdmReq h p false 3 (fun h =>
    if slot != 0 then spdmError h p 1
    else if (conn h p).session != 0 then spdmError h p 0x0A
    else
      spdmOpen h p reqId))

/-- SPDM_FINISH (R398): the session is set up when its MAC verifies and any mutual authentication has succeeded; a failed
MAC ends it. -/
def execSpdmFinish (p : SpdmPort) (hmacOk : Bool) (s : State) : Res :=
  .next (s.onTulle fun h => inSession h p 1 (fun h =>
    let c := conn h p
    if !hmacOk then spdmError (modConn h p (fun c => { c with session := 0 })) p 6
    else if c.mutAuth && !c.authd then spdmError h p 4
    else respond (modConn h p (fun c => { c with session := 2 })) p 0x65 0 0 []))

/-- SPDM_HEARTBEAT (R398). -/
def execSpdmHeartbeat (p : SpdmPort) (s : State) : Res :=
  .next (s.onTulle fun h => inSession h p 2 (fun h => respond h p 0x68 0 0 []))

/-- SPDM_KEY_UPDATE (R398): 1 and 2 update keys, 3 verifies them. -/
def execSpdmKeyUpdate (p : SpdmPort) (op : Nat) (s : State) : Res :=
  .next (s.onTulle fun h => inSession h p 2 (fun h =>
    if op = 0 || 3 < op then spdmError h p 1
    else respond (if op = 3 then h else modConn h p (fun c => { c with keys := c.keys + 1 })) p 0x69 op 0 []))

/-- SPDM_END_SESSION (R398). -/
def execSpdmEndSession (p : SpdmPort) (s : State) : Res :=
  .next (s.onTulle fun h => inSession h p 2 (fun h => respond (modConn h p (fun c => { c with session := 0 })) p 0x6C 0 0 []))

/-- SPDM_VENDOR_DEFINED (R412): the management command it carries, in or out of a session. -/
def execSpdmVendorDefined (p : SpdmPort) (q : QCmd) (s : State) : Res :=
  .next (s.onTulle fun h => spdmReq h p false 3 (fun h => runCmd h .spdmVendor q))

/-- SPDM_CHUNK_SEND (R398): a chunk of a large request. The assembled request is a command of its own. -/
def execSpdmChunkSend (p : SpdmPort) (handle seq len : Nat) (last : Bool) (s : State) : Res :=
  .next (s.onTulle fun h => spdmReq h p false 3 (fun h =>
    let got := match (conn h p).chunk with
      | none => if seq = 0 then some len else none
      | some (hd, n, b) => if hd = handle && n = seq then some (b + len) else none
    match got with
    | none => spdmError (modConn h p (fun c => { c with chunk := none })) p 1
    | some b =>
      let h := modConn h p (fun c => { c with chunk := if last then none else some (handle, seq + 1, b) })
      respond h p 0x05 0 handle (leBytes 2 seq)))

/-- SPDM_CHUNK_GET (R398): the next chunk of a large response. -/
def execSpdmChunkGet (p : SpdmPort) (handle seq : Nat) (s : State) : Res :=
  .next (s.onTulle fun h => spdmReq h p false 3 (fun h =>
    match (conn h p).large with
    | none => spdmError h p 4
    | some (hd, n, rest) =>
      if hd != handle || n != seq then spdmError (modConn h p (fun c => { c with large := none })) p 1
      else
        let k := max 1 Config.spdmTransfer
        let left := rest.drop k
        let h := modConn h p (fun c => { c with large := if left.isEmpty then none else some (hd, n + 1, left) })
        emit h (.spdm p 0x06 (b2n left.isEmpty) handle (leBytes 2 seq ++ rest.take k))))

/-- SPDM_GET_ENCAPSULATED_REQUEST (R398): in a handshake that asks for mutual authentication the hub asks for the
requester's certificate. -/
def execSpdmGetEncapsulatedRequest (p : SpdmPort) (s : State) : Res :=
  .next (s.onTulle fun h => inSession h p 1 (fun h =>
    if (conn h p).mutAuth then respond h p 0x6A 0 0 [0x13, 0x82, 0, 0] else spdmError h p 4))

/-- SPDM_DELIVER_ENCAPSULATED_RESPONSE (R398): the requester is authenticated, or is not. -/
def execSpdmDeliverEncapsulatedResponse (p : SpdmPort) (ok : Bool) (s : State) : Res :=
  .next (s.onTulle fun h => inSession h p 1 (fun h =>
    if (conn h p).mutAuth then respond (modConn h p (fun c => { c with authd := ok })) p 0x6B 0 0 [] else spdmError h p 4))

/-! ### MCTP (R62, R63, R412, R471) -/

/-- The static address of the SMBus target (R62). -/
def smbusAddr (h : Hub) : BitVec 7 :=
  match h.trust.policy with
  | some p => p.i3cStatic.getD 0x4C
  | none => 0x4C

/-- A carrier reaches the hub: the SMBus target answers to its own address alone. -/
def carrierUp (h : Hub) : Carrier → Bool
  | .i3c => mgmtRuns h && fld h pPIN Fld.PIN.MGMT_STATE == 0 && h.mgmt.addr.isSome
  | .smbus a _ => mgmtRuns h && fld h pPIN Fld.PIN.MGMT_STATE ≤ 1 && a == smbusAddr h
  | .vdm b => (leadsOf h 1).contains (leadOf h b.val) && bayUp h b.val

/-- The hub answers on the management bus as an SMBus target once it is addressed as one (R62). -/
def carrierSeen (h : Hub) : Carrier → Hub
  | .smbus .. => setFld h pPIN Fld.PIN.MGMT_STATE 1
  | _ => h

/-- The message is intact: on SMBus its packet error code is right (R62). -/
def carrierSound : Carrier → Bool
  | .smbus _ pec => pec
  | _ => true

/-- Who takes messages: 0 the ROM, 1 Zhozha, 2 Chakacon (R412, R471, Table TRU-1). -/
def mctpTo (h : Hub) : Nat := if romTier h then 0 else if zhTier h then 1 else 2

/-- A message arrives. -/
def mctpArrive (h : Hub) (c : Carrier) (act : Hub → Hub) : Hub :=
  if answers h && h.mode.mode != .seal && carrierUp h c then
    (if carrierSound c then act (carrierSeen h c) else carrierSeen h c)
  else h

/-- MCTP_MESSAGE (R62). -/
def execMctpMessage (c : Carrier) (typ len : Nat) (s : State) : Res :=
  .next (s.onTulle fun h => mctpArrive h c (fun h => emit h (.mctpIn c typ len (mctpTo h))))

/-- MCTP_CONTROL (R471). -/
def execMctpControl (c : Carrier) (code : Nat) (s : State) : Res :=
  .next (s.onTulle fun h => mctpArrive h c (fun h => emit h (.mctpRsp c code)))

end Sys2Proof.Machine
end

