-- ==== Sys2Proof/Machine/CohCmd.lean ====
section
/-! DEFINITION. Meanings of the coherence rows: Tulle requests, snoops, answers and data (chapters 06, 07), the CXL
messages of hosts and devices (Table COH-7), directory and media events (08), arbiters, credits and audits (09), dead
agents and timeouts (10). -/

namespace Sys2Proof.Machine

/-! ### Tulle requests -/

/-- Serve the head of a line's chain when its request is of the class a row names. -/
def serveClass (h : Hub) (line : LineAddr) (cls : Nat) : Hub :=
  match headOf h line with
  | some t => if rowServed t.req.op && classOpc t.req.op = cls then serveHead h line else h
  | none => h

/-- A request row: the message arrives, or the request at the head is served. -/
def requestRow (h : Hub) (r : ReqStep) (op : ReqOp) (body : Payload) : Hub :=
  match r with
  | .arrive b hd => peerArrive h b.val hd op body
  | .serve line => serveClass h line (classOpc op)

/-- RD_SHARED (R154, R185). -/
def execRdShared (r : ReqStep) (s : State) : Res := .next (s.onCoh fun h => requestRow h r .rdShared .none)

/-- RD_ANY (R154, R185). -/
def execRdAny (r : ReqStep) (s : State) : Res := .next (s.onCoh fun h => requestRow h r .rdAny .none)

/-- RD_OWN (R154, R185). -/
def execRdOwn (r : ReqStep) (s : State) : Res := .next (s.onCoh fun h => requestRow h r .rdOwn .none)

/-- RD_CUR (R154, R185). -/
def execRdCur (r : ReqStep) (s : State) : Res := .next (s.onCoh fun h => requestRow h r .rdCur .none)

/-- UPGRADE (R155, R185). -/
def execUpgrade (r : ReqStep) (s : State) : Res := .next (s.onCoh fun h => requestRow h r .upgrade .none)

/-- WR_FULL (R185). -/
def execWrFull (r : ReqStep) (d : LineData) (s : State) : Res :=
  .next (s.onCoh fun h => requestRow h r (.wrFull d) (.line d))

/-- ATOMIC (R168, R169). -/
def execAtomic (r : ReqStep) (a : AtomicArg) (s : State) : Res :=
  .next (s.onCoh fun h => requestRow h r (.atomic a) (.atomic a))

/-- The consumer that a STASH names: the RLC of the node in ATTR[22:16] of its message (R156, R172). -/
def stashFor (r : ReqStep) (consumer : AgentId) : AgentId :=
  match r with
  | .arrive _ hd => rlcAgent (bits hd.attr 16 7)
  | .serve _ => consumer

/-- STASH (R172). -/
def execStash (r : ReqStep) (d : LineData) (consumer : AgentId) (s : State) : Res :=
  .next (s.onCoh fun h => requestRow h r (.stash d (stashFor r consumer)) (.stash d (stashFor r consumer)))

/-- WB_DIRTY (R189, R231). -/
def execWbDirty (b : Bay) (hd : Hdr) (d : LineData) (s : State) : Res :=
  .next (s.onCoh fun h => peerArrive h b.val hd (.wbDirty d) (.line d))

/-! ### Snoops and pushes at the RLC -/

/-- A message for this hub with the opcode and size of its row and no reserved source is handled; any other is a protocol error
(R160). -/
def atHub (h : Hub) (b : Bay) (hd : Hdr) (body : Payload) (opc : Nat) (f : Hub → Hub) : Hub :=
  let (h, mine) := receive h b.val hd body false
  if !mine then h
  else if hd.opc != opc || reservedSrc hd.src || !hd.sized then protoErr h hd.addr hd.opc hd.src
  else f h

/-- The snoop that a message carries. -/
def snpOf (hd : Hdr) : Snp :=
  { opc := hd.opc, home := agentNode hd.src, req := hd.attr % 8192, grant := bits hd.attr 13 3, bob := hd.tag,
    prio := hd.prio % 8, sbob := 0 }

/-- A snoop, whose VC1 credit it holds until a snoop-pool bobbin takes it. -/
def snoopRow (h : Hub) (b : Bay) (hd : Hdr) (opc : Nat) : Hub :=
  let (h, mine) := receive h b.val hd .none true
  if !mine then h
  else if hd.opc != opc || reservedSrc hd.src || !hd.sized then
    oweCredits (protoErr h hd.addr hd.opc hd.src) b.val (vcOf hd.opc) (unitsOf hd.opc .none)
  else rlcSnoop h b.val hd.addr (snpOf hd)

/-- SNP_INV (R161, R195). -/
def execSnpInv (b : Bay) (hd : Hdr) (s : State) : Res := .next (s.onCoh fun h => snoopRow h b hd 0x10)

/-- SNP_DATA (R161, R195). -/
def execSnpData (b : Bay) (hd : Hdr) (s : State) : Res := .next (s.onCoh fun h => snoopRow h b hd 0x11)

/-- SNP_FWD (R161, R195). -/
def execSnpFwd (b : Bay) (hd : Hdr) (s : State) : Res := .next (s.onCoh fun h => snoopRow h b hd 0x12)

/-- STASH_PUSH (R174). -/
def execStashPush (b : Bay) (hd : Hdr) (d : LineData) (s : State) : Res :=
  .next (s.onCoh fun h => atHub h b hd (.line d) 0x32 (fun h => rlcPush h hd.addr (agentNode hd.src) hd.tag (hd.prio % 8) d))

/-! ### Answers at the home -/

/-- An answer at the home. -/
def answerRow (h : Hub) (b : Bay) (hd : Hdr) (body : Payload) (opc : Nat) (f : Hub → Option Hub) : Hub :=
  atHub h b hd body opc (fun h => answerAt h hd.addr hd.opc hd.src hd.tag f)

/-- RSP_I (R188). -/
def execRspI (b : Bay) (hd : Hdr) (s : State) : Res :=
  .next (s.onCoh fun h => answerRow h b hd .none 0x20 (fun h => homeAnswer h hd.addr hd.src .rspI))

/-- RSP_S (R188). -/
def execRspS (b : Bay) (hd : Hdr) (s : State) : Res :=
  .next (s.onCoh fun h => answerRow h b hd .none 0x21 (fun h => homeAnswer h hd.addr hd.src .rspS))

/-- RSP_FWD (R188): the forwarder's next state is I or S. -/
def execRspFwd (b : Bay) (hd : Hdr) (s : State) : Res :=
  .next (s.onCoh fun h => answerRow h b hd .none 0x22 (fun h =>
    if 1 < hd.attr % 8 then none else homeAnswer h hd.addr hd.src (.fwd (hd.attr % 8 == 1))))

/-- SNP_WB (R188, R190, R231): through write staging, which it leaves at once where nothing of its line stands before it. -/
def execSnpWb (b : Bay) (hd : Hdr) (d : LineData) (s : State) : Res :=
  .next (s.onCoh fun h =>
    let (h, mine) := receive h b.val hd (.line d) true
    let r : Req := { who := .peer hd.tag, agent := hd.src, op := .snpWb d hd.attr, line := hd.addr, poison := hd.poison,
                     prio := hd.prio % 8, ctx := 0, bob := hd.tag, t0 := h.htime, hops := hd.hops, tag := none }
    if !mine then h
    else if hd.opc != 0x41 || reservedSrc hd.src || !hd.sized then
      oweCredits (protoErr h hd.addr hd.opc hd.src) b.val (vcOf hd.opc) (unitsOf hd.opc (.line d))
    else if h.coh.staging.any (fun x => x.req.line == hd.addr) then
      { h with coh := { h.coh with staging := h.coh.staging ++
          [{ slice := sliceOf hd.addr, src := srcLink b.val, req := r, link := some b.val, since := h.htime }] } }
    else snpWbAct (oweCredits h b.val 4 5) r)

/-- ACK (R179, R186). -/
def execAck (b : Bay) (hd : Hdr) (s : State) : Res :=
  .next (s.onCoh fun h => answerRow h b hd .none 0x24 (fun h => homeAck h hd.addr hd.src))

/-- STASH_ACK (R172). -/
def execStashAck (b : Bay) (hd : Hdr) (s : State) : Res :=
  .next (s.onCoh fun h => answerRow h b hd .none 0x25 (fun h => homeStashAck h hd.addr hd.src (bit hd.attr 0)))

/-! ### Data and completions at the requester -/

/-- A message at the requester: a protocol error where no row takes it in the line's state, an orphan where nothing of
the line is outstanding (R160, R194). -/
def requesterRow (h : Hub) (b : Bay) (hd : Hdr) (body : Payload) (opc : Nat) (f : Hub → Option Hub) : Hub :=
  atHub h b hd body opc (fun h =>
    match f h with
    | some h' => h'
    | none =>
      if (mapGet? h.coh.outs hd.addr).isSome || !(rlcLine h hd.addr).st.stable then protoErr h hd.addr hd.opc hd.src
      else orphan h hd.addr hd.opc hd.src)

/-- A mover's request is a read. -/
def readOp : ReqOp → Bool
  | .rdShared => true | .rdAny => true | .rdOwn => true | .rdCur => true
  | _ => false

/-- DATA (R194). -/
def execData (b : Bay) (hd : Hdr) (d : LineData) (s : State) : Res :=
  .next (s.onCoh fun h => requesterRow h b hd (.line d) 0x30 (fun h =>
    match mapGet? h.coh.outs hd.addr with
    | some r =>
      if readOp r.op then
        let h := if hd.attr % 8 = 0 then h
          else sendMsg h (agentNode hd.src) 0x24 (intAgent (ownNode h)) hd.tag hd.addr r.prio false 0 .none
        some (outEnd (replyData h r r.bob d hd.poison (hd.attr % 8) false none) hd.addr r)
      else none
    | none => rlcData h hd.addr (agentNode hd.src) hd.tag d hd.poison (hd.attr % 8) (bit hd.attr 3) false))

/-- DATA_FWD (R159, R194, R197). -/
def execDataFwd (b : Bay) (hd : Hdr) (d : LineData) (s : State) : Res :=
  .next (s.onCoh fun h => requesterRow h b hd (.line d) 0x50 (fun h =>
    if (mapGet? h.coh.outs hd.addr).isSome then none
    else rlcData h hd.addr (homeNode h hd.addr) hd.tag d hd.poison (hd.attr % 8) false true))

/-- CMP (R194). -/
def execCmp (b : Bay) (hd : Hdr) (s : State) : Res :=
  .next (s.onCoh fun h => requesterRow h b hd .none 0x23 (fun h =>
    match mapGet? h.coh.outs hd.addr with
    | some r =>
      (match r.op with
      | .wrFull _ => some (outEnd (replyCmp h r r.bob 0 false none) hd.addr r)
      | .stash .. => some (outEnd (replyCmp h r r.bob 0 false none) hd.addr r)
      | _ => none)
    | none => rlcCmp h hd.addr (agentNode hd.src) hd.tag (hd.attr % 8) (bit hd.attr 3)))

/-- DATA_ATM (R171): the predictor learns from CONTENDED. -/
def execDataAtm (b : Bay) (hd : Hdr) (old : BitVec 64) (status : Nat) (s : State) : Res :=
  .next (s.onCoh fun h => requesterRow h b hd (.word (old.toNat + 2 ^ 64 * status)) 0x31 (fun h =>
    match mapGet? h.coh.outs hd.addr with
    | some r =>
      (match r.op with
      | .atomic _ =>
        some (outEnd (replyAtm (predMove h hd.addr (bit hd.attr 3)) r r.bob old (status % 256) false) hd.addr r)
      | _ => none)
    | none => none))

/-! ### CXL.mem of a host -/

/-- The link of an H bay carries CXL.mem (Table COH-1). -/
def hostOk (h : Hub) (b : Nat) : Bool :=
  leadOf h b == b && roleOf h b == 1 && bayUp h b && flag h (pBAY b) Fld.BAY.LSTAT_CXL

/-- The TPA line that a host's HDM decoders give for a line of its HPA (R33). -/
def hdmLine (h : Hub) (b hpa : Nat) : Option LineAddr :=
  (hdmDecs h b).findSome? (·.line? hpa)

/-- Agent of a local bay. -/
def bayAgent (h : Hub) (b : Nat) : AgentId := ownNode h * 64 + leadOf h b

/-- A bare request of a local agent. -/
def localReq (h : Hub) (who : Who) (a : AgentId) (op : ReqOp) (line : LineAddr) (poison : Bool) (prio : Nat) : Req :=
  { who := who, agent := a, op := op, line := line, poison := poison, prio := prio, ctx := 0, bob := 0, t0 := h.htime,
    hops := 31, tag := none }

/-- A host's request: no decoder takes its address (not served, DESIGN CHOICE, log entry 28), or it arrives at its
line. -/
def hostArrive (h : Hub) (b : Bay) (hpa : Nat) (op : ReqOp) : Hub :=
  if !hostOk h b.val then h
  else
    match hdmLine h b.val hpa with
    | some line => localArrive h b.val (.host b.val hpa) op line false 0
    | none =>
      let a := bayAgent h b.val
      notServed (if modeRejects h a then modeReject h b.val else h) (localReq h (.host b.val hpa) a op 0 false 0)

/-- MEMRD (Table COH-7). -/
def execMemrd (b : Bay) (hpa : Nat) (m : Meta0) (s : State) : Res :=
  .next (s.onCoh fun h => hostArrive h b hpa (match m with
    | .s => .rdShared
    | .a => .rdOwn
    | .i => .rdCur))

/-- MEMRDDATA (Table COH-7). -/
def execMemrddata (b : Bay) (hpa : Nat) (s : State) : Res := .next (s.onCoh fun h => hostArrive h b hpa .rdAny)

/-- A clean-eviction notice of a local agent, with its completion `e` (R163, R252, R257, R481). -/
def localNotice (h : Hub) (b : Nat) (line : Option LineAddr) (e : Emit) : Hub :=
  let a := bayAgent h b
  let prio := fld h pBOB Fld.BOB.PRI_WB
  let h := if modeRejects h a then
      let h := modeReject h b
      if agentDead h a then bump h pDED Fld.DED.LATE_MSG_CNT else h
    else
      match line with
      | none => h
      | some line =>
        (match whereIs h line with
        | .unmapped => unmappedLog h line 0 a
        | .noMedia => unmappedLog h line 0 a
        | _ => notice h line a)
  bayPut h b e none srcInternal prio

/-- MEMINV (Table COH-7): Meta0-State S is not listed, so it is a protocol error (R162). It has no opcode of Table COH-5, so OPC
in DETAIL is 0 (DESIGN CHOICE, log entry 96). -/
def execMeminv (b : Bay) (hpa : Nat) (m : Meta0) (s : State) : Res :=
  .next (s.onCoh fun h =>
    match m with
    | .a => hostArrive h b hpa .upgrade
    | .i => if hostOk h b.val then localNotice h b.val (hdmLine h b.val hpa) (.memCmp b.val hpa 0) else h
    | .s => if hostOk h b.val then protoErr h ((hdmLine h b.val hpa).getD 0) 0 (bayAgent h b.val) else h)

/-- MEMCLNEVCT (R163). -/
def execMemclnevct (b : Bay) (hpa : Nat) (s : State) : Res :=
  .next (s.onCoh fun h =>
    if hostOk h b.val then localNotice h b.val (hdmLine h b.val hpa) (.memCmp b.val hpa 0) else h)

/-- MEMSPECRD: accepted without action or completion; counted where the mode refuses requests (R21, Table COH-11). -/
def execMemspecrd (b : Bay) (_hpa : Nat) (s : State) : Res :=
  .next (s.onHub fun h => if hostOk h b.val && modeRejects h (bayAgent h b.val) then modeReject h b.val else h)

/-- MEMWR (R189, R191, R193, R231): the write enters write staging. A dead host's write is dropped as late (R252) with
the completion of R481. -/
def execMemwr (b : Bay) (hpa : Nat) (m : Meta0) (d : LineData) (mask : BitVec 64) (poison : Bool) (s : State) : Res :=
  .next (s.onCoh fun h =>
    if !hostOk h b.val then h
    else
      let a := bayAgent h b.val
      let line := hdmLine h b.val hpa
      let r := localReq h (.host b.val hpa) a (.memWr d mask m) (line.getD 0) poison (fld h pBOB Fld.BOB.PRI_H)
      if modeRejects h a then
        notServed (if agentDead h a then bump (modeReject h b.val) pDED Fld.DED.LATE_MSG_CNT else modeReject h b.val) r
      else
        match line with
        | none => notServed h r
        | some line =>
          (match whereIs h line with
          | .unmapped => notServed (unmappedLog h line 6 a) r
          | .noMedia => notServed (unmappedLog h line 6 a) r
          | _ => { h with coh := { h.coh with staging := h.coh.staging ++
              [{ slice := sliceOf line, src := b.val, req := r, link := none, since := h.htime }] } }))

/-- The write an agent has under way for a line, if the request is one: a host's MemWr, whatever it has been classed as. -/
def writeOf (a : AgentId) (line : LineAddr) (r : Req) : List (LineData × BitVec 64 × Bool) :=
  if r.agent = a && r.line = line then
    match r.who, r.op with
    | .host .., .memWr d mask _ => [(d, mask, r.poison)]
    | .host .., .wrFull d => [(d, BitVec.allOnes 64, r.poison)]
    | .host .., .wrPart d mask => [(d, mask, r.poison)]
    | _, _ => []
  else []

/-- The request is a host's write under way for a line. -/
def isWriteOf (a : AgentId) (line : LineAddr) (r : Req) : Bool := !(writeOf a line r).isEmpty

/-- Writes merged in order: data, mask and poison. -/
def joinWrites : List (LineData × BitVec 64 × Bool) → Option (LineData × BitVec 64 × Bool)
  | [] => none
  | w :: t => some (t.foldl (fun acc x => (mergeBytes acc.1 x.1 x.2.1, acc.2.1 ||| x.2.1, acc.2.2 || x.2.2)) w)

/-- Take the MemWrs of a host for a line that came before its BIRsp, wherever they wait, as its answer's dirty data
(R191): each gets its completion and gives its bobbin back. -/
def takeWrites (h : Hub) (line : LineAddr) (a : AgentId) : Hub × Option (LineData × BitVec 64 × Bool) :=
  let c := chainOf h line
  let l := rlcLine h line
  let staged := (h.coh.staging.filter (fun x => isWriteOf a line x.req)).map (·.req)
  let bobbed := (c.waiting ++ c.wbs ++ l.waiting).filter (isWriteOf a line)
  let queued := (h.coh.hoQueue.filter (fun x => isWriteOf a line x.req)).map (·.req)
  let atHead : List (AgentId × LineData × BitVec 64 × Bool) := match c.head with
    | some t => t.hostWb
    | none => []
  let atRecall : List (AgentId × LineData × BitVec 64 × Bool) := match l.recalled with
    | some rc => rc.hostWb
    | none => []
  let early := (atHead ++ atRecall).filter (fun x => x.1 == a)
  let ws := bobbed.flatMap (writeOf a line) ++ early.reverse.map (·.2) ++
    (queued ++ staged).flatMap (writeOf a line)
  let h := (bobbed ++ queued ++ staged).foldl (fun h r => replyCmp h r r.bob 0 false none) h
  let h := bobbed.foldl (fun h r => bobFree h r.bob) h
  let h := { h with coh := { h.coh with staging := h.coh.staging.filter (fun x => !isWriteOf a line x.req)
                                        hoQueue := h.coh.hoQueue.filter (fun x => !isWriteOf a line x.req) } }
  let h := modChain h line (fun c => { c with waiting := c.waiting.filter (fun r => !isWriteOf a line r),
                                              wbs := c.wbs.filter (fun r => !isWriteOf a line r) })
  let h := if l.waiting.any (isWriteOf a line) then
      putRlc h line { l with waiting := l.waiting.filter (fun r => !isWriteOf a line r) } else h
  (h, joinWrites ws)

/-- An answer of a local agent, to a recall of the RLC or to the home (R191, Table TRN-4). -/
def localAnswer (h : Hub) (line : LineAddr) (a : AgentId) (keepS : Bool) (dirty : Option (LineData × BitVec 64 × Bool)) :
    Option Hub :=
  match recallAnswer h line a keepS dirty with
  | some h' => some h'
  | none =>
    match dirty with
    | some (d, mask, p) => homeAnswer h line a (.wb keepS d p mask)
    | none => homeAnswer h line a (if keepS then .rspS else .rspI)

/-- A device's answer to the home is in: its DirtyEvict that waited for it is complete, and what it still sends is not
wanted (R189, R192). -/
def homeEvicts (h : Hub) (line : LineAddr) (a : AgentId) : Hub :=
  let mine := fun (r : Req) => r.agent == a && (match r.op with
    | .evict => true
    | _ => false)
  ((chainOf h line).wbs.filter mine).foldl discardWb
    (modChain h line (fun c => { c with wbs := c.wbs.filter (fun r => !mine r) }))

/-- What becomes of an answer no state awaits (R160). -/
def strayAnswer (h : Hub) (line : LineAddr) (a : AgentId) (opc : Nat) : Hub :=
  if (headOf h line).isSome || (rlcLine h line).recalled.isSome then protoErr h line opc a else orphan h line opc a

/-- BIRSP (R191). -/
def execBirsp (b : Bay) (line : LineAddr) (shared : Bool) (s : State) : Res :=
  .next (s.onCoh fun h =>
    let a := bayAgent h b.val
    if !hostOk h b.val then h
    else if agentDead h a then bump h pDED Fld.DED.LATE_MSG_CNT
    else
      let (h1, dirty) := takeWrites h line a
      match localAnswer h1 line a shared dirty with
      | some h' => h'
      | none => strayAnswer h line a (if shared then 0x21 else 0x20))

/-- A snoop to an agent is outstanding for a line. -/
def snoopOut (h : Hub) (line : LineAddr) (a : AgentId) : Bool :=
  (match headOf h line with
  | some t => (t.st = .inv || t.st = .sdat) && t.awaited.contains a
  | none => false) ||
  (match (rlcLine h line).recalled with
  | some rc => rc.awaited.contains a
  | none => false)

/-- BICONFLICT (R164). -/
def execBiconflict (b : Bay) (line : LineAddr) (s : State) : Res :=
  .next (s.onCoh fun h =>
    let a := bayAgent h b.val
    if !hostOk h b.val then h
    else if snoopOut h line a then bayPut h b.val (.biConflictAck b.val line) none srcInternal (fld h pBOB Fld.BOB.PRI_SNP)
    else strayAnswer h line a 0)

/-! ### CXL.cache of a device -/

/-- The link of a D bay carries CXL.cache. -/
def devOk (h : Hub) (b : Nat) : Bool := leadOf h b == b && roleOf h b == 2 && bayUp h b && (bayRt h b).cacheDev

/-- A device's request. -/
def devArrive (h : Hub) (b : Bay) (op : ReqOp) (line : LineAddr) (pool : Nat) : Hub :=
  if devOk h b.val then localArrive h b.val (.dev b.val) op line false pool else h

/-- D2H_READ (Table COH-7). -/
def execD2hRead (b : Bay) (op : D2hRd) (tpa : LineAddr) (s : State) : Res :=
  .next (s.onCoh fun h => devArrive h b (match op with
    | .rdShared => .rdShared
    | .rdAny => .rdAny
    | .rdOwn => .rdOwn
    | .rdCurr => .rdCur
    | .rdOwnNoData => .upgrade) tpa 0)

/-- D2H_WRITE (Table COH-7, R158): a whole line, or the bytes of the mask; the data follows in D2H_DATA. -/
def execD2hWrite (b : Bay) (_op : D2hWr) (tpa : LineAddr) (mask : BitVec 64) (s : State) : Res :=
  .next (s.onCoh fun h =>
    devArrive h b (if mask = BitVec.allOnes 64 then .wrFull 0 else .wrPart 0 mask) tpa 0)

/-- CLFLUSH (Table COH-7). -/
def execClflush (b : Bay) (tpa : LineAddr) (s : State) : Res := .next (s.onCoh fun h => devArrive h b .flush tpa 0)

/-- DIRTYEVICT (R192). -/
def execDirtyevict (b : Bay) (tpa : LineAddr) (s : State) : Res :=
  .next (s.onCoh fun h =>
    let h1 := devArrive h b .evict tpa 1
    if devOk h b.val && agentDead h (bayAgent h b.val) then bump h1 pDED Fld.DED.LATE_MSG_CNT else h1)

/-- CLEANEVICT (R163); the completions are those of Table COH-11, which CXL 3.1 also has for a notice that is taken
(PRESUMED, log entry 29). -/
def execCleanevict (b : Bay) (tpa : LineAddr) (noData : Bool) (s : State) : Res :=
  .next (s.onCoh fun h =>
    if devOk h b.val then
      localNotice h b.val (some tpa) (if noData then .go b.val tpa 0 else .goWritePullDrop b.val tpa)
    else h)

/-- CACHEFLUSHED: accepted, answered GO with state I (PRESUMED, log entry 29), no directory change. -/
def execCacheflushed (b : Bay) (s : State) : Res :=
  .next (s.onHub fun h =>
    if devOk h b.val then
      let h := if modeRejects h (bayAgent h b.val) then modeReject h b.val else h
      bayPut h b.val (.go b.val 0 0) none srcInternal (fld h pBOB Fld.BOB.PRI_D)
    else h)

/-- D2H_RSP (R191, Table TRN-4); an RspIHitI is a stale answer (R175). -/
def execD2hRsp (b : Bay) (op : D2hRspOp) (line : LineAddr) (d : LineData) (poison : Bool) (s : State) : Res :=
  .next (s.onCoh fun h =>
    let a := bayAgent h b.val
    if !devOk h b.val then h
    else if agentDead h a then bump h pDED Fld.DED.LATE_MSG_CNT
    else
      let full := BitVec.allOnes 64
      let (keepS, dirty) : Bool × Option (LineData × BitVec 64 × Bool) := match op with
        | .rspIHitI => (false, none)
        | .rspIHitSE => (false, none)
        | .rspSHitSE => (true, none)
        | .rspIFwdM => (false, some (d, full, poison))
        | .rspSFwdM => (true, some (d, full, poison))
      match localAnswer h line a keepS dirty with
      | some h' =>
        let h' := homeEvicts h' line a
        if op = .rspIHitI then bump h' pCOH Fld.COH.SNP_STALE else h'
      | none => strayAnswer h line a (match dirty with
          | some _ => 0x41
          | none => if keepS then 0x21 else 0x20))

/-- Device data for a write to a line homed on a peer: the pulled request goes on to the RLC. -/
def rlcPulled (h : Hub) (r : Req) (d : LineData) (poison : Bool) : Hub :=
  let h := { h with coh := { h.coh with pulls := h.coh.pulls.erase r } }
  rlcLocal h { r with poison := poison, op := match r.op with
    | .wrPart _ mask => .wrPart d mask
    | _ => .wrFull d }

/-- The data of a DirtyEvict for a line homed on a peer: with an answer of the device that waits for it, it is the answer's
dirty data; otherwise it is merged where the device still owns the line, and discarded where it does not (R192). -/
def rlcEvicted (h : Hub) (line : LineAddr) (a : AgentId) (d : LineData) (poison : Bool) : Hub :=
  let l := rlcLine h line
  let l := { l with pulled := l.pulled.erase a }
  match l.recalled with
  | some rc =>
    (match rc.half.find? (fun x => x.1 == a) with
    | some (_, keepS) =>
      let h := putRlc h line { l with recalled := some { rc with half := rc.half.filter (fun x => x.1 != a) } }
      (recallAnswer h line a keepS (some (d, BitVec.allOnes 64, poison))).getD h
    | none => putRlc h line l)
  | none =>
    let h := putRlc h line l
    if rlcOwned h line a && l.st.owns then rlcWriteBack h line a d (BitVec.allOnes 64) poison .i else h

/-- D2H_DATA (R192): pulled data is written, merged into the RLC's copy, or discarded where nothing waits for it. -/
def execD2hData (b : Bay) (line : LineAddr) (d : LineData) (poison : Bool) (s : State) : Res :=
  .next (s.onCoh fun h =>
    let a := bayAgent h b.val
    if !devOk h b.val then h
    else if agentDead h a then bump h pDED Fld.DED.LATE_MSG_CNT
    else
      match homePulled h line a d poison with
      | some h' => h'
      | none =>
        match h.coh.pulls.find? (fun r => r.agent == a && r.line == line) with
        | some r => rlcPulled h r d poison
        | none => if (rlcLine h line).pulled.contains a then rlcEvicted h line a d poison else h)

/-- GET_POISON_LIST (R271): LINE entries and marked granules within the host's decoded ranges, in its HPA. -/
def execGetPoisonList (b : Bay) (s : State) : Res :=
  .next (s.onHub fun h =>
    if !hostOk h b.val then h
    else
      let ds := hdmDecs h b.val
      let lines := ds.flatMap (fun d => (h.psn.entries.filter (fun e =>
        e.2.kind == 1 && d.tpa ≤ e.2.line && e.2.line < d.tpa + d.size)).map (fun e => d.hpaAt (e.2.line - d.tpa)))
      let marks := ds.flatMap (fun d => (h.psn.marks.filter (fun m =>
        d.tpa < (m.1 + 1) * 2 ^ 24 && m.1 * 2 ^ 24 < d.tpa + d.size)).map (fun m => d.hpaAt (m.1 * 2 ^ 24 - d.tpa)))
      emit h (.poisonList b.val lines marks))

/-! ### The slice's events -/

/-- INGRESS_GRANT (R233, R236). -/
def execIngressGrant (sl : Slice) (s : State) : Res := .next (s.onCoh fun h => ingressGrant h sl.val)

/-- WAY_STALL_RESUME (R211). -/
def execWayStallResume (sl : Slice) (s : State) : Res := .next (s.onCoh fun h => stallResume h sl.val)

/-- WRITE_STAGING_DEQUEUE (R231). -/
def execWriteStagingDequeue (sl : Slice) (s : State) : Res := .next (s.onCoh fun h => stagingDequeue h sl.val)

/-- DIRECTORY_READ_RETURN (R217, R220). -/
def execDirectoryReadReturn (line : LineAddr) (err : Bool) (s : State) : Res :=
  .next (s.onCoh fun h => dirReturn h line err)

/-- MEDIA_READ_DATA (R186, R222). -/
def execMediaReadData (line : LineAddr) (err : Bool) (s : State) : Res := .next (s.onCoh fun h => readDone h line err)

/-- MEDIA_WRITE_COMPLETE (R188). -/
def execMediaWriteComplete (line : LineAddr) (ok : Bool) (s : State) : Res :=
  .next (s.onCoh fun h => writeDone h line ok)

/-- MEDIA_COMPLETION_TIMEOUT (R482): the way is unreachable until its link is back in DL_Active. -/
def execMediaCompletionTimeout (way : Nat) (s : State) : Res :=
  .next (s.onCoh fun h =>
    if h.prk.timedOut.contains way then h else { h with prk := { h.prk with timedOut := way :: h.prk.timedOut } })

/-- DIR_WRITEBACK_COMPLETE (R212, R482). -/
def execDirWritebackComplete (idx : Nat) (ok : Bool) (s : State) : Res := .next (s.onCoh fun h => wbDone h idx ok)

/-- PRK_FORMAT (R207). -/
def prkFormat (h : Hub) : Hub × List AccKind :=
  if h.mode.mode = .assemble && !flag h pPRK Fld.PRK.STAT_FORMAT_BUSY then (formatStart h, []) else (h, [.stateRefused])

/-- PRK_FORMAT (R207): a write of 1 to CTL.FORMAT. -/
def execPrkFormat (o : Origin) (s : State) : Res := .next (s.onCoh fun h => guardedK h o pPRK 0x104 1 prkFormat)

/-- PRK_FLUSH (R212): a write of 1 to CTL.FLUSH. -/
def execPrkFlush (o : Origin) (s : State) : Res := .next (s.onCoh fun h => guarded h o pPRK 0x104 2 flushStart)

/-- FLUSH_DONE (R212): the write-back buffer is empty. -/
def execFlushDone (s : State) : Res :=
  .next (s.onHub fun h =>
    if flag h pPRK Fld.PRK.STAT_FLUSH_BUSY && h.prk.wbBuf.isEmpty then setFld h pPRK Fld.PRK.STAT_FLUSH_BUSY 0 else h)

/-! ### Starvation and audit -/

/-- hc of STARVE_LIMIT (R239). -/
def starveLimit (h : Hub) : Nat := fld h pBOB Fld.BOB.CFG_STARVE_US * 2000

/-- The request at a place of the ingress queues enters its starvation lane. -/
def enterLane (h : Hub) (i : Nat) (x : Ing) : Hub :=
  { h with coh := { h.coh with ingress := h.coh.ingress.set i { x with lane := some h.coh.laneSeq },
                               laneSeq := h.coh.laneSeq + 1 } }

/-- A staged message enters its lane. -/
def stageLane (h : Hub) (x : Staged) : Hub :=
  { h with coh := { h.coh with staging := h.coh.staging.replace x { x with lane := some h.coh.laneSeq },
                               laneSeq := h.coh.laneSeq + 1 } }

/-- An entry into a starvation lane, its wait having exceeded STARVE_LIMIT, is counted (R239). -/
def starved (h : Hub) (since : Nat) (enter : Hub → Hub) : Hub :=
  setIstat (bump (enter (advanceTo h (since + starveLimit h + 1))) pBOB Fld.BOB.STARVE_CNT) pBOB 1

/-- STARVATION_TIMEOUT (R239): head number idx of the slice's ingress queues, and after those of its staged messages that are
candidates, enters the lane of its pool. -/
def execStarvationTimeout (sl : Slice) (idx : Nat) (s : State) : Res :=
  .next (s.onHub fun h =>
    match (ingressHeads h sl.val)[idx]? with
    | some (i, x) =>
      if x.lane.isSome then h else starved h x.since (fun h => enterLane h i x)
    | none =>
      match (h.coh.staging.filter (fun x => x.slice == sl.val && stagedFirst h x && !needsNone h x))[
          idx - (ingressHeads h sl.val).length]? with
      | some x => if x.lane.isSome then h else starved h x.since (fun h => stageLane h x)
      | none => h)

/-- The imbalance can be outside its window: a unit not echoed on a link that is up; no FROZEN granule (R247). The
books of the other quantities are the hardware's own, and the row itself says that one stayed out of balance. -/
def auditOpen (h : Hub) (q idx : Nat) : Bool :=
  if q = 0 then
    let l := tlink h (idx / 8)
    l.up && l.retSent.getD (idx % 8) 0 != l.echoSeen.getD (idx % 8) 0
  else if q = 6 then !(homeEntry h idx).frozen
  else q < 6

/-- The first imbalance is latched with its time (R247). -/
def auditFirst (h : Hub) (q idx : Nat) : Hub :=
  if fld h pBOB Fld.BOB.AUDIT_STAT = 0 then
    let h := setFld h pBOB Fld.BOB.AUDIT_FIRST_QTY q
    let h := setFld h pBOB Fld.BOB.AUDIT_FIRST_INDEX idx
    setFld64 h pBOB Fld.BOB.AUDIT_TIME_LO Fld.BOB.AUDIT_TIME_HI h.htime
  else h

/-- AUDIT_TIMEOUT (R247). -/
def execAuditTimeout (q idx : Nat) (s : State) : Res :=
  .next (s.onHub fun h =>
    if !flag h pBOB Fld.BOB.CFG_AUDIT_EN || !auditOpen h q idx then h
    else
      let stat := fld h pBOB Fld.BOB.AUDIT_STAT
      let h := setFld (auditFirst h q idx) pBOB Fld.BOB.AUDIT_STAT (stat ||| 2 ^ q)
      setIstat (errlog h pBOB 1 0 (q + 16 * (idx % 2 ^ 20))) pBOB 2)

/-! ### Dead agents -/

/-- DEAD_LINK_TIMEOUT (R250). -/
def execDeadLinkTimeout (b : Bay) (s : State) : Res :=
  .next (s.onCoh fun h =>
    match (bayRt h b.val).downSince with
    | some t =>
      if !bayUp h b.val && bayIsAgent h b.val then
        declareDead (advanceTo h (t + fld h pDED Fld.DED.CFG_LINK_TO_MS * 2000000 + 1)) (bayAgent h b.val) 1
      else h
    | none => h)

/-- HTIME at which the oldest snoop to an agent that the home awaits was sent. -/
def snoopSince (h : Hub) (a : AgentId) : Option Nat :=
  (h.coh.chains.filterMap (fun c => match c.2.head with
    | some t => if (t.st = .inv || t.st = .sdat) && t.awaited.contains a then some t.since else none
    | none => none)).foldl (fun m t => match m with
      | some x => some (min x t)
      | none => some t) none

/-- DEAD_SNOOP_TIMEOUT (R243, R250). -/
def execDeadSnoopTimeout (b : Bay) (s : State) : Res :=
  .next (s.onCoh fun h =>
    let a := bayAgent h b.val
    match snoopSince h a with
    | some t => declareDead (advanceTo h (t + fld h pDED Fld.DED.CFG_SNP_TO_MS * 2000000)) a 2
    | none =>
      if h.coh.rlc.any (fun e => match e.2.recalled with
          | some rc => rc.awaited.contains a
          | none => false) then declareDead h a 2
      else h)

/-- DEAD_ALERT_EXPIRY (R251). -/
def execDeadAlertExpiry (s : State) : Res :=
  .next (s.onHub fun h =>
    match h.dead.alerts with
    | [] => h
    | t :: ts =>
      let h := advanceTo h (t + 2000000)
      atPage { h with dead := { h.dead with alerts := ts } } pDED
        (fun h => { h with alerts := { h.alerts with deaths := h.alerts.deaths - 1 } }))

/-- TXN_TIMEOUT (R260). -/
def execTxnTimeout (line : LineAddr) (s : State) : Res := .next (s.onCoh fun h => txnTimeout h line)

/-! ### Egress and credits -/

/-- EGRESS_GRANT (R129, R135, R234): one flit of a T link, or one message of a bay, whose last flit gives the ACK of a
local grant (R180). -/
def execEgressGrant (p : EgressPoint) (s : State) : Res :=
  .next (s.onCoh fun h =>
    match p with
    | .tlink b => egressLink h b.val (reqWithheld h (atBound h))
    | .bay b =>
      let (h, ack) := egressBay h b.val
      match ack with
      | some line => (homeAck h line (bayAgent h b.val)).getD h
      | none => h)

/-- A credit block arrives: the units newly counted in RET become available, up to those advertised, and the replay buffer
lets the messages go that they stood for (R134, R246). -/
def creditsBack (l : TLink) (ret ech : List Nat) : TLink :=
  let av := (List.range 8).map (fun v =>
    min (l.adv.getD v 0) (l.avail.getD v 0 + (ret.getD v 0 % 4096 + 4096 - l.retSeen.getD v 0) % 4096))
  { l with avail := av
           retSeen := (List.range 8).map (fun v => ret.getD v 0 % 4096)
           echoSeen := (List.range 8).map (fun v => ech.getD v 0 % 4096)
           replay := (List.range 8).foldl (fun q v => trimReplay q v (l.adv.getD v 0 - av.getD v 0)) l.replay }

/-- FLIT_CREDIT_BLOCK (R134, R246). -/
def execFlitCreditBlock (b : Bay) (ret ech : List Nat) (s : State) : Res :=
  .next (s.onHub fun h => if (tlink h b.val).up then modLink h b.val (fun l => creditsBack l ret ech) else h)

/-- CREDIT_FLIT_TIMER (R134): units to return or to echo and no message to send: a credit-only flit goes out. -/
def execCreditFlitTimer (b : Bay) (s : State) : Res :=
  .next (s.onHub fun h =>
    let l := tlink h b.val
    let held := reqWithheld h (atBound h)
    let owes := (List.range 8).any (fun v => l.retOwed.getD v 0 != 0 && !(v == 0 && held)) || l.echoSent != l.retSeen
    if l.up && owes && (egressPick h l).isNone then
      let (h, ret, ech) := creditBlock h b.val held
      emit h (.flit b.val ret ech 0 false)
    else h)

end Sys2Proof.Machine
end

