-- ==== Sys2Proof/Machine/Registers.lean ====
section
/-! DEFINITION. The general register access (R97 to R103): shapes of Table PAG-5 over the three windows, and for each
register of REGWIN what a 32-bit write of it does, joining the page port to the blocks. -/

namespace Sys2Proof.Machine

/-! ### Registers with an effect of their own -/

/-- A write triggers a WO field: written with 1, by a class that reaches it, under no LOCK that refuses it. -/
def triggers (h : Hub) (o : Origin) (pg : Nat) (f : FieldDef) (v : Nat) : Bool :=
  bit v f.lo && f.cls.rank ≤ (clsOf o).rank && !lockRefuses h (clsOf o) pg

/-- A write of CSELk: SUM with an event outside 0x300 to 0x3FF and EDGE with one inside are reserved encodings (R369). -/
def cselWrite (h : Hub) (o : Origin) (pg off v : Nat) : Hub :=
  let ev := bits v 0 10
  let md := bits v 10 2
  guardedK h o pg off v (fun h =>
    if (md = 3 && ev < 0x300) || (md = 1 && 0x300 ≤ ev) then (h, [.reservedEnc])
    else ((applyFields h (clsOf o) false pg (regFields pg off) v).1, []))

/-- A write of the high half of CVALk (R102, R368). -/
def cvalWrite (h : Hub) (o : Origin) (pg off v : Nat) : Hub :=
  highWriteK h o pg off v (fun h lo => (setCval h pg ((off - 0x0A4) / 8) (lo + 2 ^ 32 * (v % 2 ^ 16)), []))

/-- A write of CCTL (R371). -/
def cctlWrite (h : Hub) (o : Origin) (pg v : Nat) : Hub :=
  fieldWrite h o pg 0x0E0 v false (fun h1 => if triggers h o pg Fld.HDR.CCTL_CLEAR v then countersClear h1 pg else h1)

/-- A write of a register of the common header (Table PAG-2). -/
def headerWrite (h : Hub) (o : Origin) (pg off v : Nat) : Hub :=
  if off = 0x010 then fieldWrite h o pg off v false (fun h1 => afterRouteWrite h h1 pg)
  else if off = 0x018 || off = 0x01C then irqWrite h o pg off v
  else if off = 0x020 then guarded h o pg off v (fun h => iforce h pg v)
  else if off = 0x024 then errlogWrite h o pg v
  else if off = 0x040 then lockRegWrite h o pg v
  else if off = 0x044 then guarded h o pg off v (fun h => ownerWrite h pg v)
  else if 0x080 ≤ off && off < 0x0A0 then cselWrite h o pg off v
  else if 0x0A0 ≤ off && off < 0x0E0 then
    if off % 8 = 0 then lowWriteK h o pg off v false else cvalWrite h o pg off v
  else if off = 0x0E0 then cctlWrite h o pg v
  else plainWrite h o pg off v

/-- A write of PIN.SYNC: with OUT_EN 0 the output is held low (Table PKG-11). -/
def syncWrite (h : Hub) (o : Origin) (v : Nat) : Hub :=
  fieldWrite h o pPIN 0x10C v false (fun h =>
    if flag h pPIN Fld.PIN.SYNC_OUT_EN then h else { h with pins := { h.pins with syncOut := false } })

/-- A write of PWR.PFAIL_CFG (R453). -/
def pfailCfgWrite (h : Hub) (o : Origin) (v : Nat) : Hub :=
  guardedK h o pPWR 0x104 v (fun h =>
    let us := bits v 0 13
    let bad := us < 5 || 5000 < us
    let h := if bad then h else setFld h pPWR Fld.PWR.PFAIL_CFG_DISC_US us
    let (h, k1) := if bit v 13 then reinclude h .a else (h, [])
    let (h, k2) := if bit v 14 then reinclude h .b else (h, [])
    (h, (if bad then [.reservedEnc] else []) ++ k1 ++ k2))

/-- A write of MOD.CTL (R447, R448): SERVE_OK and a mode request in one. -/
def modCtlWrite (h : Hub) (o : Origin) (v : Nat) : Hub :=
  guardedK h o pMOD 0x104 v (fun h =>
    let h := setFld h pMOD Fld.MOD.CTL_SERVE_OK (bits v 3 1)
    match bits v 0 3 with
    | 0 => (h, [])
    | 1 => (reqServe h, [])
    | 2 => (reqDrain h, [])
    | 3 => (reqMaintain h, [])
    | _ => (h, [.reservedEnc]))

/-- A write of MOD.HO_CTL (R456). -/
def hoCtlWrite (h : Hub) (o : Origin) (v : Nat) : Hub :=
  guardedK h o pMOD 0x114 v (fun h =>
    let us := bits v 1 12
    let bad := us = 0 || 4000 < us
    let h := if bad then h else setFld h pMOD Fld.MOD.HO_CTL_FREEZE_MAX_US us
    (if bit v 0 then handStart h else h, if bad then [.reservedEnc] else []))

/-- A write of HMAP.ST_ENTRY: the staged entry of ST_INDEX, its FROZEN bit ignored (Table TUL-6); the reserved ATOMIC
leaves that field (R8). -/
def stEntryWrite (h : Hub) (o : Origin) (v : Nat) : Hub :=
  guardedK h o pHMAP 0x114 v (fun h =>
    let i := fld h pHMAP Fld.HMAP.ST_INDEX
    let e := { wordEntry v with frozen := false }
    let bad := e.atomic == 3
    let e := if bad then { e with atomic := (mapGet h.tulle.stage i unmappedEntry).atomic } else e
    (modTulle h (fun t => { t with stage := mapSet t.stage i e unmappedEntry }), if bad then [.reservedEnc] else []))

/-- A write of HMAP.ST_CTL (Table TUL-6); with both bits the stage is renewed first. -/
def stCtlWrite (h : Hub) (o : Origin) (v : Nat) : Hub :=
  guarded h o pHMAP 0x118 v (fun h =>
    let h := if bit v 0 then restage h else h
    if bit v 1 then proposeStaged h else h)

/-- A write of PRK.CTL (R207, R212): FORMAT is of class Z. -/
def prkCtlWrite (h : Hub) (o : Origin) (v : Nat) : Hub :=
  guardedK h o pPRK 0x104 v (fun h =>
    let (h, ks) := if bit v 0 && clsOf o == .z then prkFormat h else (h, [])
    (if bit v 1 then flushStart h else h, ks))

/-- P is not zero and a granule is homed on this hub (R224). -/
def mediaHeld (h : Hub) : Bool := fld h pPRK Fld.PRK.LOCAL_PROV != 0 && localCount h != 0

/-- A write of COH.CFG: PRED_CLEAR sets every predictor counter to 1 (Table COH-9). -/
def cohCfgWrite (h : Hub) (o : Origin) (v : Nat) : Hub :=
  fieldWrite h o pCOH 0x100 v false (fun h1 =>
    if triggers h o pCOH Fld.COH.CFG_PRED_CLEAR v then { h1 with coh := { h1.coh with pred := [] } } else h1)

/-- The services of the mailbox by code (Table TRU-10, carrier M). -/
def mbCodes : List Nat := [0x01, 0x02, 0x03, 0x04, 0x10, 0x11, 0x12, 0x13, 0x14, 0x15, 0x20, 0x21, 0x30]

/-- A call starts; a code without a service ends at once with BAD_CALL (R414). -/
def callStart (h : Hub) : Hub :=
  let code := fld h pTRU Fld.TRU.MB_CMD_CODE
  let h := { h with trust := { h.trust with call := code } }
  if mbCodes.contains code then setFld h pTRU Fld.TRU.MB_STAT_BUSY 1 else complete h 1 []

/-- A write of TRU.MB_GO (R414). -/
def mbGoWrite (h : Hub) (o : Origin) (v : Nat) : Hub :=
  guardedK h o pTRU 0x104 v (fun h =>
    if flag h pTRU Fld.TRU.MB_STAT_BUSY then (h, [.stateRefused]) else (if bit v 0 then callStart h else h, []))

/-- The 64-bit value of a ring base, RD_SEQ or another RW register is written with its high half (R102). -/
def wide64 (h : Hub) (o : Origin) (pg off v : Nat) (lo hi : FieldDef) : Hub :=
  highWriteK h o pg off v (fun h x => (setFld64 h pg lo hi (x + 2 ^ 32 * v), []))

/-- A write of a register of PIC (R344 to R353, R364). -/
def picWrite (h : Hub) (o : Origin) (off v : Nat) : Hub :=
  if off < 0x400 || 0xC00 ≤ off then plainWrite h o pPIC off v
  else
    let c := (off - 0x400) / 32
    match (off - 0x400) % 32 with
    | 0x00 => lowWriteK h o pPIC off v (hubsOwn c)
    | 0x04 => chanWrite h o c .cmpHi v
    | 0x08 => chanWrite h o c .interval v
    | 0x0C => chanWrite h o c .phase v
    | 0x10 => chanWrite h o c .ctl v
    | _ => plainWrite h o pPIC off v

/-- A write of a register of EVT (R356 to R364). -/
def evtWrite (h : Hub) (o : Origin) (off v : Nat) : Hub :=
  if off = 0x100 then taskIrqWrite h o false v
  else if off = 0x104 then taskIrqWrite h o true v
  else if off = 0x108 then swfireWrite h o v
  else if 0x200 ≤ off && off < 0xA00 && (off - 0x200) % 32 < 0x10 then
    fieldWrite h o pEVT off v (hubsOwn ((off - 0x200) / 32)) (fun h => h)
  else if 0x200 ≤ off && off < 0xA00 && (off - 0x200) % 32 = 0x10 then
    guardedK h o pEVT off v (fun h => taskWrite h ((off - 0x200) / 32) v)
  else plainWrite h o pEVT off v

/-- A write of a register of TRU (R414). -/
def truWrite (h : Hub) (o : Origin) (off v : Nat) : Hub :=
  if off = 0x104 then mbGoWrite h o v
  else fieldWrite h o pTRU off v (0x10C ≤ off && off != 0x114 && off < 0x400 && flag h pTRU Fld.TRU.MB_STAT_BUSY) (fun h => h)

/-- A write of a block register of a page with a type of its own. -/
def blockWrite (h : Hub) (o : Origin) (pg off v : Nat) : Hub :=
  match pg with
  | 1 => if off = 0x104 then accerrWrite h o v else plainWrite h o pg off v
  | 3 =>
    if off = 0x104 then pfailCfgWrite h o v
    else if off = 0x124 then fieldWrite h o pg off v false thermJudge
    else if 0x140 ≤ off && off < 0x180 then
      if v % 4 = 3 then plainWrite h o pg off v else withStops (fun h => domWrite h o ((off - 0x140) / 4) (v % 4)) h
    else plainWrite h o pg off v
  | 4 => if off = 0x10C then syncWrite h o v else plainWrite h o pg off v
  | 5 => if off = 0x104 then modCtlWrite h o v else if off = 0x114 then hoCtlWrite h o v else plainWrite h o pg off v
  | 7 => if off = 0x114 then stEntryWrite h o v else if off = 0x118 then stCtlWrite h o v else plainWrite h o pg off v
  | 9 =>
    if off = 0x104 then prkCtlWrite h o v
    else fieldWrite h o pg off v ((off = 0x110 || off = 0x114) && mediaHeld h) (fun h => h)
  | 10 => if off = 0x100 then cohCfgWrite h o v else plainWrite h o pg off v
  | 15 => if off = 0x104 then guardedK h o pg off v (fun h => qassign h v) else plainWrite h o pg off v
  | 17 =>
    if off = 0x104 then lowWriteK h o pg off v false
    else if off = 0x108 then wide64 h o pg off v Fld.ACN.RING_BASE_LO Fld.ACN.RING_BASE_HI
    else plainWrite h o pg off v
  | 18 => picWrite h o off v
  | 19 => evtWrite h o off v
  | 20 =>
    if off = 0x108 then lowWriteK h o pg off v false
    else if off = 0x10C then wide64 h o pg off v Fld.CNT.DUMP_BASE_LO Fld.CNT.DUMP_BASE_HI
    else plainWrite h o pg off v
  | 21 =>
    if off = 0x100 then smpCfgWrite h o v
    else if off = 0x108 then lowWriteK h o pg off v false
    else if off = 0x10C then wide64 h o pg off v Fld.SMP.RING_BASE_LO Fld.SMP.RING_BASE_HI
    else plainWrite h o pg off v
  | 22 => truWrite h o off v
  | 25 =>
    if off = 0x11C then lowWriteK h o pg off v false
    else if off = 0x120 then wide64 h o pg off v Fld.SCB.RD_SEQ_LO Fld.SCB.RD_SEQ_HI
    else if off = 0x148 then guardedK h o pg off v (fun h => if bit v 0 then fetchStart h else (h, []))
    else plainWrite h o pg off v
  | _ =>
    if pg < 64 then plainWrite h o pg off v
    else if pg < 112 then
      if off = 0x100 then guardedK h o pg off v (fun h => roleWrite h (pg - 64) v)
      else if off = 0x104 then afterLinkcfg h (plainWrite h o pg off v) (pg - 64)
      else plainWrite h o pg off v
    else if off = 0x100 then noMoverCheck (plainWrite h o pg off v)
    else plainWrite h o pg off v

/-- An aligned 32-bit write of REGWIN (R103). KEP.CTL.PROBE starts probes, which end by their own commands (R432). -/
def regWrite32 (h : Hub) (o : Origin) (pg off v : Nat) : Hub :=
  if !decodes h o then h
  else if !pageExists pg then accErr h .noPage (regAccess o pg off) true
  else if off < 0x100 then headerWrite h o pg off v
  else blockWrite h o pg off v

/-! ### Shapes of a write (Table PAG-5) -/

/-- BE of an error that one DW of a multi-DW access has logged: the bytes of the access among the 8 from that DW on
(R110). -/
def beShown (h h1 : Hub) (a : Access) (off : Nat) : Hub :=
  if (a.nbytes != off - a.off + 4 || !a.gaps.isEmpty) && !flag h pPAG Fld.PAG.ACCERR_VALID &&
      flag h1 pPAG Fld.PAG.ACCERR_VALID && fld h1 pPAG Fld.PAG.ACCERR_OFFSET = off &&
      fld h1 pPAG Fld.PAG.ACCERR_PAGE = a.page then
    setFld h1 pPAG Fld.PAG.ACCERR_BE (accBe { a with off := off, nbytes := a.nbytes - (off - a.off) })
  else h1

/-- The parts of a multi-DW write in ascending order, one hc each; a part of a DW is dropped as a narrow write. `dw` does a
whole DW. -/
def writeParts (h : Hub) (a : Access) (v : Nat) (dw : Hub → Nat → Nat → Hub) : List (Nat × Nat) → Hub
  | [] => h
  | (off, n) :: t =>
    let x := v / 2 ^ (8 * (off - a.off)) % 2 ^ (8 * n)
    let h1 := if n = 4 then dw h off x else accErr h .narrowWrite { a with off := off, nbytes := n } true
    let h1 := beShown h h1 a off
    writeParts (if t.isEmpty then h1 else advance h1 1) a v dw t

/-- A write of REGWIN. -/
def writeRegwin (h : Hub) (a : Access) (v : Nat) : Hub :=
  if !pageExists a.page then accErr h .noPage a true
  else if unaligned a then accErr h .unalignedWrite a true
  else writeParts h a v (fun h off x => regWrite32 h a.origin a.page off x) (dwParts (a.nbytes + 1) a.off a.nbytes)

/-- The doorbell unit that 64 bytes spell (Table MOV-3). -/
def dbUnitOf (v : Nat) : DbUnit :=
  let setup := bit v 66
  let rest := if setup then bits v 288 224 else bits v 128 384
  { sqTail := bits v 0 32, cqHead := bits v 32 32, sqValid := bit v 64, cqValid := bit v 65, setup := setup,
    sqBase := bits v 128 64, cqBase := bits v 192 64, sqLog2 := bits v 256 8, cqLog2 := bits v 264 8,
    vector := bits v 272 16, zeroOk := bits v 67 61 == 0 && rest == 0, first4 := bits v 0 32 }

/-- A whole DW written to a DBWIN page beside its windows: RO and RSVD fields take nothing from an origin that may write
the page (R6, R7, Table MOV-2); from any other the write is dropped and logged (R276). -/
def dbDw (h : Hub) (a : Access) (off : Nat) : Hub :=
  if ringsQueue h a.origin a.page then h else accErr h .classWrite { a with off := off, nbytes := 4 } true

/-- A write of DBWIN (R97, R276): units reach their windows, and nothing else is applied. -/
def writeDbwin (h : Hub) (a : Access) (v : Nat) : Hub :=
  if unaligned a then accErr h .unalignedWrite a true
  else if a.nbytes = 64 && a.off = 0 then doorbell h a.origin a.page (dbUnitOf v)
  else if a.nbytes = 64 && a.off = 0x40 then push h a.origin a.page (BitVec.ofNat 512 v)
  else if a.off < 0x80 then accErr h .partialUnit a true
  else
    writeParts h a v (fun h off _ => dbDw h a off)
      (dwParts (a.nbytes + 1) a.off a.nbytes)

/-- A write of a window (R89, R97); pages from 512 on are the upper half of BAR0 (R85). -/
def writeWin (h : Hub) (a : Access) (v : Nat) : Hub :=
  match a.win with
  | .regwin => if 512 ≤ a.page then barWrite h a v else writeRegwin h a v
  | .dbwin => writeDbwin h a v
  | .perfwin => logKinds h (if pageExists a.page then [.readOnlyWin] else [.noPage]) a true

/-- An access that crosses a page boundary is split there (R98). -/
def crosses (a : Access) : Bool := a.contig && 4096 < a.off + a.nbytes && !unaligned a

/-- The two parts of an access that crosses a page boundary. -/
def splitAt (a : Access) : Access × Access :=
  let k := 4096 - a.off
  ({ a with nbytes := k }, { a with page := a.page + 1, off := 0, nbytes := a.nbytes - k })

/-- A write of whatever shape. -/
def accessWrite (h : Hub) (a : Access) (v : Nat) : Hub :=
  if !decodes h a.origin then h
  else if crosses a then
    let (a1, a2) := splitAt a
    writeWin (advance (writeWin h a1 (v % 2 ^ (8 * a1.nbytes))) 1) a2 (v / 2 ^ (8 * a1.nbytes))
  else writeWin h a v

/-! ### Shapes of a read -/

/-- The word of a DBWIN page (Table MOV-2). -/
def dbWord (h : Hub) (q off : Nat) : Nat :=
  let x := queue h q
  if off = 0x080 then x.accept
  else if off = 0x084 then x.complete
  else if off = 0x088 then x.tail
  else if off = 0x08C then x.head
  else if off = 0x090 then x.st.code + 8 * x.cause
  else 0

/-- The bytes of a DBWIN read, DW by DW. -/
def dbParts (h : Hub) (q : Nat) : List (Nat × Nat) → Nat
  | [] => 0
  | (off, n) :: t => bits (dbWord h q (off / 4 * 4)) (8 * (off % 4)) (8 * n) + 2 ^ (8 * n) * dbParts h q t

/-- A read of DBWIN: served to the origins that may write the page, zero to any other (R276). -/
def readDbwin (h : Hub) (a : Access) : Nat × Hub :=
  if unaligned a then (lanes a (fun _ => 0xFF), accErr h .unalignedRead a false)
  else if ringsQueue h a.origin a.page then (dbParts h a.page (dwParts (a.nbytes + 1) a.off a.nbytes), h)
  else (0, h)

/-- A read of a window; pages from 512 on are the upper half of BAR0 (R85). -/
def readWin (h : Hub) (a : Access) : Nat × Hub :=
  match a.win with
  | .regwin => if 512 ≤ a.page then (barRead h a, h) else readRegwin h a
  | .dbwin => readDbwin h a
  | .perfwin => readPerfwin h a

/-- A read of whatever shape, answered with the bytes from the first enabled one. -/
def accessRead (h : Hub) (a : Access) : Hub :=
  if !decodes h a.origin then h
  else if crosses a then
    let (a1, a2) := splitAt a
    let (v1, h) := readWin h a1
    let (v2, h) := readWin (advance h 1) a2
    emit h (.readData a.origin (v1 + 2 ^ (8 * a1.nbytes) * v2))
  else
    let (v, h) := readWin h a
    emit h (.readData a.origin v)

/-! ### The rows -/

/-- REGISTER_WRITE (R97, R103). -/
def execRegisterWrite (a : Access) (v : Nat) (s : State) : Res := .next (s.onPicot fun h => accessWrite h a v)

/-- RC_READ (R6, R97). -/
def execRcRead (a : Access) (s : State) : Res := .next (s.onHub fun h => accessRead h a)

/-- LOW_HALF_READ (R100, R101). -/
def execLowHalfRead (a : Access) (s : State) : Res := .next (s.onHub fun h => accessRead h a)

/-- HIGH_HALF_READ (R100, R101). -/
def execHighHalfRead (a : Access) (s : State) : Res := .next (s.onHub fun h => accessRead h a)

/-- LOW_HALF_WRITE (R102). -/
def execLowHalfWrite (o : Origin) (page off : Nat) (v : Word) (s : State) : Res :=
  .next (s.onPicot fun h => regWrite32 h o page off v.toNat)

/-- HIGH_HALF_WRITE (R102). -/
def execHighHalfWrite (o : Origin) (page off : Nat) (v : Word) (s : State) : Res :=
  .next (s.onPicot fun h => regWrite32 h o page off v.toNat)

end Sys2Proof.Machine
end

