-- ==== Sys2Proof/Machine/Dispatch.lean ====
section
/-! DEFINITION. The dispatch of a command to its meaning: one arm per constructor of Instr. -/

namespace Sys2Proof.Machine

def exec (i : Instr) (s : State) : Host.Outcome State Fault Refusal :=
  match i with
  | .sequencerStart => Sys2Proof.Machine.execSequencerStart s
  | .fuseSensingDone eccOk => Sys2Proof.Machine.execFuseSensingDone eccOk s
  | .pllLock rc => Sys2Proof.Machine.execPllLock rc s
  | .hclkSwitch => Sys2Proof.Machine.execHclkSwitch s
  | .romStart => Sys2Proof.Machine.execRomStart s
  | .zhozhaStart z => Sys2Proof.Machine.execZhozhaStart z s
  | .coreDomainRelease => Sys2Proof.Machine.execCoreDomainRelease s
  | .mgmtCoreRelease => Sys2Proof.Machine.execMgmtCoreRelease s
  | .formatDone => Sys2Proof.Machine.execFormatDone s
  | .prkFormat o => Sys2Proof.Machine.execPrkFormat o s
  | .prkFlush o => Sys2Proof.Machine.execPrkFlush o s
  | .flushDone => Sys2Proof.Machine.execFlushDone s
  | .hubResetAssert => Sys2Proof.Machine.execHubResetAssert s
  | .hubResetDeassert => Sys2Proof.Machine.execHubResetDeassert s
  | .railBelowWarning r => Sys2Proof.Machine.execRailBelowWarning r s
  | .railAboveWarning r => Sys2Proof.Machine.execRailAboveWarning r s
  | .railBelowReset r => Sys2Proof.Machine.execRailBelowReset r s
  | .refclkLoss => Sys2Proof.Machine.execRefclkLoss s
  | .clockLossReset => Sys2Proof.Machine.execClockLossReset s
  | .refclkReturn => Sys2Proof.Machine.execRefclkReturn s
  | .thermtrip => Sys2Proof.Machine.execThermtrip s
  | .thermtripRelease => Sys2Proof.Machine.execThermtripRelease s
  | .thermalWarning temp => Sys2Proof.Machine.execThermalWarning temp s
  | .pfailAssert ch => Sys2Proof.Machine.execPfailAssert ch s
  | .pfailDeassert ch => Sys2Proof.Machine.execPfailDeassert ch s
  | .pfailExclusion ch => Sys2Proof.Machine.execPfailExclusion ch s
  | .pfailBootExclusion ch => Sys2Proof.Machine.execPfailBootExclusion ch s
  | .pfailReinclude o ch => Sys2Proof.Machine.execPfailReinclude o ch s
  | .braceExit => Sys2Proof.Machine.execBraceExit s
  | .benchRequest low => Sys2Proof.Machine.execBenchRequest low s
  | .qrstAssert q => Sys2Proof.Machine.execQrstAssert q s
  | .qrstDeassert q => Sys2Proof.Machine.execQrstDeassert q s
  | .hostHotReset b => Sys2Proof.Machine.execHostHotReset b s
  | .hostLinkDisable b => Sys2Proof.Machine.execHostLinkDisable b s
  | .hostLinkRelease b => Sys2Proof.Machine.execHostLinkRelease b s
  | .functionLevelReset b => Sys2Proof.Machine.execFunctionLevelReset b s
  | .hostConfigWrite b f => Sys2Proof.Machine.execHostConfigWrite b f s
  | .trainingRetry b => Sys2Proof.Machine.execTrainingRetry b s
  | .trainingAttemptEnd b t => Sys2Proof.Machine.execTrainingAttemptEnd b t s
  | .pollingTimeout b => Sys2Proof.Machine.execPollingTimeout b s
  | .equalisationFail b => Sys2Proof.Machine.execEqualisationFail b s
  | .linkUp b => Sys2Proof.Machine.execLinkUp b s
  | .linkDown b => Sys2Proof.Machine.execLinkDown b s
  | .flapHoldExpiry b => Sys2Proof.Machine.execFlapHoldExpiry b s
  | .flapHoldReset b => Sys2Proof.Machine.execFlapHoldReset b s
  | .rolecfgWrite o b v => Sys2Proof.Machine.execRolecfgWrite o b v s
  | .linkcfgWrite o b v => Sys2Proof.Machine.execLinkcfgWrite o b v s
  | .i3cStuckTimeout scl sda t => Sys2Proof.Machine.execI3cStuckTimeout scl sda t s
  | .i3cRecoveryRetry t => Sys2Proof.Machine.execI3cRecoveryRetry t s
  | .mctpMessage c typ len => Sys2Proof.Machine.execMctpMessage c typ len s
  | .mctpControl c code => Sys2Proof.Machine.execMctpControl c code s
  | .ksTransferFail d cause => Sys2Proof.Machine.execKsTransferFail d cause s
  | .tapBypass => Sys2Proof.Machine.execTapBypass s
  | .tapIdcode => Sys2Proof.Machine.execTapIdcode s
  | .tapSamplePreload data => Sys2Proof.Machine.execTapSamplePreload data s
  | .tapExtest => Sys2Proof.Machine.execTapExtest s
  | .tapClamp => Sys2Proof.Machine.execTapClamp s
  | .tapHighz => Sys2Proof.Machine.execTapHighz s
  | .tapExtestPulse => Sys2Proof.Machine.execTapExtestPulse s
  | .tapExtestTrain => Sys2Proof.Machine.execTapExtestTrain s
  | .registerWrite a v => Sys2Proof.Machine.execRegisterWrite a v s
  | .rcRead a => Sys2Proof.Machine.execRcRead a s
  | .lowHalfRead a => Sys2Proof.Machine.execLowHalfRead a s
  | .highHalfRead a => Sys2Proof.Machine.execHighHalfRead a s
  | .latchExpiry o => Sys2Proof.Machine.execLatchExpiry o s
  | .lowHalfWrite o page off v => Sys2Proof.Machine.execLowHalfWrite o page off v s
  | .highHalfWrite o page off v => Sys2Proof.Machine.execHighHalfWrite o page off v s
  | .stageExpired o => Sys2Proof.Machine.execStageExpired o s
  | .iforceWrite o page v => Sys2Proof.Machine.execIforceWrite o page v s
  | .istatClear o page ien v => Sys2Proof.Machine.execIstatClear o page ien v s
  | .errlogClear o page => Sys2Proof.Machine.execErrlogClear o page s
  | .accerrClear o => Sys2Proof.Machine.execAccerrClear o s
  | .lockWrite o page v => Sys2Proof.Machine.execLockWrite o page v s
  | .ownerWrite o page v => Sys2Proof.Machine.execOwnerWrite o page v s
  | .msixTableAccess m => Sys2Proof.Machine.execMsixTableAccess m s
  | .perfwinRead o page off nbytes => Sys2Proof.Machine.execPerfwinRead o page off nbytes s
  | .hello b h m => Sys2Proof.Machine.execHello b h m s
  | .helloTimer b => Sys2Proof.Machine.execHelloTimer b s
  | .spdm b h m => Sys2Proof.Machine.execSpdm b h m s
  | .lsa b h seq links => Sys2Proof.Machine.execLsa b h seq links s
  | .lsaTimer => Sys2Proof.Machine.execLsaTimer s
  | .autoProposeTimer => Sys2Proof.Machine.execAutoProposeTimer s
  | .hmapPropose o => Sys2Proof.Machine.execHmapPropose o s
  | .hmapRestage o => Sys2Proof.Machine.execHmapRestage o s
  | .propose b h m => Sys2Proof.Machine.execPropose b h m s
  | .propMap b h epoch first entries => Sys2Proof.Machine.execPropMap b h epoch first entries s
  | .epochAck b h epoch => Sys2Proof.Machine.execEpochAck b h epoch s
  | .refuse b h epoch cause => Sys2Proof.Machine.execRefuse b h epoch cause s
  | .epochTimeout => Sys2Proof.Machine.execEpochTimeout s
  | .commit b h epoch ftime => Sys2Proof.Machine.execCommit b h epoch ftime s
  | .epochActivation => Sys2Proof.Machine.execEpochActivation s
  | .mapFetch b h epoch => Sys2Proof.Machine.execMapFetch b h epoch s
  | .mapState b h epoch members root count => Sys2Proof.Machine.execMapState b h epoch members root count s
  | .mapData b h epoch first entries => Sys2Proof.Machine.execMapData b h epoch first entries s
  | .fence b h node ftime => Sys2Proof.Machine.execFence b h node ftime s
  | .unfence b h node ftime => Sys2Proof.Machine.execUnfence b h node ftime s
  | .fenceGraceExpiry node => Sys2Proof.Machine.execFenceGraceExpiry node s
  | .timeReq b h t1 => Sys2Proof.Machine.execTimeReq b h t1 s
  | .timeRsp b h t1 t2 t3 => Sys2Proof.Machine.execTimeRsp b h t1 t2 t3 s
  | .heartbeat b h m => Sys2Proof.Machine.execHeartbeat b h m s
  | .heartbeatTimeout node => Sys2Proof.Machine.execHeartbeatTimeout node s
  | .flitCreditBlock b ret ech => Sys2Proof.Machine.execFlitCreditBlock b ret ech s
  | .creditFlitTimer b => Sys2Proof.Machine.execCreditFlitTimer b s
  | .egressGrant p => Sys2Proof.Machine.execEgressGrant p s
  | .hoOffer b h gran loc => Sys2Proof.Machine.execHoOffer b h gran loc s
  | .hoAccept b h gran loc => Sys2Proof.Machine.execHoAccept b h gran loc s
  | .hoRefuse b h gran loc => Sys2Proof.Machine.execHoRefuse b h gran loc s
  | .hoSent b h gran loc count owners => Sys2Proof.Machine.execHoSent b h gran loc count owners s
  | .hoReceived b h gran loc => Sys2Proof.Machine.execHoReceived b h gran loc s
  | .hoAbort b h gran loc => Sys2Proof.Machine.execHoAbort b h gran loc s
  | .hoCopy b h item => Sys2Proof.Machine.execHoCopy b h item s
  | .psnXfer b h gran confirm mark es => Sys2Proof.Machine.execPsnXfer b h gran confirm mark es s
  | .handoffStart o maxUs => Sys2Proof.Machine.execHandoffStart o maxUs s
  | .handoffCopyDone => Sys2Proof.Machine.execHandoffCopyDone s
  | .handoffChainsEmpty => Sys2Proof.Machine.execHandoffChainsEmpty s
  | .freezeTimeout => Sys2Proof.Machine.execFreezeTimeout s
  | .rdShared r => Sys2Proof.Machine.execRdShared r s
  | .rdAny r => Sys2Proof.Machine.execRdAny r s
  | .rdOwn r => Sys2Proof.Machine.execRdOwn r s
  | .rdCur r => Sys2Proof.Machine.execRdCur r s
  | .upgrade r => Sys2Proof.Machine.execUpgrade r s
  | .wrFull r d => Sys2Proof.Machine.execWrFull r d s
  | .atomic r a => Sys2Proof.Machine.execAtomic r a s
  | .stash r d consumer => Sys2Proof.Machine.execStash r d consumer s
  | .snpInv b h => Sys2Proof.Machine.execSnpInv b h s
  | .snpData b h => Sys2Proof.Machine.execSnpData b h s
  | .snpFwd b h => Sys2Proof.Machine.execSnpFwd b h s
  | .rspI b h => Sys2Proof.Machine.execRspI b h s
  | .rspS b h => Sys2Proof.Machine.execRspS b h s
  | .rspFwd b h => Sys2Proof.Machine.execRspFwd b h s
  | .snpWb b h d => Sys2Proof.Machine.execSnpWb b h d s
  | .ack b h => Sys2Proof.Machine.execAck b h s
  | .stashAck b h => Sys2Proof.Machine.execStashAck b h s
  | .data b h d => Sys2Proof.Machine.execData b h d s
  | .dataFwd b h d => Sys2Proof.Machine.execDataFwd b h d s
  | .cmp b h => Sys2Proof.Machine.execCmp b h s
  | .dataAtm b h old status => Sys2Proof.Machine.execDataAtm b h old status s
  | .stashPush b h d => Sys2Proof.Machine.execStashPush b h d s
  | .wbDirty b h d => Sys2Proof.Machine.execWbDirty b h d s
  | .memrd b hpa m => Sys2Proof.Machine.execMemrd b hpa m s
  | .memrddata b hpa => Sys2Proof.Machine.execMemrddata b hpa s
  | .meminv b hpa m => Sys2Proof.Machine.execMeminv b hpa m s
  | .memclnevct b hpa => Sys2Proof.Machine.execMemclnevct b hpa s
  | .memspecrd b hpa => Sys2Proof.Machine.execMemspecrd b hpa s
  | .memwr b hpa m d mask poison => Sys2Proof.Machine.execMemwr b hpa m d mask poison s
  | .birsp b line shared => Sys2Proof.Machine.execBirsp b line shared s
  | .biconflict b line => Sys2Proof.Machine.execBiconflict b line s
  | .d2hRead b op tpa => Sys2Proof.Machine.execD2hRead b op tpa s
  | .d2hWrite b op tpa mask => Sys2Proof.Machine.execD2hWrite b op tpa mask s
  | .clflush b tpa => Sys2Proof.Machine.execClflush b tpa s
  | .dirtyevict b tpa => Sys2Proof.Machine.execDirtyevict b tpa s
  | .cleanevict b tpa noData => Sys2Proof.Machine.execCleanevict b tpa noData s
  | .cacheflushed b => Sys2Proof.Machine.execCacheflushed b s
  | .d2hRsp b op line d poison => Sys2Proof.Machine.execD2hRsp b op line d poison s
  | .gpfPhase2Request b => Sys2Proof.Machine.execGpfPhase2Request b s
  | .gpfComplete b => Sys2Proof.Machine.execGpfComplete b s
  | .getPoisonList b => Sys2Proof.Machine.execGetPoisonList b s
  | .ingressGrant sl => Sys2Proof.Machine.execIngressGrant sl s
  | .wayStallResume sl => Sys2Proof.Machine.execWayStallResume sl s
  | .writeStagingDequeue sl => Sys2Proof.Machine.execWriteStagingDequeue sl s
  | .directoryReadReturn line err => Sys2Proof.Machine.execDirectoryReadReturn line err s
  | .mediaReadData line err => Sys2Proof.Machine.execMediaReadData line err s
  | .mediaWriteComplete line ok => Sys2Proof.Machine.execMediaWriteComplete line ok s
  | .mediaCompletionTimeout way => Sys2Proof.Machine.execMediaCompletionTimeout way s
  | .dirWritebackComplete idx ok => Sys2Proof.Machine.execDirWritebackComplete idx ok s
  | .starvationTimeout sl idx => Sys2Proof.Machine.execStarvationTimeout sl idx s
  | .auditTimeout q idx => Sys2Proof.Machine.execAuditTimeout q idx s
  | .deadLinkTimeout b => Sys2Proof.Machine.execDeadLinkTimeout b s
  | .deadSnoopTimeout b => Sys2Proof.Machine.execDeadSnoopTimeout b s
  | .cacheSweepEnd rec => Sys2Proof.Machine.execCacheSweepEnd rec s
  | .reclaimWalkStep => Sys2Proof.Machine.execReclaimWalkStep s
  | .deadAlertExpiry => Sys2Proof.Machine.execDeadAlertExpiry s
  | .txnTimeout line => Sys2Proof.Machine.execTxnTimeout line s
  | .qassign o v => Sys2Proof.Machine.execQassign o v s
  | .sqTailDoorbell o q u => Sys2Proof.Machine.execSqTailDoorbell o q u s
  | .cqHeadDoorbell o q u => Sys2Proof.Machine.execCqHeadDoorbell o q u s
  | .setupDoorbell o q u => Sys2Proof.Machine.execSetupDoorbell o q u s
  | .descriptorPush o q entry => Sys2Proof.Machine.execDescriptorPush o q entry s
  | .entryAccept q entry => Sys2Proof.Machine.execEntryAccept q entry s
  | .copy t => Sys2Proof.Machine.execCopy t s
  | .fill t => Sys2Proof.Machine.execFill t s
  | .compare t => Sys2Proof.Machine.execCompare t s
  | .crc32c t => Sys2Proof.Machine.execCrc32c t s
  | .moverStash t => Sys2Proof.Machine.execMoverStash t s
  | .atomicBatch t => Sys2Proof.Machine.execAtomicBatch t s
  | .adviseWillneed tok => Sys2Proof.Machine.execAdviseWillneed tok s
  | .adviseDontneed tok => Sys2Proof.Machine.execAdviseDontneed tok s
  | .adviseHot tok => Sys2Proof.Machine.execAdviseHot tok s
  | .adviseCold tok => Sys2Proof.Machine.execAdviseCold tok s
  | .migrate t => Sys2Proof.Machine.execMigrate t s
  | .nop tok => Sys2Proof.Machine.execNop tok s
  | .reachCreate tok => Sys2Proof.Machine.execReachCreate tok s
  | .reachRevoke tok => Sys2Proof.Machine.execReachRevoke tok s
  | .queueCreate tok => Sys2Proof.Machine.execQueueCreate tok s
  | .queueDestroy tok => Sys2Proof.Machine.execQueueDestroy tok s
  | .queueSetPrio tok => Sys2Proof.Machine.execQueueSetPrio tok s
  | .xltBind tok => Sys2Proof.Machine.execXltBind tok s
  | .xltInval tok => Sys2Proof.Machine.execXltInval tok s
  | .xltResume tok => Sys2Proof.Machine.execXltResume tok s
  | .xltFring tok => Sys2Proof.Machine.execXltFring tok s
  | .xltUnbind tok => Sys2Proof.Machine.execXltUnbind tok s
  | .opDispatch g => Sys2Proof.Machine.execOpDispatch g s
  | .tileComplete tok tile => Sys2Proof.Machine.execTileComplete tok tile s
  | .opCompletion tok cqOk => Sys2Proof.Machine.execOpCompletion tok cqOk s
  | .moverEnable o m v => Sys2Proof.Machine.execMoverEnable o m v s
  | .atsTranslationCompletion slot r => Sys2Proof.Machine.execAtsTranslationCompletion slot r s
  | .mirrorWalkRead slot => Sys2Proof.Machine.execMirrorWalkRead slot s
  | .prgResponse b idx c => Sys2Proof.Machine.execPrgResponse b idx c s
  | .faultTimeout idx => Sys2Proof.Machine.execFaultTimeout idx s
  | .atsInvalidateRequest b glob pasid va log2 tag => Sys2Proof.Machine.execAtsInvalidateRequest b glob pasid va log2 tag s
  | .invalidationStart => Sys2Proof.Machine.execInvalidationStart s
  | .invalidationSweepEnd => Sys2Proof.Machine.execInvalidationSweepEnd s
  | .invalidationComplete => Sys2Proof.Machine.execInvalidationComplete s
  | .migHoldExpiry idx => Sys2Proof.Machine.execMigHoldExpiry idx s
  | .acnDecaySweep => Sys2Proof.Machine.execAcnDecaySweep s
  | .cmpWrite o c r v => Sys2Proof.Machine.execCmpWrite o c r v s
  | .channelStart o c v => Sys2Proof.Machine.execChannelStart o c v s
  | .compareFire c => Sys2Proof.Machine.execCompareFire c s
  | .periodWrap c => Sys2Proof.Machine.execPeriodWrap c s
  | .taskEnd t => Sys2Proof.Machine.execTaskEnd t s
  | .taskIrqClear o hi v => Sys2Proof.Machine.execTaskIrqClear o hi v s
  | .swfire o v => Sys2Proof.Machine.execSwfire o v s
  | .taskWrite o t v => Sys2Proof.Machine.execTaskWrite o t v s
  | .captureEdge k => Sys2Proof.Machine.execCaptureEdge k s
  | .syncInPulse => Sys2Proof.Machine.execSyncInPulse s
  | .syncOutPulseEnd => Sys2Proof.Machine.execSyncOutPulseEnd s
  | .counterClear o page => Sys2Proof.Machine.execCounterClear o page s
  | .overflowReport => Sys2Proof.Machine.execOverflowReport s
  | .dumpTick => Sys2Proof.Machine.execDumpTick s
  | .samplingEnable o v => Sys2Proof.Machine.execSamplingEnable o v s
  | .mbNop => Sys2Proof.Machine.execMbNop s
  | .healthDeclare => Sys2Proof.Machine.execHealthDeclare s
  | .healthTimer => Sys2Proof.Machine.execHealthTimer s
  | .wdogKick => Sys2Proof.Machine.execWdogKick s
  | .wdogHalf => Sys2Proof.Machine.execWdogHalf s
  | .watchdogExpiry => Sys2Proof.Machine.execWatchdogExpiry s
  | .relay len => Sys2Proof.Machine.execRelay len s
  | .fwStage k sl off len img => Sys2Proof.Machine.execFwStage k sl off len img s
  | .fwActivate k sl => Sys2Proof.Machine.execFwActivate k sl s
  | .policyInstall p => Sys2Proof.Machine.execPolicyInstall p s
  | .profileInstall p => Sys2Proof.Machine.execProfileInstall p s
  | .svnCommit => Sys2Proof.Machine.execSvnCommit s
  | .overlayRead digestOk => Sys2Proof.Machine.execOverlayRead digestOk s
  | .mcRead n => Sys2Proof.Machine.execMcRead n s
  | .mcIncr n => Sys2Proof.Machine.execMcIncr n s
  | .resetRequest => Sys2Proof.Machine.execResetRequest s
  | .ldgInfo c => Sys2Proof.Machine.execLdgInfo c s
  | .ldgRead c lseq count => Sys2Proof.Machine.execLdgRead c lseq count s
  | .ldgCerts c => Sys2Proof.Machine.execLdgCerts c s
  | .ldgNonce c => Sys2Proof.Machine.execLdgNonce c s
  | .ldgAck c sig lseq => Sys2Proof.Machine.execLdgAck c sig lseq s
  | .benchRelease c sig => Sys2Proof.Machine.execBenchRelease c sig s
  | .ownerClaim c keyHash => Sys2Proof.Machine.execOwnerClaim c keyHash s
  | .ownerRevoke c sig slot => Sys2Proof.Machine.execOwnerRevoke c sig slot s
  | .imageUpdate c k img => Sys2Proof.Machine.execImageUpdate c k img s
  | .benchStatus c => Sys2Proof.Machine.execBenchStatus c s
  | .spdmGetVersion p => Sys2Proof.Machine.execSpdmGetVersion p s
  | .spdmGetCapabilities p => Sys2Proof.Machine.execSpdmGetCapabilities p s
  | .spdmNegotiateAlgorithms p => Sys2Proof.Machine.execSpdmNegotiateAlgorithms p s
  | .spdmGetDigests p => Sys2Proof.Machine.execSpdmGetDigests p s
  | .spdmGetCertificate p slot off len => Sys2Proof.Machine.execSpdmGetCertificate p slot off len s
  | .spdmChallenge p slot => Sys2Proof.Machine.execSpdmChallenge p slot s
  | .spdmGetMeasurements p index sign => Sys2Proof.Machine.execSpdmGetMeasurements p index sign s
  | .spdmKeyExchange p slot reqId => Sys2Proof.Machine.execSpdmKeyExchange p slot reqId s
  | .spdmFinish p hmacOk => Sys2Proof.Machine.execSpdmFinish p hmacOk s
  | .spdmHeartbeat p => Sys2Proof.Machine.execSpdmHeartbeat p s
  | .spdmKeyUpdate p op => Sys2Proof.Machine.execSpdmKeyUpdate p op s
  | .spdmEndSession p => Sys2Proof.Machine.execSpdmEndSession p s
  | .spdmVendorDefined p q => Sys2Proof.Machine.execSpdmVendorDefined p q s
  | .batchStart => Sys2Proof.Machine.execBatchStart s
  | .phase1Complete fail => Sys2Proof.Machine.execPhase1Complete fail s
  | .batchCommitted fail => Sys2Proof.Machine.execBatchCommitted fail s
  | .sectorEraseComplete d part e => Sys2Proof.Machine.execSectorEraseComplete d part e s
  | .deviceProbe d pass => Sys2Proof.Machine.execDeviceProbe d pass s
  | .kepProbe o pass => Sys2Proof.Machine.execKepProbe o pass s
  | .rebuildSectorCopy d => Sys2Proof.Machine.execRebuildSectorCopy d s
  | .dailyReadTimer bad => Sys2Proof.Machine.execDailyReadTimer bad s
  | .rdSeqWrite o v => Sys2Proof.Machine.execRdSeqWrite o v s
  | .durableFetch o => Sys2Proof.Machine.execDurableFetch o s
  | .durableFetchDone => Sys2Proof.Machine.execDurableFetchDone s
  | .modeReqServe o => Sys2Proof.Machine.execModeReqServe o s
  | .modeReqDrain o => Sys2Proof.Machine.execModeReqDrain o s
  | .modeReqMaintain o => Sys2Proof.Machine.execModeReqMaintain o s
  | .serveOkWrite o v => Sys2Proof.Machine.execServeOkWrite o v s
  | .enterServe => Sys2Proof.Machine.execEnterServe s
  | .enterMaintain => Sys2Proof.Machine.execEnterMaintain s
  | .domainReqOn o d => Sys2Proof.Machine.execDomainReqOn o d s
  | .domainReqDrained o d => Sys2Proof.Machine.execDomainReqDrained o d s
  | .domainReqOff o d => Sys2Proof.Machine.execDomainReqOff o d s
  | .domainDrained d => Sys2Proof.Machine.execDomainDrained d s
  | .domainOff d => Sys2Proof.Machine.execDomainOff d s
  | .domainPowerUp d => Sys2Proof.Machine.execDomainPowerUp d s
  | .sealPhaseEnd => Sys2Proof.Machine.execSealPhaseEnd s
  | .sealPhaseDeadline => Sys2Proof.Machine.execSealPhaseDeadline s
  | .refclkCountDone count => Sys2Proof.Machine.execRefclkCountDone count s
  | .recoveryEntry b => Sys2Proof.Machine.execRecoveryEntry b s
  | .flitReplay r => Sys2Proof.Machine.execFlitReplay r s
  | .d2hData b line d poison => Sys2Proof.Machine.execD2hData b line d poison s
  | .dynamicAddressAssignment addr => Sys2Proof.Machine.execDynamicAddressAssignment addr s
  | .testLogicReset => Sys2Proof.Machine.execTestLogicReset s
  | .spdmChunkSend p handle seq len last => Sys2Proof.Machine.execSpdmChunkSend p handle seq len last s
  | .spdmChunkGet p handle seq => Sys2Proof.Machine.execSpdmChunkGet p handle seq s
  | .spdmGetEncapsulatedRequest p => Sys2Proof.Machine.execSpdmGetEncapsulatedRequest p s
  | .spdmDeliverEncapsulatedResponse p ok => Sys2Proof.Machine.execSpdmDeliverEncapsulatedResponse p ok s

end Sys2Proof.Machine
end

