-- ==== Sys2Proof/Machine/Step.lean ====
section
/-! DEFINITION. One step: the command at the front of the queue runs on the state with the queue's rest; on an empty queue
one hc passes (DESIGN CHOICE, log entry 1). -/

namespace Sys2Proof.Machine

/-- One hc passes and nothing is commanded: HTIME and what the spec counts each hc go on, sources raised before reach the
task inputs, and an entry to MAINTAIN goes on. -/
def idle (s : State) : State := s.onPicot (fun h => maintainProgress (advance h 1))

/-- One step. -/
def step (s : State) : Host.Outcome State Fault Refusal :=
  match s.pending with
  | [] => .next (idle s)
  | c :: cs => exec c { s with pending := cs }

/-- The state with the command that a table word spells put in front of the queue. -/
def State.withFetchWord (s : State) (nbits w : Nat) : State :=
  match decodeTableWord nbits w with
  | some c => { s with pending := c :: s.pending }
  | none => s

end Sys2Proof.Machine
end

