-- ==== Sys2Proof/Safety.lean ====
section
/-! DEFINITION. What counts as a safe run, and the words the statements are written in: what a command leads to, when a
register write is served, when a message is for this hub. -/

namespace Sys2Proof.Machine

/-! ### Safe states -/

/-- The invariant of every step: management SRAM is in canonical form and lists no byte outside it, and no write to it
waits between commands. -/
def State.Inv (s : State) : Prop :=
  Memory.wf s.ram = true ∧ (∀ e ∈ s.ram, e.1 < sramSize) ∧ s.hub.sram = [] ∧ s.hub.sramWipe = false

/-! ### Where a command leads -/

/-- In the hold that ends SEAL only the supply monitors run (R18, Table MOD-4): the rows below that the hold stops say where
they lead outside it. -/
abbrev outsideHold (s : State) : Prop := sealHeld s.hub = false

/-- The command completes, and the hub is then h. -/
def leadsHub (c : Instr) (s : State) (h : Hub) : Prop := outsideHold s → exec c s = .next (s.act fun _ => h)

/-- The command completes, and the hub is h before what waits on an unreachable media way ends and credits of bays return
(R482, R230). -/
def leadsCoh (c : Instr) (s : State) (h : Hub) : Prop := outsideHold s → exec c s = .next (s.onCoh fun _ => h)

/-- The command completes, and the hub is h before what waits in Tulle is settled and HELLO follows. -/
def leadsTulle (c : Instr) (s : State) (h : Hub) : Prop := outsideHold s → exec c s = .next (s.onTulle fun _ => h)

/-- The command completes, and the hub is h before the queues that it stopped give up their fault entries (R328). -/
def leadsStops (c : Instr) (s : State) (h : Hub) : Prop :=
  outsideHold s → exec c s = .next (s.act (withStops fun _ => h))

/-- As `leadsStops`, with Tulle settled after it. -/
def leadsTulleStops (c : Instr) (s : State) (h : Hub) : Prop :=
  outsideHold s → exec c s = .next (s.onTulle (withStops fun _ => h))

/-- The command completes, and the hub is h before the raised event sources act (R357). -/
def leadsPicot (c : Instr) (s : State) (h : Hub) : Prop := outsideHold s → exec c s = .next (s.onPicot fun _ => h)

/-- A row of the test port completes, in every mode (R66): the hub is then h. -/
def leadsTap (c : Instr) (s : State) (h : Hub) : Prop := exec c s = .next (s.act fun _ => h)

/-- A row of the supplies, HUB_RESET_N, the clock or THERMTRIP_N completes, in the hold of SEAL too (R18, R19): the hub is h
before Tulle is settled, or stays h where it then holds in SEAL. -/
def leadsSupply (c : Instr) (s : State) (h : Hub) : Prop := exec c s = .next (s.onSupply fun _ => h)

/-- A row that no hold stops is served: outside the hold the hub is h before Tulle is settled, and in it only the pins of h
are followed (R18). -/
def leadsPins (c : Instr) (s : State) (h : Hub) : Prop := exec c s = .next (s.onPins fun _ => h)

/-! ### When a write is served -/

/-- A write of a register is served: nothing of R87, R92 to R96 refuses, drops or logs it. -/
abbrev served (h : Hub) (o : Origin) (pg off v : Nat) : Prop :=
  writeKinds h o pg off v = ([], false) ∧ lockRefuses h (clsOf o) pg = false ∧ reaches (clsOf o) pg off = true

/-- A served write carries no reserved encoding (R8). -/
abbrev encodable (h : Hub) (o : Origin) (pg off v : Nat) : Prop :=
  (applyFields h (clsOf o) false pg (regFields pg off) v).2 = false

/-- What a served write stores in the fields of its register. -/
def stored (h : Hub) (o : Origin) (pg off v : Nat) : Hub :=
  (applyFields h (clsOf o) false pg (regFields pg off) v).1

/-! ### When a message is for this hub -/

/-- A message of VC6 or VC7 arrives for this hub with the opcode and size of its row and a source that is no reserved bay
code, while the management channels run (R143, R148). -/
abbrev reaching (h : Hub) (b : Bay) (hd : Hdr) (body : Payload) (opc : Nat) : Prop :=
  tulleRuns h = true ∧ (receive h b.val hd body false).2 = true ∧ hd.opc = opc ∧ reservedSrc hd.src = false ∧
    hd.sized = true

/-- A snoop, answer or data message arrives for this hub with the opcode and size of its row and a source that is no
reserved bay code (R148, R160). -/
abbrev meant (h : Hub) (b : Bay) (hd : Hdr) (body : Payload) (opc : Nat) : Prop :=
  (receive h b.val hd body false).2 = true ∧ hd.opc = opc ∧ reservedSrc hd.src = false ∧ hd.sized = true

/-- The hub once a message has been received: its flow accepted, its credits owed. -/
def received (h : Hub) (b : Bay) (hd : Hdr) (body : Payload) : Hub := (receive h b.val hd body false).1

/-- An answer is of a live node and for a transaction whose bobbin is in use (R160, R183, R252). -/
abbrev forOpen (h : Hub) (hd : Hdr) : Prop :=
  agentDead h (rlcAgent (agentNode hd.src)) = false ∧ (mapGet? h.coh.bobs hd.tag).isSome = true ∧
    (headOf h hd.addr).isSome = true

/-- A request of a peer arrives for a line homed here, well formed and from a node that is not dead. -/
abbrev requested (h : Hub) (b : Bay) (hd : Hdr) (body : Payload) (opc : Nat) : Prop :=
  let r := receive h b.val hd body true
  r.2 = true ∧ hd.sized = true ∧ hd.opc % 128 = opc ∧ reservedSrc hd.src = false ∧ ¬(agentBay hd.src = 63 ∧ hd.attr % 65536 = 0 ∧ vcOf hd.opc = 0) ∧
    agentDead r.1 (rlcAgent (agentNode hd.src)) = false ∧ whereIs r.1 hd.addr = .here

/-- The request that a peer's message makes. -/
def peerReq (h : Hub) (hd : Hdr) (op : ReqOp) : Req :=
  { who := .peer hd.tag, agent := hd.src, op := op, line := hd.addr, poison := hd.poison, prio := hd.prio % 8,
    ctx := hd.attr % 65536, bob := hd.tag, t0 := h.htime, hops := hd.hops, tag := none, fwd := decide (128 ≤ hd.opc) }

/-- A host's request for a line is taken: its link carries CXL.mem, the mode serves it, and the line has a home with
media (R21, R121, R203, R257). -/
abbrev hostTakes (h : Hub) (b : Bay) (hpa : Nat) (line : LineAddr) : Prop :=
  hostOk h b.val = true ∧ hdmLine h b.val hpa = some line ∧ modeRejects h (bayAgent h b.val) = false ∧
    whereIs h line ≠ .unmapped ∧ whereIs h line ≠ .noMedia

/-- The same for a device's request. -/
abbrev devTakes (h : Hub) (b : Bay) (line : LineAddr) : Prop :=
  devOk h b.val = true ∧ modeRejects h (bayAgent h b.val) = false ∧ whereIs h line ≠ .unmapped ∧ whereIs h line ≠ .noMedia

/-- The request at the head of a line's chain has been looked up and is of an opcode class (R185). -/
abbrev headIs (h : Hub) (line : LineAddr) (opc : Nat) : Prop :=
  match headOf h line with
  | some t => t.st = .ready ∧ rowServed t.req.op = true ∧ classOpc t.req.op = opc
  | none => False

/-- A request of SPDM is taken: the hub answers on the port, the connection stands at the stage, and the ROM knows the
request where the ROM answers (R398, R471). -/
abbrev spdmTakes (h : Hub) (p : SpdmPort) (rom : Bool) (stage : Nat) : Prop :=
  answers h = true ∧ h.mode.mode ≠ .seal ∧ spdmUp h p = true ∧ (romTier h = false ∨ rom = true) ∧ stage ≤ (conn h p).stage

/-! ### When an op takes its turn -/

/-- A management command of an opcode takes effect: valid, not yet begun, its FENCE met (R285, R288). -/
abbrev mgmtTurn (h : Hub) (tok opc : Nat) (o : Op) : Prop :=
  opOf h tok = some o ∧ o.st = .mgmt ∧ eOpc o.entry = opc ∧ (eFence o.entry && earlierOut h o) = false

/-- An ADVISE of a code that is on a stream begins its effect (R332). -/
abbrev adviseTurn (h : Hub) (tok code : Nat) (o : Op) : Prop :=
  opOf h tok = some o ∧ onStream h tok 7 = true ∧ eB o.entry 48 1 = code ∧ o.fail = none ∧ o.aborted = false

end Sys2Proof.Machine
end

