-- ==== Sys2Proof/Certificates/Slice0/Obligations.lean ====
section
/-! DEFINITION. The statements for the provers. -/

open Sys2Proof Sys2Proof.Machine

/-! ### Where every command completes. Each clause names a command, the conditions under which its own effect happens and
the hub that follows; nothing but that hub changes, and management SRAM as far as it says so. -/

/-- R60, R68, R75, R339, R388, R394, R395, R402, R467, R468: the commands of the start complete. -/
def Obligations.StartCommandsComplete : Prop :=
  (∀ s : State, canStart { s.hub with pins := { s.hub.pins with railReset := clearBit s.hub.pins.railReset 5 } } = true →
    leadsSupply .sequencerStart s { s.hub with
      pins := { s.hub.pins with railReset := clearBit s.hub.pins.railReset 5 },
      boot := { s.hub.boot with seq := if startHeld s.hub then .waiting else .counting } }) ∧
  (∀ (s : State) (n : Nat), s.hub.boot.seq = .counting → 95 ≤ n → n ≤ 105 →
    leadsTulle (.refclkCountDone n) s
      { s.hub with boot := { s.hub.boot with seq := if startHeld s.hub then .counted else .sensing } }) ∧
  (∀ (s : State) (ok : Bool), s.hub.boot.seq = .sensing → s.hub.fuses.grade ≠ 1 →
    leadsTulle (.fuseSensingDone ok) s
      { setFld (setFld64 s.hub pGLB Fld.GLB.SERIAL_LO Fld.GLB.SERIAL_HI s.hub.fuses.serial) pGLB Fld.GLB.INFO_GRADE
          s.hub.fuses.grade with
        boot := { s.hub.boot with seq := if startHeld s.hub then .sensed else .pll, eccOk := ok } }) ∧
  (∀ (s : State) (ok : Bool), s.hub.boot.seq = .sensing → s.hub.fuses.grade = 1 →
    leadsTulle (.fuseSensingDone ok) s
      { setFld (setFld (setFld64 s.hub pGLB Fld.GLB.SERIAL_LO Fld.GLB.SERIAL_HI s.hub.fuses.serial) pGLB Fld.GLB.INFO_GRADE
          1) pPWR Fld.PWR.THERM_WARN_C 105 with
        boot := { s.hub.boot with seq := if startHeld s.hub then .sensed else .pll, eccOk := ok } }) ∧
  (∀ (s : State) (rc : Nat), s.hub.boot.seq = .pll →
    leadsTulle (.pllLock rc) s
      { setFld (setFld s.hub pCLK Fld.CLK.STAT_LOCKED 1) pCLK Fld.CLK.LOCK_RC rc with
        boot := { s.hub.boot with seq := .locked } }) ∧
  (∀ s : State, s.hub.boot.seq = .locked → mayStep s.hub = true → s.hub.pins.refclk = true →
    leadsTulle .hclkSwitch s
      { s.hub with htime := 0, boot := { s.hub.boot with seq := .done, hclk := true, point := .rom } }) ∧
  (∀ (s : State) (k : Nat) (i : Image), s.hub.boot.point = .rom → mayStep s.hub = true → s.hub.boot.eccOk = true →
    s.hub.fuses.grade < 2 → (activeDevs s.hub).isEmpty = false → zhItem s.hub 1 0 = none →
    (pickSlot (imgValid s.hub 0) 0 0 0).slot = some k → imgAt s.hub 0 k = some i →
    leadsTulle .romStart s
      { setFld (setFld (setFld (setFld s.hub pLDG Fld.LDG.BOOT_ZH_SLOT k) pLDG Fld.LDG.BOOT_ZH_TRIAL 0) pLDG
          Fld.LDG.FLOOR s.hub.fuses.zhSvn) pLDG Fld.LDG.ZH_SVN i.svn with
        trust := { s.hub.trust with zhImg := some i, reverted := false },
        boot := { s.hub.boot with point := .zhozha } }) ∧
  (∀ (s : State) (z : ZhIn), s.hub.boot.point = .zhozha → mayStep s.hub = true →
    leadsTulle (.zhozhaStart z) s (zhStart s.hub z)) ∧
  (∀ s : State, s.hub.boot.hclk = true → s.hub.boot.coreOn = false → s.hub.pins.railWarn % 32 = 0 → s.hub.boot.zin = none →
    leadsTulle .coreDomainRelease s (picStart { s.hub with boot := { s.hub.boot with coreOn := true } })) ∧
  (∀ (s : State) (z : ZhIn), s.hub.boot.hclk = true → s.hub.boot.coreOn = false → s.hub.pins.railWarn % 32 = 0 →
    s.hub.boot.zin = some z → s.hub.boot.point = .waitCore → mayStep s.hub = true →
    leadsTulle .coreDomainRelease s (zhResume (picStart { s.hub with boot := { s.hub.boot with coreOn := true } }))) ∧
  (∀ s : State, s.hub.boot.zin = none → s.hub.boot.point = .ready → s.hub.boot.coreOn = true → mayStep s.hub = true →
    leadsTulle .mgmtCoreRelease s (releaseCores s.hub)) ∧
  (∀ s : State, flag s.hub pPRK Fld.PRK.STAT_FORMAT_BUSY = true → bgen (formatEnd s.hub) ≠ 0 →
    leadsTulle .formatDone s (applyLedger (formatEnd s.hub))) ∧
  (∀ s : State, flag s.hub pPRK Fld.PRK.STAT_FORMAT_BUSY = true → bgen (formatEnd s.hub) = 0 →
    zhItem (formatEnd s.hub) 4 0 = some 4095 →
    leadsTulle .formatDone s (applyLedger (setFld (zhPut (formatEnd s.hub) [(4, 0, 1)]) pPRK Fld.PRK.BGEN 1)))

/-- R61, R70 to R72, R77, R78, R80, R455: resets, supplies, the clock and thermal limits. -/
def Obligations.SupplyCommandsComplete : Prop :=
  (∀ s : State, s.hub.pins.hubReset = false →
    leadsSupply .hubResetAssert s
      { hubReset s.hub 1 0 false with
        pins := { (hubReset s.hub 1 0 false).pins with hubReset := true }
        out := s.hub.out ++ [.ksBus 0 .released, .ksBus 1 .released] }) ∧
  (∀ s : State, s.hub.pins.hubReset = true → canStart { s.hub with pins := { s.hub.pins with hubReset := false } } = true →
    leadsSupply .hubResetDeassert s
      { s.hub with
        pins := { s.hub.pins with hubReset := false }
        boot := { s.hub.boot with seq := if startHeld s.hub then .waiting else .counting }
        out := s.hub.out ++ [.ksBus 0 (if devState s.hub 0 = 2 then .parked else .bus),
          .ksBus 1 (if devState s.hub 1 = 2 then .parked else .bus)] }) ∧
  (∀ (s : State) (r : Rail), bit s.hub.pins.railWarn (railNum r) = false →
    leadsSupply (.railBelowWarning r) s
      (braceStart (setIstat (setRails s.hub (s.hub.pins.railWarn ||| 2 ^ railNum r)) pPWR 3)
        (match r with | .vcore => 3 | .vsram => 4 | .vaux => 5 | _ => 0))) ∧
  (∀ (s : State) (r : Rail), bit s.hub.pins.railWarn (railNum r) = true →
    (r = .vcore ∨ r = .vsram ∨ r = .vaux) →
    leadsSupply (.railAboveWarning r) s
      (braceQuiet { setRails s.hub (clearBit s.hub.pins.railWarn (railNum r)) with
        pins := { (setRails s.hub (clearBit s.hub.pins.railWarn (railNum r))).pins with
          railReset := clearBit (setRails s.hub (clearBit s.hub.pins.railWarn (railNum r))).pins.railReset (railNum r) } })) ∧
  (∀ (s : State) (r : Rail),
    leadsSupply (.railBelowReset r) s
      { hubReset s.hub 2 (railNum r) (r == .vaux) with
        pins := { (hubReset s.hub 2 (railNum r) (r == .vaux)).pins with
          railWarn := (hubReset s.hub 2 (railNum r) (r == .vaux)).pins.railWarn ||| 2 ^ railNum r,
          railReset := (hubReset s.hub 2 (railNum r) (r == .vaux)).pins.railReset ||| 2 ^ railNum r } }) ∧
  (∀ s : State, s.hub.pins.refclk = true → s.hub.mode.sealPhase ≠ 8 →
    flag s.hub pCLK Fld.CLK.STAT_LOCKED = false →
    leadsSupply .refclkLoss s
      { s.hub with pins := { s.hub.pins with refclk := false }, boot := { s.hub.boot with seq := .off } }) ∧
  (∀ s : State, s.hub.pins.refclk = true → s.hub.mode.sealPhase ≠ 8 → flag s.hub pCLK Fld.CLK.STAT_LOCKED = true →
    leadsSupply .refclkLoss s (clockLost { s.hub with pins := { s.hub.pins with refclk := false } })) ∧
  (∀ s : State, flag s.hub pCLK Fld.CLK.STAT_HOLDOVER = true →
    leadsSupply .clockLossReset s (hubReset s.hub 3 0 false)) ∧
  (∀ s : State, s.hub.pins.refclk = false → canStart { s.hub with pins := { s.hub.pins with refclk := true } } = true →
    leadsSupply .refclkReturn s
      { s.hub with
        pins := { s.hub.pins with refclk := true }
        boot := { s.hub.boot with seq := if startHeld s.hub then .waiting else .counting } }) ∧
  (∀ s : State, s.hub.pins.thermtrip = false →
    leadsSupply .thermtrip s
      { hubReset s.hub 4 0 false with pins := { (hubReset s.hub 4 0 false).pins with thermtrip := true } }) ∧
  (∀ s : State, s.hub.pins.thermtrip = true → s.hub.pins.railReset % 32 = 31 →
    leadsSupply .thermtripRelease s (seqStart { s.hub with pins := { s.hub.pins with thermtrip := false } })) ∧
  (∀ (s : State) (t : BitVec 8),
    leadsTulle (.thermalWarning t) s (thermJudge (setFld s.hub pPWR Fld.PWR.THERM_TEMP_MAX t.toNat)))

/-- R60, R449, R451 to R454: power failure channels, the end of BRACE and the bench request. -/
def Obligations.PowerFailCommandsComplete : Prop :=
  (∀ (s : State) (c : PfCh), pfLevel s.hub c = false → running s.hub = true → pfExcl s.hub c = false →
    pfExcl s.hub (pfOther c) = false → pfLevel s.hub (pfOther c) = false →
    leadsPins (.pfailAssert c) s (braceStart (pfDrive s.hub c true) (pfNum c + 1))) ∧
  (∀ (s : State) (c : PfCh), pfLevel s.hub c = false → running s.hub = true → pfExcl s.hub c = false →
    pfExcl s.hub (pfOther c) = true →
    leadsPins (.pfailAssert c) s (enterSeal (pfDrive s.hub c true) 2)) ∧
  (∀ (s : State) (c : PfCh), pfLevel s.hub c = false → running s.hub = true → pfExcl s.hub c = false →
    pfExcl s.hub (pfOther c) = false → pfLevel s.hub (pfOther c) = true →
    s.hub.htime - pfAt (pfDrive s.hub c true) (pfOther c) ≤ discHc (pfDrive s.hub c true) →
    leadsPins (.pfailAssert c) s (enterSeal (pfDrive s.hub c true) 1)) ∧
  (∀ (s : State) (c : PfCh), pfLevel s.hub c = true → running s.hub = true → pfExcl s.hub c = false →
    pfLevel s.hub (pfOther c) = false →
    leadsPins (.pfailDeassert c) s (braceQuiet (bump (pfDrive s.hub c false) pPWR Fld.PWR.PFAIL_GLITCH_CNT))) ∧
  (∀ (s : State) (c : PfCh), running s.hub = true → pfAlone s.hub c = true →
    leadsTulle (.pfailExclusion c) s (pfDiscrepant (advanceTo s.hub (pfAt s.hub c + discHc s.hub + 1)) c)) ∧
  (∀ (s : State) (c : PfCh), startSpan s.hub = true → pfAlone s.hub c = true →
    leadsTulle (.pfailBootExclusion c) s
      (seqResume { pfExclude s.hub c true with mode := { (pfExclude s.hub c true).mode with bootExcl := true } })) ∧
  (∀ (s : State) (c : PfCh), pfLevel s.hub c = true → running s.hub = false →
    leadsPins (.pfailDeassert c) s (seqResume (pfDrive s.hub c false))) ∧
  (∀ (s : State) (o : Origin) (c : PfCh),
    served s.hub o pPWR 0x104 (fld s.hub pPWR Fld.PWR.PFAIL_CFG_DISC_US + 2 ^ (13 + pfNum c)) →
    pfExcl s.hub c = true → pfLevel s.hub c = false →
    leadsTulle (.pfailReinclude o c) s (pfExclude s.hub c false)) ∧
  (∀ s : State, s.hub.mode.brace = true → braceTrigger s.hub = 0 →
    (advanceTo s.hub (s.hub.mode.quietAt + 2000000)).mode.mode ≠ .serve →
    leadsTulle .braceExit s
      { advanceTo s.hub (s.hub.mode.quietAt + 2000000) with
        mode := { (advanceTo s.hub (s.hub.mode.quietAt + 2000000)).mode with brace := false } }) ∧
  (∀ s : State, s.hub.pins.benchReq = false →
    leadsPins (.benchRequest true) s (enterSeal { s.hub with pins := { s.hub.pins with benchReq := true } } 3)) ∧
  (∀ s : State,
    leadsPins (.benchRequest false) s { s.hub with pins := { s.hub.pins with benchReq := false } })

/-- R33, R47 to R49, R87, R106, R111, R299, R314, R324: resets that come from hosts, and their config space. -/
def Obligations.HostResetCommandsComplete : Prop :=
  (∀ (s : State) (q : Quad), s.hub.mode.mode ≠ .seal →
    leadsPins (.qrstAssert q) s
      ((quadLeads { s.hub with pins := { s.hub.pins with qrst := s.hub.pins.qrst ||| 2 ^ q.val } } q.val 1).foldl hostReset
        (bump { s.hub with pins := { s.hub.pins with qrst := s.hub.pins.qrst ||| 2 ^ q.val } } (pBAY (4 * q.val))
          Fld.BAY.QRST_CNT))) ∧
  (∀ (s : State) (q : Quad), bit s.hub.pins.qrst q.val = true →
    leadsPins (.qrstDeassert q) s
      ((quadLeads { s.hub with pins := { s.hub.pins with qrst := s.hub.pins.qrst - 2 ^ q.val } } q.val 1).foldl
        (fun h b => if lstate h b = 7 then startTraining h b else h)
        { s.hub with pins := { s.hub.pins with qrst := s.hub.pins.qrst - 2 ^ q.val } })) ∧
  (∀ (s : State) (b : Bay), hBay s.hub b.val = true →
    leadsTulle (.hostHotReset b) s (startTraining (hostReset s.hub b.val) b.val)) ∧
  (∀ (s : State) (b : Bay), hBay s.hub b.val = true →
    leadsTulle (.hostLinkDisable b) s
      (modBay (hostReset s.hub b.val) b.val (fun r => { r with hostDisabled := true }))) ∧
  (∀ (s : State) (b : Bay), (bayRt s.hub b.val).hostDisabled = true →
    lstate (modBay s.hub b.val (fun r => { r with hostDisabled := false })) b.val = 7 →
    leadsTulle (.hostLinkRelease b) s
      (startTraining (modBay s.hub b.val (fun r => { r with hostDisabled := false })) b.val)) ∧
  (∀ (s : State) (b : Bay), hBay s.hub b.val = true →
    leadsTulle (.functionLevelReset b) s
      (ownerStop (configReset (originReset (originReset s.hub (.hostH b)) (.hostU b)) b.val false) b.val)) ∧
  (∀ (s : State) (b : Bay) (v : Bool), hBay s.hub b.val = true →
    leadsTulleStops (.hostConfigWrite b (.memSpaceEnable v)) s (modBay s.hub b.val (fun r => { r with memSpaceEn := v })) ∧
    leadsTulleStops (.hostConfigWrite b (.msixEnable v)) s
      (msixReleaseAll (modBay s.hub b.val (fun r => { r with msixEn := v })) b.val) ∧
    leadsTulleStops (.hostConfigWrite b (.functionMask v)) s
      (msixReleaseAll (modBay s.hub b.val (fun r => { r with funcMask := v })) b.val) ∧
    leadsTulleStops (.hostConfigWrite b (.atsEnable v)) s
      (xltDisabled (modBay s.hub b.val (fun r => { r with atsEn := v })) b.val) ∧
    leadsTulleStops (.hostConfigWrite b (.pasidEnable v)) s
      (xltDisabled (modBay s.hub b.val (fun r => { r with pasidEn := v })) b.val) ∧
    leadsTulleStops (.hostConfigWrite b (.priEnable false)) s (modBay s.hub b.val (fun r => { r with priEn := false })) ∧
    leadsTulleStops (.hostConfigWrite b (.priEnable true)) s
      (modBay (if (bayRt s.hub b.val).priEn then s.hub
        else { s.hub with xlt := { s.hub.xlt with priFail := s.hub.xlt.priFail.filter (· != b.val) } }) b.val
        (fun r => { r with priEn := true }))) ∧
  (∀ (s : State) (b : Bay) (n : Nat), hBay s.hub b.val = true →
    leadsTulleStops (.hostConfigWrite b (.priAllocation n)) s
      (retryFull (modBay s.hub b.val (fun r => { r with priAlloc := n })))) ∧
  (∀ (s : State) (b : Bay) (i : Fin 4) (hpa lines tpa ways gran pos : Nat), hBay s.hub b.val = true → lines ≠ 0 →
    leadsTulleStops (.hostConfigWrite b (.hdmDecoder i hpa lines tpa ways gran pos)) s
      (modBay s.hub b.val (fun r => { r with hdm := r.hdm.set i.val (some
        { hpa := hpa, lines := lines, tpa := tpa, ways := ways, gran := gran, pos := pos }) }))) ∧
  (∀ (s : State) (b : Bay) (i : Fin 4) (hpa tpa ways gran pos : Nat), hBay s.hub b.val = true →
    leadsTulleStops (.hostConfigWrite b (.hdmDecoder i hpa 0 tpa ways gran pos)) s
      (modBay s.hub b.val (fun r => { r with hdm := r.hdm.set i.val none }))) ∧
  (∀ (s : State) (b : Bay) (slot key : Nat), hBay s.hub b.val = true →
    leadsTulleStops (.hostConfigWrite b (.ideKey slot key)) s
      (modBay s.hub b.val (fun r => { r with ide := mapPut r.ide slot key }))) ∧
  (∀ (s : State) (b : Bay), hBay s.hub b.val = true →
    leadsTulleStops (.hostConfigWrite b (.read .vendorId)) s (emit s.hub (.readData (.hostH b) 0x1F4C)) ∧
    leadsTulleStops (.hostConfigWrite b (.read .deviceId)) s (emit s.hub (.readData (.hostH b) 0x4B48)) ∧
    leadsTulleStops (.hostConfigWrite b (.read .revisionId)) s (emit s.hub (.readData (.hostH b) 0x01)) ∧
    leadsTulleStops (.hostConfigWrite b (.read .classCode)) s (emit s.hub (.readData (.hostH b) 0x050210)) ∧
    leadsTulleStops (.hostConfigWrite b (.read .pasidWidth)) s (emit s.hub (.readData (.hostH b) 20)) ∧
    leadsTulleStops (.hostConfigWrite b (.read .priCapacity)) s (emit s.hub (.readData (.hostH b) 256)))

/-- R27, R28, R31, R32, R34 to R46, R51 to R53: training, link changes and the bays' configuration. -/
def Obligations.BayCommandsComplete : Prop :=
  (∀ (s : State) (b : Bay), leadOf s.hub b.val = b.val → fld s.hub (pBAY b.val) Fld.BAY.LSTAT_LSTATE = 5 →
    restState s.hub b.val = none →
    leadsTulle (.trainingRetry b) s
      (startTraining (advanceTo s.hub ((bayRt s.hub b.val).refusedAt + 2000000000)) b.val)) ∧
  (∀ (s : State) (b : Bay) (t : TrainIn) (c : Nat), training s.hub b.val = true → (bayRt s.hub b.val).trained = none →
    earlyRefusal s.hub b.val t = some c →
    leadsTulle (.trainingAttemptEnd b t) s 
      (refuse (putLanes (tsSend s.hub b.val t) b.val (lanesFound s.hub b.val t)) b.val c)) ∧
  (∀ (s : State) (b : Bay) (t : TrainIn), training s.hub b.val = true → (bayRt s.hub b.val).trained = none →
    earlyRefusal s.hub b.val t = none →
    leadsTulle (.trainingAttemptEnd b t) s (attemptEnd s.hub b.val t)) ∧
  (∀ (s : State) (b : Bay), training s.hub b.val = true → (bayRt s.hub b.val).trained = none →
    leadsTulle (.pollingTimeout b) s
      (refuse (putLanes s.hub b.val (lanesFound s.hub b.val unlocked)) b.val 0x02)) ∧
  (∀ (s : State) (b : Bay) (r : Nat), training s.hub b.val = true → rateNow s.hub b.val (bayRt s.hub b.val).tryRate = r →
    2 ≤ r → fld s.hub (pBAY b.val) Fld.BAY.LINKCFG_MIN_RATE < r → (bayRt s.hub b.val).trained = none →
    leadsTulle (.equalisationFail b) s
      (modBay s.hub b.val (fun x => { x with tryRate := r - 1, trained := none }))) ∧
  (∀ (s : State) (b : Bay) (r : Nat), training s.hub b.val = true → rateNow s.hub b.val (bayRt s.hub b.val).tryRate = r →
    2 ≤ r → r ≤ fld s.hub (pBAY b.val) Fld.BAY.LINKCFG_MIN_RATE →
    leadsTulle (.equalisationFail b) s (refuse s.hub b.val 0x09)) ∧
  (∀ (s : State) (b : Bay) (r : Nat), leadOf s.hub b.val = b.val → bayUp s.hub b.val = true →
    fld s.hub (pBAY b.val) Fld.BAY.LSTAT_RATE = r → 2 ≤ r → fld s.hub (pBAY b.val) Fld.BAY.LINKCFG_MIN_RATE < r →
    fld s.hub (pBAY b.val) Fld.BAY.CAUSE_CODE = 0 →
    leadsTulle (.equalisationFail b) s
      (setIstat (setFld (setFld s.hub (pBAY b.val) Fld.BAY.LSTAT_RATE (r - 1)) (pBAY b.val) Fld.BAY.CAUSE_CODE 0x14)
        (pBAY b.val) 3)) ∧
  (∀ (s : State) (b : Bay) (t : Trained), training s.hub b.val = true → restState s.hub b.val = none →
    (bayRt s.hub b.val).trained = some t → leadsTulle (.linkUp b) s (linkUp s.hub b.val)) ∧
  (∀ (s : State) (b : Bay), leadOf s.hub b.val = b.val → bayUp s.hub b.val = true →
    leadsTulle (.linkDown b) s (afterFall (linkFalls s.hub b.val) b.val)) ∧
  (∀ (s : State) (b : Bay), leadOf s.hub b.val = b.val → fld s.hub (pBAY b.val) Fld.BAY.LSTAT_LSTATE = 6 →
    leadsTulle (.flapHoldExpiry b) s
      (startTraining (advanceTo s.hub ((bayRt s.hub b.val).holdAt + (bayRt s.hub b.val).holdNow * 2000000000)) b.val)) ∧
  (∀ (s : State) (b : Bay), leadOf s.hub b.val = b.val → bayUp s.hub b.val = true →
    leadsTulle (.flapHoldReset b) s
      (modBay (advanceTo s.hub ((bayRt s.hub b.val).upAt + 120000000000)) b.val (fun r => { r with holdSecs := 1 }))) ∧
  (∀ (s : State) (o : Origin) (b : Bay) (v : Word), served s.hub o (pBAY b.val) 0x100 v.toNat →
    (roleAffects s.hub b.val v.toNat).all (atRest s.hub) = true → bits v.toNat 2 3 ≤ 4 →
    leadsTulle (.rolecfgWrite o b v) s (roleWrite s.hub b.val v.toNat).1) ∧
  (∀ (s : State) (o : Origin) (b : Bay) (v : Word), served s.hub o (pBAY b.val) 0x104 v.toNat →
    encodable s.hub o (pBAY b.val) 0x104 v.toNat →
    leadsTulle (.linkcfgWrite o b v) s (afterLinkcfg s.hub (stored s.hub o (pBAY b.val) 0x104 v.toNat) b.val)) ∧
  (∀ (s : State) (b : Bay), leadOf s.hub b.val = b.val → bayUp s.hub b.val = true →
    leadsTulle (.recoveryEntry b) s (bump s.hub (pBAY b.val) Fld.BAY.RECOVERY_CNT)) ∧
  (∀ (s : State) (b : Bay), leadOf s.hub b.val = b.val → bayUp s.hub b.val = true →
    leadsTulle (.flitReplay { bay := b, corrected := 0 }) s (bump s.hub (pBAY b.val) Fld.BAY.REPLAY_CNT)) ∧
  (∀ (s : State) (b : Bay) (n : Nat), leadOf s.hub b.val = b.val → bayUp s.hub b.val = true → n ≠ 0 →
    leadsTulle (.flitReplay { bay := b, corrected := n }) s
      (bump (bumpBy s.hub (pBAY b.val) Fld.BAY.FEC_CORR_CNT n) (pBAY b.val) Fld.BAY.REPLAY_CNT))

/-- R62, R63, R65, R66: the management bus, a failed keep store transfer and the test access port. -/
def Obligations.SidebandCommandsComplete : Prop :=
  (∀ (s : State) (scl sda : Bool) (t : BusTry), mgmtRuns s.hub = true → (scl || sda) = true →
    fld s.hub pPIN Fld.PIN.MGMT_STATE < 2 →
    leadsTulle (.i3cStuckTimeout scl sda t) s
      (recoverTry (setMgmt { s.hub with
        mgmt := { s.hub.mgmt with prev := fld s.hub pPIN Fld.PIN.MGMT_STATE, tries := 0 } } 2) t)) ∧
  (∀ (s : State) (t : BusTry), mgmtRuns s.hub = true → 2 ≤ fld s.hub pPIN Fld.PIN.MGMT_STATE →
    leadsTulle (.i3cRecoveryRetry t) s
      (recoverTry (advanceTo s.hub (s.hub.mgmt.at_ +
        (if fld s.hub pPIN Fld.PIN.MGMT_STATE = 3 then 20000000000 else 2000000000))) t)) ∧
  (∀ (h : Hub) (t : BusTry), t.sda = true → t.scl = false →
    recoverTry h t = recoverEnd
      { recoverStart { h with mgmt := { h.mgmt with addr := none } } with
        out := h.out ++ [.sclPulses 9, .i3cStop]
        pins := { h.pins with sclLow := t.sclAfter, sdaLow := t.sdaAfter } } (!t.sclAfter && !t.sdaAfter)) ∧
  (∀ (s : State) (a : BitVec 7), mgmtRuns s.hub = true → fld s.hub pPIN Fld.PIN.MGMT_STATE ≤ 1 →
    leadsTulle (.dynamicAddressAssignment a) s
      (setMgmt { s.hub with mgmt := { s.hub.mgmt with addr := some a.toNat } } 0)) ∧
  (∀ (s : State) (d : KsDev) (cause : Nat), devState s.hub d.val ≠ 2 →
    leadsTulle (.ksTransferFail d cause) s
      { devFail s.hub d.val cause 0 with out := (devFail s.hub d.val cause 0).out ++ [.ksBus d.val .parked] }) ∧
  (∀ s : State, leadsTap .tapBypass s
    { tapLoad s.hub .bypass with
      tap := { s.hub.tap with ir := .bypass, bypass := false }, out := (tapLoad s.hub .bypass).out ++ [.tdo 0] }) ∧
  (∀ s : State, leadsTap .tapIdcode s
    { tapLoad s.hub .idcode with out := (tapLoad s.hub .idcode).out ++ [.tdo Config.tapIdcode.toNat] }) ∧
  (∀ (s : State) (d : Nat), leadsTap (.tapSamplePreload d) s
    { tapLoad s.hub .sample with
      tap := { s.hub.tap with ir := .sample, preload := d }, free := s.hub.free + 1,
      out := (tapLoad s.hub .sample).out ++ [.tdo (Config.boundaryWord (sidebandLevels s.hub) s.hub.free)] }) ∧
  (∀ s : State, s.hub.tap.ir = .sample → leadsTap .tapExtest s
    { s.hub with
      tap := { s.hub.tap with ir := .extest }, free := s.hub.free + 1,
      out := s.hub.out ++ [.balls .scan s.hub.tap.preload,
        .tdo (Config.boundaryWord (sidebandLevels s.hub) s.hub.free)] }) ∧
  (∀ s : State, leadsTap .tapExtest s (tapCapture (tapLoad s.hub .extest))) ∧
  (∀ s : State, leadsTap .tapClamp s
    { tapLoad s.hub .clamp with tap := { s.hub.tap with ir := .clamp, bypass := false } }) ∧
  (∀ s : State, leadsTap .tapHighz s
    { tapLoad s.hub .highz with tap := { s.hub.tap with ir := .highz, bypass := false } }) ∧
  (∀ s : State, leadsTap .tapExtestPulse s (tapCapture (tapLoad s.hub .extestPulse))) ∧
  (∀ s : State, leadsTap .tapExtestTrain s (tapCapture (tapLoad s.hub .extestTrain))) ∧
  (∀ s : State, leadsTap .testLogicReset s (tapLoad s.hub .idcode)) ∧
  (∀ (h : Hub) (i : TapIr), tapLoad h i =
    { h with
      tap := { h.tap with ir := i }
      out := if tapDrive i = tapDrive h.tap.ir then h.out else h.out ++ [.balls (tapDrive i) h.tap.preload] })

/-- R6, R87, R97, R100 to R102: accesses of the register windows. -/
def Obligations.RegisterAccessesComplete : Prop :=
  (∀ (s : State) (o : Origin) (pg off v : Nat), off % 4 = 0 → off < 4096 → v < 2 ^ 32 → decodes s.hub o = true →
    pageExists pg = true →
    leadsPicot (.registerWrite (regAccess o pg off) v) s (regWrite32 s.hub o pg off v)) ∧
  (∀ (s : State) (o : Origin) (pg off : Nat), off % 4 = 0 → off < 4096 → decodes s.hub o = true → pageExists pg = true →
    readRefused s.hub o pg = false → allHidden (clsOf o) pg off = false → isRc pg off = true → lowHalf pg off = false →
    highHalf pg off = false →
    leadsHub (.rcRead (regAccess o pg off)) s
      (emit (clearRc s.hub (clsOf o) pg off) (.readData o (wordFor s.hub o pg off)))) ∧
  (∀ (s : State) (o : Origin) (pg off : Nat), off % 4 = 0 → off < 4096 → decodes s.hub o = true → pageExists pg = true →
    readRefused s.hub o pg = false → allHidden (clsOf o) pg off = false → isRc pg off = false → lowHalf pg off = true →
    leadsHub (.lowHalfRead (regAccess o pg off)) s
      (emit (latchArm s.hub o pg off (wordFor s.hub o pg (off + 4)) false) (.readData o (wordFor s.hub o pg off)))) ∧
  (∀ (s : State) (o : Origin) (pg off : Nat), off % 4 = 0 → off < 4096 → decodes s.hub o = true → pageExists pg = true →
    readRefused s.hub o pg = false → allHidden (clsOf o) pg off = false → isRc pg off = true → lowHalf pg off = true →
    leadsHub (.lowHalfRead (regAccess o pg off)) s
      (emit (latchArm (clearRc (clearRc s.hub (clsOf o) pg off) (clsOf o) pg (off + 4)) o pg off
        (wordFor s.hub o pg (off + 4)) true) (.readData o (wordFor s.hub o pg off)))) ∧
  (∀ (s : State) (o : Origin) (pg off : Nat) (l : Latch), off % 4 = 0 → off < 4096 → decodes s.hub o = true →
    pageExists pg = true → readRefused s.hub o pg = false → allHidden (clsOf o) pg off = false → lowHalf pg off = false →
    highHalf pg off = true → latchOf s.hub o = some l → l.page = pg → l.off = off - 4 → s.hub.htime - l.time < 1024 →
    leadsHub (.highHalfRead (regAccess o pg off)) s (emit (latchDrop s.hub o) (.readData o l.value))) ∧
  (∀ (s : State) (o : Origin) (l : Latch), latchOf s.hub o = some l →
    leadsHub (.latchExpiry o) s (latchLose (advanceTo s.hub (l.time + 1024)) o)) ∧
  (∀ (s : State) (o : Origin) (v : Word) (x : Nat × Nat),
    x ∈ [(pACN, 0x104), (pCNT, 0x108), (pSMP, 0x108), (pSCB, 0x11C)] → served s.hub o x.1 x.2 v.toNat →
    leadsPicot (.lowHalfWrite o x.1 x.2 v) s (stagePut s.hub o x.1 x.2 v.toNat)) ∧
  (∀ (s : State) (o : Origin) (v : Word) (x : Nat × Nat × FieldDef × FieldDef) (t : Stage),
    x ∈ [(pACN, 0x108, Fld.ACN.RING_BASE_LO, Fld.ACN.RING_BASE_HI), (pCNT, 0x10C, Fld.CNT.DUMP_BASE_LO, Fld.CNT.DUMP_BASE_HI),
      (pSMP, 0x10C, Fld.SMP.RING_BASE_LO, Fld.SMP.RING_BASE_HI), (pSCB, 0x120, Fld.SCB.RD_SEQ_LO, Fld.SCB.RD_SEQ_HI)] →
    served s.hub o x.1 x.2.1 v.toNat → stageFor s.hub o x.1 x.2.1 = some t → s.hub.htime - t.time < 1024 →
    leadsPicot (.highHalfWrite o x.1 x.2.1 v) s
      (setFld64 (stageDrop s.hub o) x.1 x.2.2.1 x.2.2.2 (t.value + 2 ^ 32 * v.toNat))) ∧
  (∀ (s : State) (o : Origin) (t : Stage), stageOf s.hub o = some t →
    leadsHub (.stageExpired o) s (stageLose (advanceTo s.hub (t.time + 1024)) o)) ∧
  (∀ (s : State) (o : Origin) (pg off n : Nat), decodes s.hub o = true → pageExists pg = true → off % 4 = 0 → n = 4 →
    perfServed s.hub o pg = true →
    leadsHub (.perfwinRead o pg off n) s
      (emit (perfPart s.hub o pg off 4).2 (.readData o (perfPart s.hub o pg off 4).1)))

/-- R93, R95, R105, R106, R108, R110, R371, R478: the header's registers and the MSI-X table. -/
def Obligations.HeaderCommandsComplete : Prop :=
  (∀ (s : State) (o : Origin) (pg : Nat) (v : Word), served s.hub o pg 0x020 v.toNat →
    leadsHub (.iforceWrite o pg v) s (iforce s.hub pg v.toNat)) ∧
  (∀ (s : State) (o : Origin) (pg : Nat) (v : Word), served s.hub o pg 0x018 v.toNat → encodable s.hub o pg 0x018 v.toNat →
    leadsHub (.istatClear o pg false v) s (afterIrqWrite s.hub (stored s.hub o pg 0x018 v.toNat) pg)) ∧
  (∀ (s : State) (o : Origin) (pg : Nat) (v : Word), served s.hub o pg 0x01C v.toNat → encodable s.hub o pg 0x01C v.toNat →
    leadsHub (.istatClear o pg true v) s (afterIrqWrite s.hub (stored s.hub o pg 0x01C v.toNat) pg)) ∧
  (∀ (s : State) (o : Origin) (pg : Nat), served s.hub o pg 0x024 1 → encodable s.hub o pg 0x024 1 →
    leadsHub (.errlogClear o pg) s (errlogClear (stored s.hub o pg 0x024 1) pg)) ∧
  (∀ (s : State) (o : Origin), served s.hub o pPAG 0x104 (2 ^ 20) → encodable s.hub o pPAG 0x104 (2 ^ 20) →
    leadsHub (.accerrClear o) s (accerrClear (stored s.hub o pPAG 0x104 (2 ^ 20)))) ∧
  (∀ (s : State) (o : Origin) (pg : Nat) (v : Word), served s.hub o pg 0x040 v.toNat →
    (flag s.hub pg Fld.HDR.LOCK_STICKY = false ∨ fld s.hub pg Fld.HDR.LOCK_LEVEL ≤ bits v.toNat 0 2) →
    (bits v.toNat 0 2 < 2 ∨ bits v.toNat 0 2 = 2 ∧ clsOf o ≠ .f) →
    leadsHub (.lockWrite o pg v) s
      (setFld (if bit v.toNat 2 then setFld s.hub pg Fld.HDR.LOCK_STICKY 1 else s.hub) pg Fld.HDR.LOCK_LEVEL
        (bits v.toNat 0 2))) ∧
  (∀ (s : State) (o : Origin) (pg : Nat) (v : Word), served s.hub o pg 0x044 v.toNat →
    leadsHub (.ownerWrite o pg v) s
      (afterRouteWrite s.hub (setFld (setFld (setFld s.hub pg Fld.HDR.OWNER_BAY (bits v.toNat 0 6)) pg
        Fld.HDR.OWNER_VALID (bits v.toNat 6 1)) pg Fld.HDR.OWNER_SHARED_RD (bits v.toNat 7 1)) pg)) ∧
  (∀ (s : State) (b : Bay) (i : Nat) (dw : Fin 4) (v : Word), (bayRt s.hub b.val).memSpaceEn = true →
    leadsHub (.msixTableAccess { bay := b, pba := false, i := i, dw := dw, write := some v }) s
      (msixWrite s.hub b.val (i % 2048) dw.val v.toNat)) ∧
  (∀ (s : State) (b : Bay) (pba : Bool) (i : Nat) (dw : Fin 4), (bayRt s.hub b.val).memSpaceEn = true →
    leadsHub (.msixTableAccess { bay := b, pba := pba, i := i, dw := dw, write := none }) s
      (emit s.hub (.readData (.hostH b)
        (if pba then pbaWord s.hub b.val (i % 64) else msixDw s.hub b.val (i % 2048) dw.val)))) ∧
  (∀ (s : State) (o : Origin) (pg : Nat), served s.hub o pg 0x0E0 (wordAs s.hub .z pg 0x0E0 ||| 2) →
    leadsHub (.counterClear o pg) s (countersClear s.hub pg))

/-- R177, R188, R202, R207, R211, R212, R217, R220, R222, R482: the commands of Pricking and of the media. -/
def Obligations.PrickingCommandsComplete : Prop :=
  (∀ (s : State) (o : Origin), served s.hub o pPRK 0x104 1 → s.hub.mode.mode = .assemble →
    flag s.hub pPRK Fld.PRK.STAT_FORMAT_BUSY = false →
    leadsCoh (.prkFormat o) s
      (setFld { s.hub with prk := { s.hub.prk with sets := [], wbBuf := [] } } pPRK Fld.PRK.STAT_FORMAT_BUSY 1)) ∧
  (∀ (s : State) (o : Origin), served s.hub o pPRK 0x104 2 → leadsCoh (.prkFlush o) s (flushStart s.hub)) ∧
  (∀ s : State, flag s.hub pPRK Fld.PRK.STAT_FLUSH_BUSY = true → s.hub.prk.wbBuf = [] →
    leadsHub .flushDone s (setFld s.hub pPRK Fld.PRK.STAT_FLUSH_BUSY 0)) ∧
  (∀ (s : State) (line : LineAddr) (t : Txn) (h : Hub), headOf s.hub line = some t → t.st = .look →
    (regionRead s.hub line).2 = 0 → fillWay s.hub line (entWord s.hub (regionRead s.hub line).1) false = some h →
    leadsCoh (.directoryReadReturn line false) s (beginHead (settleWaits h line) line t)) ∧
  (∀ (s : State) (line : LineAddr) (t : Txn), headOf s.hub line = some t → t.st = .look →
    (regionRead s.hub line).2 = 0 → fillWay s.hub line (entWord s.hub (regionRead s.hub line).1) false = none →
    leadsCoh (.directoryReadReturn line false) s
      (putTxn (bump s.hub pPRK Fld.PRK.WAY_STALL_CNT) line { t with st := .stall })) ∧
  (∀ (s : State) (line : LineAddr) (t : Txn) (h g : Hub) (b : Nat), headOf s.hub line = some t → t.st = .look →
    cancelledRead s.hub t.req = false → fillWay s.hub line (entWord s.hub .uncached) false = some h →
    mgmtTake (noteRebuild (specDiscard h line) line 1) line = some (b, g) →
    leadsCoh (.directoryReadReturn line true) s (startRebuild g line { t with rbob := some b })) ∧
  (∀ (s : State) (line : LineAddr) (t : Txn), headOf s.hub line = some t → t.st = .mrd →
    s.hub.prk.spec.find? (fun x => x.line == line && !x.back) = none →
    (mediaLine s.hub (localKey s.hub line)).poison = false →
    wayDown s.hub (wayOfData s.hub (localKey s.hub line)) = false →
    leadsCoh (.mediaReadData line false) s
      (useMemory (putTxn s.hub line (tagTxn t (fun g => { g with t4 := some s.hub.htime }))) line
        (tagTxn t (fun g => { g with t4 := some s.hub.htime })) (mediaLine s.hub (localKey s.hub line)).data false)) ∧
  (∀ (s : State) (line : LineAddr) (t : Txn), headOf s.hub line = some t → t.st = .mrd →
    s.hub.prk.spec.find? (fun x => x.line == line && !x.back) = none →
    leadsCoh (.mediaReadData line true) s
      (useMemory (putTxn (readPoisons s.hub line t.req) line (tagTxn t (fun g => { g with t4 := some s.hub.htime }))) line
        (tagTxn t (fun g => { g with t4 := some s.hub.htime })) (mediaLine s.hub (localKey s.hub line)).data true)) ∧
  (∀ (s : State) (line : LineAddr) (x : Spec),
    s.hub.prk.spec.find? (fun y => y.line == line && !y.back) = some x → x.discarded = true →
    leadsCoh (.mediaReadData line true) s
      (modSpec (bump s.hub pPRK Fld.PRK.SPEC_POISON_DROP_CNT) (fun l => l.erase x))) ∧
  (∀ (s : State) (line : LineAddr) (t : Txn) (d : LineData) (p : Bool) (x : LineData) (h : Hub),
    headOf s.hub line = some t → t.wdata = some (d, p) → t.st = .mwr → t.rebuild = false → t.req.op = .wrFull x →
    writeMedia s.hub line d p true = (h, false) →
    leadsCoh (.mediaWriteComplete line true) s
      (releaseHead (writeCmp (clearOnWrite (putTxn h line { t with wdata := none }) line .uncached) t.req t.contended)
        line)) ∧
  (∀ (s : State) (line : LineAddr) (t : Txn) (d : LineData) (p : Bool) (h : Hub), headOf s.hub line = some t →
    t.wdata = some (d, p) → t.st = .mwr → t.rebuild = false → t.req.op = .evict →
    writeMedia s.hub line d p true = (h, false) →
    leadsCoh (.mediaWriteComplete line true) s
      (releaseHead (setEnt (putTxn h line { t with wdata := none }) line .uncached) line)) ∧
  (∀ (s : State) (w : Nat), w ∉ s.hub.prk.timedOut →
    leadsCoh (.mediaCompletionTimeout w) s
      { s.hub with prk := { s.hub.prk with timedOut := w :: s.hub.prk.timedOut } }) ∧
  (∀ (s : State) (i : Nat) (k : Nat) (w : Way), s.hub.prk.wbBuf[i]? = some (k, w) →
    wayDown s.hub (wayOfLma s.hub (entryLma s.hub k)) = false →
    leadsCoh (.dirWritebackComplete i true) s
      { hoDirty s.hub k true with
        prk := { (hoDirty s.hub k true).prk with
          wbBuf := (hoDirty s.hub k true).prk.wbBuf.eraseIdx i
          region := mapSet (hoDirty s.hub k true).prk.region k w.word 0
          bad := (hoDirty s.hub k true).prk.bad.filter (· != k) } }) ∧
  (∀ (s : State) (i : Nat) (k : Nat) (w : Way), s.hub.prk.wbBuf[i]? = some (k, w) → k ∉ s.hub.prk.bad →
    leadsCoh (.dirWritebackComplete i false) s
      { s.hub with prk := { s.hub.prk with wbBuf := s.hub.prk.wbBuf.eraseIdx i, bad := k :: s.hub.prk.bad } })

/-- R114 to R117, R122 to R125, R144: admission, link state and map epochs. -/
def Obligations.EpochCommandsComplete : Prop :=
  (∀ (s : State) (b : Bay) (hd : Hdr) (m : HelloMsg), reaching s.hub b hd (.hello m) 0x60 →
    (tlink (received s.hub b hd (.hello m)) b.val).hello ≠ some m →
    leadsTulle (.hello b hd m) s
      (takeHello (received s.hub b hd (.hello m)) b.val (fromNode hd) m)) ∧
  (∀ (s : State) (b : Bay), tulleRuns s.hub = true → (tlink s.hub b.val).up = true →
    leadsTulle (.helloTimer b) s (sendHello (advanceTo s.hub ((tlink s.hub b.val).helloAt + 20000000)) b.val)) ∧
  (∀ (s : State) (b : Bay) (hd : Hdr) (m : SpdmIn), reaching s.hub b hd (.spdm m.packet) 0x61 →
    5 ≤ m.packet.length → m.packet.length ≤ 68 →
    leadsTulle (.spdm b hd m) s
      (if m.final then runChecks (modLink (received s.hub b hd (.spdm m.packet)) b.val
        (fun l => { l with auth := some (m.authOk, m.serial) })) b.val
      else sendSpdm (received s.hub b hd (.spdm m.packet)) b.val)) ∧
  (∀ (s : State) (b : Bay) (hd : Hdr) (seq : Nat) (links : List LsaLink), reaching s.hub b hd (.lsa seq links) 0x62 →
    fromNode hd ≠ ownNode (received s.hub b hd (.lsa seq links)) →
    seqNewer seq (nodeRt (received s.hub b hd (.lsa seq links)) (fromNode hd)).lsaSeq = true →
    leadsTulle (.lsa b hd seq links) s
      (floodOn (storeLsa (received s.hub b hd (.lsa seq links)) (fromNode hd) seq links) b.val hd (.lsa seq links))) ∧
  (∀ s : State, tulleRuns s.hub = true → s.hub.tulle.profile.isSome = true →
    leadsTulle .lsaTimer s (sendLsa (advanceTo s.hub (s.hub.tulle.lsaAt + 2000000000)))) ∧
  (∀ s : State, tulleRuns s.hub = true → s.hub.tulle.changed = true → quorumHeld s.hub = true →
    (presentNodes s.hub).foldl min 128 = ownNode s.hub → s.hub.tulle.own = none →
    leadsTulle .autoProposeTimer s (propose (advanceTo s.hub (s.hub.tulle.changedAt + 2000000)) [] false false)) ∧
  (∀ (s : State) (o : Origin), served s.hub o pHMAP 0x118 2 → (stageDiffs s.hub).length ≤ 1024 →
    leadsTulle (.hmapPropose o) s (propose s.hub (stageDiffs s.hub) true false)) ∧
  (∀ (s : State) (o : Origin), served s.hub o pHMAP 0x118 1 → leadsTulle (.hmapRestage o) s (restage s.hub)) ∧
  (∀ (s : State) (b : Bay) (hd : Hdr) (m : ProposeMsg), reaching s.hub b hd (.propose m) 0x63 →
    (floodNew (received s.hub b hd (.propose m)) 0x63 (fromNode hd) m.epoch).2 = true →
    leadsTulle (.propose b hd m) s
      (floodOn (takePropose (floodNew (received s.hub b hd (.propose m)) 0x63 (fromNode hd) m.epoch).1 (fromNode hd) m)
        b.val hd (.propose m))) ∧
  (∀ (s : State) (b : Bay) (hd : Hdr) (epoch first : Nat) (es : List (Nat × HEntry)),
    reaching s.hub b hd (.propMap epoch first es) 0x64 →
    (floodNew (received s.hub b hd (.propMap epoch first es)) 0x64 (fromNode hd) (epoch * 1024 + first)).2 = true →
    leadsTulle (.propMap b hd epoch first es) s
      (floodOn (takeEntries (floodNew (received s.hub b hd (.propMap epoch first es)) 0x64 (fromNode hd)
        (epoch * 1024 + first)).1 (fromNode hd) epoch es) b.val hd (.propMap epoch first es))) ∧
  (∀ (s : State) (b : Bay) (hd : Hdr) (epoch : Nat) (o : OwnProp), reaching s.hub b hd (.epoch epoch) 0x65 →
    (received s.hub b hd (.epoch epoch)).tulle.own = some o → o.epoch = epoch → o.committed = false →
    leadsTulle (.epochAck b hd epoch) s
      (tryCommit (modTulle (received s.hub b hd (.epoch epoch))
        (fun t => { t with own := some { o with awaiting := o.awaiting.erase (fromNode hd) } })))) ∧
  (∀ (s : State) (b : Bay) (hd : Hdr) (epoch cause : Nat) (o : OwnProp), reaching s.hub b hd (.refuse epoch cause) 0x66 →
    (received s.hub b hd (.refuse epoch cause)).tulle.own = some o → o.epoch = epoch → o.committed = false →
    leadsTulle (.refuse b hd epoch cause) s
      (disagree (abortProp (received s.hub b hd (.refuse epoch cause)) cause) cause (fromNode hd) 0)) ∧
  (∀ (s : State) (o : OwnProp), tulleRuns s.hub = true → s.hub.tulle.own = some o → o.committed = false →
    leadsTulle .epochTimeout s
      (disagree (abortProp (advanceTo s.hub (o.at_ + 20000000)) 0x0B) 0x0B (o.awaiting.headD (ownNode s.hub)) 0)) ∧
  (∀ (s : State) (b : Bay) (hd : Hdr) (epoch t : Nat), reaching s.hub b hd (.commit epoch t) 0x67 →
    (floodNew (received s.hub b hd (.commit epoch t)) 0x67 (fromNode hd) epoch).2 = true →
    leadsTulle (.commit b hd epoch t) s
      (floodOn (takeCommit (floodNew (received s.hub b hd (.commit epoch t)) 0x67 (fromNode hd) epoch).1
        (fromNode hd) epoch t) b.val hd (.commit epoch t))) ∧
  (∀ (s : State) (ep t : Nat), s.hub.tulle.commitAt = some (ep, t) →
    leadsTulle .epochActivation s
      (modTulle (activateStaged (if ftimeAhead s.hub t then advance s.hub (sub64 t (ftime s.hub)) else s.hub) ep)
        (fun x => { x with commitAt := none })))

/-- R125, R137 to R144: map fetch, fences, fabric time and heartbeats. -/
def Obligations.MembershipCommandsComplete : Prop :=
  (∀ (s : State) (b : Bay) (hd : Hdr) (epoch : Nat), reaching s.hub b hd (.epoch epoch) 0x68 →
    leadsTulle (.mapFetch b hd epoch) s
      (sendMap (sendMgmt (received s.hub b hd (.epoch epoch)) (fromNode hd) 0x6A 0
        (.mapState (received s.hub b hd (.epoch epoch)).tulle.epoch (received s.hub b hd (.epoch epoch)).tulle.members
          (received s.hub b hd (.epoch epoch)).tulle.root 2048)) (fromNode hd))) ∧
  (∀ (s : State) (b : Bay) (hd : Hdr) (epoch : Nat) (ms : List Nat) (root : Option Nat) (count : Nat) (f : Fetch),
    reaching s.hub b hd (.mapState epoch ms root count) 0x6A →
    (received s.hub b hd (.mapState epoch ms root count)).tulle.fetch = some f → f.peer = fromNode hd →
    leadsTulle (.mapState b hd epoch ms root count) s
      (modTulle (received s.hub b hd (.mapState epoch ms root count)) (fun t => { t with
        fetch := some { peer := f.peer, epoch := epoch, members := ms, root := root, left := count, entries := [] } }))) ∧
  (∀ (s : State) (b : Bay) (hd : Hdr) (epoch first : Nat) (es : List HEntry),
    reaching s.hub b hd (.mapData epoch first es) 0x69 →
    leadsTulle (.mapData b hd epoch first es) s
      (takeMapData (received s.hub b hd (.mapData epoch first es)) (fromNode hd) epoch first es)) ∧
  (∀ (s : State) (b : Bay) (hd : Hdr) (n : Node) (t : Nat), reaching s.hub b hd (.fence n.val t false) 0x6C →
    (floodNew (received s.hub b hd (.fence n.val t false)) 0x6C (fromNode hd) (n.val + 256 * t)).2 = true →
    leadsTulle (.fence b hd n t) s
      (floodOn (fenceNode (floodNew (received s.hub b hd (.fence n.val t false)) 0x6C (fromNode hd)
        (n.val + 256 * t)).1 n.val) b.val hd (.fence n.val t false))) ∧
  (∀ (s : State) (b : Bay) (hd : Hdr) (n : Node) (t : Nat), reaching s.hub b hd (.fence n.val t true) 0x6C →
    (floodNew (received s.hub b hd (.fence n.val t true)) 0x6C (fromNode hd) (n.val + 128 + 256 * t)).2 = true →
    leadsTulle (.unfence b hd n t) s
      (floodOn (unfenceNode (floodNew (received s.hub b hd (.fence n.val t true)) 0x6C (fromNode hd)
        (n.val + 128 + 256 * t)).1 n.val) b.val hd (.fence n.val t true))) ∧
  (∀ (s : State) (n : Node), tulleRuns s.hub = true → (nodeRt s.hub n.val).fenced = true →
    n.val = ownNode (unfenceNode (advanceTo s.hub ((nodeRt s.hub n.val).fencedAt + graceHc s.hub)) n.val) →
    (unfenceNode (advanceTo s.hub ((nodeRt s.hub n.val).fencedAt + graceHc s.hub)) n.val).mode.mode ≠ .seal →
    leadsTulle (.fenceGraceExpiry n) s
      (toAssemble (unfenceNode (advanceTo s.hub ((nodeRt s.hub n.val).fencedAt + graceHc s.hub)) n.val))) ∧
  (∀ (s : State) (n : Node), tulleRuns s.hub = true → (nodeRt s.hub n.val).fenced = true →
    n.val ≠ ownNode (unfenceNode (advanceTo s.hub ((nodeRt s.hub n.val).fencedAt + graceHc s.hub)) n.val) →
    (nodeRt s.hub n.val).present = true →
    leadsTulle (.fenceGraceExpiry n) s
      (memberLost (unfenceNode (advanceTo s.hub ((nodeRt s.hub n.val).fencedAt + graceHc s.hub)) n.val) n.val 5)) ∧
  (∀ (s : State) (b : Bay) (hd : Hdr) (t1 : Nat), reaching s.hub b hd (.time t1 0 0) 0x70 →
    flag (received s.hub b hd (.time t1 0 0)) pTIME Fld.TIME.STAT_NO_ROOT = false →
    leadsTulle (.timeReq b hd t1) s
      (judgeChild (sendMsg (received s.hub b hd (.time t1 0 0)) (fromNode hd) 0x71
        (intAgent (ownNode (received s.hub b hd (.time t1 0 0)))) 0 0 0 false 0
        (.time t1 (ftime (received s.hub b hd (.time t1 0 0))) 0)) (fromNode hd) t1)) ∧
  (∀ (s : State) (b : Bay) (hd : Hdr) (t1 t2 t3 root : Nat), reaching s.hub b hd (.time t1 t2 t3) 0x71 →
    (received s.hub b hd (.time t1 t2 t3)).tulle.root = some root →
    root ≠ ownNode (received s.hub b hd (.time t1 t2 t3)) →
    fld (received s.hub b hd (.time t1 t2 t3)) pTIME Fld.TIME.ROOT_PARENT = fromNode hd →
    leadsTulle (.timeRsp b hd t1 t2 t3) s
      (judgeTheta (adjust (setFld (received s.hub b hd (.time t1 t2 t3)) pTIME Fld.TIME.THETA
        (thetaWord (thetaOf t1 t2 t3 (ftime (received s.hub b hd (.time t1 t2 t3))))))
        (thetaOf t1 t2 t3 (ftime (received s.hub b hd (.time t1 t2 t3)))))
        (thetaOf t1 t2 t3 (ftime (received s.hub b hd (.time t1 t2 t3)))))) ∧
  (∀ (s : State) (b : Bay) (hd : Hdr) (m : HeartMsg), reaching s.hub b hd (.heart m) 0x72 →
    fromNode hd ≠ ownNode (received s.hub b hd (.heart m)) →
    (profileNodes (received s.hub b hd (.heart m))).contains (fromNode hd) = true →
    (nodeRt (received s.hub b hd (.heart m)) (fromNode hd)).dead = false →
    seqNewer m.seq (nodeRt (received s.hub b hd (.heart m)) (fromNode hd)).hbSeq = true →
    leadsTulle (.heartbeat b hd m) s
      (takeHeartbeat (floodOn (received s.hub b hd (.heart m)) b.val hd (.heart m)) (fromNode hd) m)) ∧
  (∀ (s : State) (n : Node), tulleRuns s.hub = true → (nodeRt s.hub n.val).present = true → n.val ≠ ownNode s.hub →
    leadsTulle (.heartbeatTimeout n) s
      (memberLost (advanceTo s.hub ((nodeRt s.hub n.val).hbAt + 6500000)) n.val 4))

/-- R129, R133 to R135, R180, R234, R235, R246: credits and egress. -/
def Obligations.CreditAndEgressCommandsComplete : Prop :=
  (∀ (s : State) (b : Bay) (ret ech : List Nat), (tlink s.hub b.val).up = true →
    leadsHub (.flitCreditBlock b ret ech) s (modLink s.hub b.val (fun l => creditsBack l ret ech))) ∧
  (∀ (s : State) (b : Bay), (tlink s.hub b.val).up = true → (tlink s.hub b.val).echoSent ≠ (tlink s.hub b.val).retSeen →
    egressPick s.hub (tlink s.hub b.val) = none →
    leadsHub (.creditFlitTimer b) s
      (emit (creditBlock s.hub b.val (reqWithheld s.hub (atBound s.hub))).1
        (.flit b.val (creditBlock s.hub b.val (reqWithheld s.hub (atBound s.hub))).2.1
          (creditBlock s.hub b.val (reqWithheld s.hub (atBound s.hub))).2.2 0 false))) ∧
  (∀ (s : State) (b : Bay),
    leadsCoh (.egressGrant (.tlink b)) s (egressLink s.hub b.val (reqWithheld s.hub (atBound s.hub)))) ∧
  (∀ (s : State) (b : Bay) (line : LineAddr), (egressBay s.hub b.val).2 = some line →
    leadsCoh (.egressGrant (.bay b)) s
      ((homeAck (egressBay s.hub b.val).1 line (bayAgent (egressBay s.hub b.val).1 b.val)).getD
        (egressBay s.hub b.val).1)) ∧
  (∀ (s : State) (b : Bay), (egressBay s.hub b.val).2 = none →
    leadsCoh (.egressGrant (.bay b)) s (egressBay s.hub b.val).1)

/-- R264, R266, R268, R456, R457, Table MOD-3: live home handoff and the transfer of poison records. -/
def Obligations.HandoffCommandsComplete : Prop :=
  (∀ (s : State) (b : Bay) (hd : Hdr) (g l : Nat), reaching s.hub b hd (.handoff g 0 l 0 0) 0x6D →
    leadsTulle (.hoOffer b hd g l) s (takeOffer (received s.hub b hd (.handoff g 0 l 0 0)) (fromNode hd) g l)) ∧
  (∀ (s : State) (b : Bay) (hd : Hdr) (g l : Nat), reaching s.hub b hd (.handoff g 1 l 0 0) 0x6D →
    handWith (received s.hub b hd (.handoff g 1 l 0 0)) (fromNode hd) g (fun a => a.st == .offer) = true →
    leadsTulle (.hoAccept b hd g l) s
      (hoStat (modHandA (received s.hub b hd (.handoff g 1 l 0 0)) (fun a => { a with st := .copy })) 2 0)) ∧
  (∀ (s : State) (b : Bay) (hd : Hdr) (g l : Nat), reaching s.hub b hd (.handoff g 2 l 0 0) 0x6D →
    handWith (received s.hub b hd (.handoff g 2 l 0 0)) (fromNode hd) g (fun a => a.st == .offer) = true →
    leadsTulle (.hoRefuse b hd g l) s (handAbort (received s.hub b hd (.handoff g 2 l 0 0)) 1)) ∧
  (∀ (s : State) (b : Bay) (hd : Hdr) (g l n k : Nat), reaching s.hub b hd (.handoff g 3 l n k) 0x6D →
    leadsTulle (.hoSent b hd g l n k) s
      (receivedCheck (modTulle (received s.hub b hd (.handoff g 3 l n k)) (fun t => { t with
        handB := t.handB.map (fun x =>
          if x.gran = g && x.from_ = fromNode hd then { x with want := some n, owners := k } else x) })) (fromNode hd))) ∧
  (∀ (s : State) (b : Bay) (hd : Hdr) (g l : Nat), reaching s.hub b hd (.handoff g 4 l 0 0) 0x6D →
    handWith (received s.hub b hd (.handoff g 4 l 0 0)) (fromNode hd) g (fun a => a.st == .freeze && a.flushed) = true →
    leadsTulle (.hoReceived b hd g l) s
      (modHandA (received s.hub b hd (.handoff g 4 l 0 0)) (fun a => { a with acked := true }))) ∧
  (∀ (s : State) (b : Bay) (hd : Hdr) (g l : Nat), reaching s.hub b hd (.handoff g 5 l 0 0) 0x6D →
    leadsTulle (.hoAbort b hd g l) s
      (modTulle (received s.hub b hd (.handoff g 5 l 0 0)) (fun t => { t with
        handB := t.handB.filter (fun x => !(x.gran == g && x.from_ == fromNode hd)) }))) ∧
  (∀ (s : State) (b : Bay) (hd : Hdr) (item : CopyItem) (x : HandB), reaching s.hub b hd (.copy item) 0x6F →
    (received s.hub b hd (.copy item)).tulle.handB.find? (fun x => x.from_ == fromNode hd) = some x →
    leadsTulle (.hoCopy b hd item) s
      (receivedCheck (modTulle (copyIn (received s.hub b hd (.copy item)) x item) (fun t => { t with
        handB := t.handB.map (fun y =>
          if y.gran = x.gran && y.from_ = fromNode hd then { y with got := y.got + 1 } else y) })) (fromNode hd))) ∧
  (∀ (s : State) (b : Bay) (hd : Hdr) (g : Nat) (mark : Bool) (es : List PsnEntry),
    reaching s.hub b hd (.xfer g true mark es) 0x6E →
    leadsTulle (.psnXfer b hd g true mark es) s
      (xferConfirmed (received s.hub b hd (.xfer g true mark es)) g mark es)) ∧
  (∀ (s : State) (b : Bay) (hd : Hdr) (g : Nat) (es : List PsnEntry), reaching s.hub b hd (.xfer g false false es) 0x6E →
    leadsTulle (.psnXfer b hd g false false es) s
      (es.foldl (fun h e => takeForeign h (fromNode hd) e) (received s.hub b hd (.xfer g false false es)))) ∧
  (∀ (s : State) (b : Bay) (hd : Hdr) (g : Nat) (es : List PsnEntry), reaching s.hub b hd (.xfer g false true es) 0x6E →
    marked (received s.hub b hd (.xfer g false true es)) g = true →
    leadsTulle (.psnXfer b hd g false true es) s
      (commitAnswer (received s.hub b hd (.xfer g false true es)) (.mark g (some (fromNode hd))))) ∧
  (∀ (s : State) (b : Bay) (hd : Hdr) (g : Nat) (es : List PsnEntry), reaching s.hub b hd (.xfer g false true es) 0x6E →
    marked (received s.hub b hd (.xfer g false true es)) g = false →
    leadsTulle (.psnXfer b hd g false true es) s
      (markGranule (received s.hub b hd (.xfer g false true es)) g (some (fromNode hd)))) ∧
  (∀ (s : State) (o : Origin) (us : Nat), served s.hub o pMOD 0x114 (1 + 2 * us) → 0 < us → us ≤ 4000 →
    leadsTulle (.handoffStart o us) s (handStart (setFld s.hub pMOD Fld.MOD.HO_CTL_FREEZE_MAX_US us))) ∧
  (∀ (s : State) (a : HandA), s.hub.tulle.handA = some a → a.st = .copy →
    leadsTulle .handoffCopyDone s (copyDone s.hub)) ∧
  (∀ (s : State) (a : HandA), s.hub.tulle.handA = some a → a.st = .freeze → a.flushed = false →
    s.hub.coh.chains.any (fun c => granuleOf c.1 == a.gran) = false →
    leadsTulle .handoffChainsEmpty s (freezeFlush s.hub)) ∧
  (∀ (s : State) (a : HandA), s.hub.tulle.handA = some a → a.st = .freeze →
    leadsTulle .freezeTimeout s
      (handAbort (advanceTo s.hub (a.froze + fld s.hub pMOD Fld.MOD.HO_CTL_FREEZE_MAX_US * 2000 + 1)) 2))

/-- R121, R131, R233: requests of peers arrive at their home. -/
def Obligations.PeerRequestsArrive : Prop :=
  (∀ (s : State) (b : Bay) (hd : Hdr), requested s.hub b hd .none 1 →
    leadsCoh (.rdShared (.arrive b hd)) s
      (ingressPut (receive s.hub b.val hd .none true).1 (srcLink b.val) 0
        (peerReq (receive s.hub b.val hd .none true).1 hd .rdShared) (some b.val))) ∧
  (∀ (s : State) (b : Bay) (hd : Hdr), requested s.hub b hd .none 2 →
    leadsCoh (.rdAny (.arrive b hd)) s
      (ingressPut (receive s.hub b.val hd .none true).1 (srcLink b.val) 0
        (peerReq (receive s.hub b.val hd .none true).1 hd .rdAny) (some b.val))) ∧
  (∀ (s : State) (b : Bay) (hd : Hdr), requested s.hub b hd .none 3 →
    leadsCoh (.rdOwn (.arrive b hd)) s
      (ingressPut (receive s.hub b.val hd .none true).1 (srcLink b.val) 0
        (peerReq (receive s.hub b.val hd .none true).1 hd .rdOwn) (some b.val))) ∧
  (∀ (s : State) (b : Bay) (hd : Hdr), requested s.hub b hd .none 4 →
    leadsCoh (.rdCur (.arrive b hd)) s
      (ingressPut (receive s.hub b.val hd .none true).1 (srcLink b.val) 0
        (peerReq (receive s.hub b.val hd .none true).1 hd .rdCur) (some b.val))) ∧
  (∀ (s : State) (b : Bay) (hd : Hdr), requested s.hub b hd .none 5 →
    leadsCoh (.upgrade (.arrive b hd)) s
      (ingressPut (receive s.hub b.val hd .none true).1 (srcLink b.val) 0
        (peerReq (receive s.hub b.val hd .none true).1 hd .upgrade) (some b.val))) ∧
  (∀ (s : State) (b : Bay) (hd : Hdr) (d : LineData), requested s.hub b hd (.line d) 6 →
    leadsCoh (.wrFull (.arrive b hd) d) s
      (ingressPut (receive s.hub b.val hd (.line d) true).1 (srcLink b.val) 0
        (peerReq (receive s.hub b.val hd (.line d) true).1 hd (.wrFull d)) (some b.val))) ∧
  (∀ (s : State) (b : Bay) (hd : Hdr) (a : AtomicArg), requested s.hub b hd (.atomic a) 7 →
    leadsCoh (.atomic (.arrive b hd) a) s
      (ingressPut (receive s.hub b.val hd (.atomic a) true).1 (srcLink b.val) 0
        (peerReq (receive s.hub b.val hd (.atomic a) true).1 hd (.atomic a)) (some b.val))) ∧
  (∀ (s : State) (b : Bay) (hd : Hdr) (d : LineData) (c c' : AgentId), c = rlcAgent (bits hd.attr 16 7) →
    requested s.hub b hd (.stash d c) 8 →
    leadsCoh (.stash (.arrive b hd) d c') s
      (ingressPut (receive s.hub b.val hd (.stash d c) true).1 (srcLink b.val) 0
        (peerReq (receive s.hub b.val hd (.stash d c) true).1 hd (.stash d c)) (some b.val))) ∧
  (∀ (s : State) (b : Bay) (hd : Hdr) (d : LineData), requested s.hub b hd (.line d) 0x40 →
    leadsCoh (.wbDirty b hd d) s
      { (receive s.hub b.val hd (.line d) true).1 with coh := { (receive s.hub b.val hd (.line d) true).1.coh with
          staging := (receive s.hub b.val hd (.line d) true).1.coh.staging ++
            [{ slice := sliceOf hd.addr, src := srcLink b.val,
               req := peerReq (receive s.hub b.val hd (.line d) true).1 hd (.wbDirty d), link := some b.val,
               since := (receive s.hub b.val hd (.line d) true).1.htime }] } })

/-- R185: the request at the head of a line's chain is served by its row. -/
def Obligations.CoherenceRequestsServed : Prop :=
  (∀ (s : State) (line : LineAddr), headIs s.hub line 1 →
    leadsCoh (.rdShared (.serve line)) s (serveHead s.hub line)) ∧
  (∀ (s : State) (line : LineAddr), headIs s.hub line 2 →
    leadsCoh (.rdAny (.serve line)) s (serveHead s.hub line)) ∧
  (∀ (s : State) (line : LineAddr), headIs s.hub line 3 →
    leadsCoh (.rdOwn (.serve line)) s (serveHead s.hub line)) ∧
  (∀ (s : State) (line : LineAddr), headIs s.hub line 4 →
    leadsCoh (.rdCur (.serve line)) s (serveHead s.hub line)) ∧
  (∀ (s : State) (line : LineAddr), headIs s.hub line 5 →
    leadsCoh (.upgrade (.serve line)) s (serveHead s.hub line)) ∧
  (∀ (s : State) (line : LineAddr) (d : LineData), headIs s.hub line 6 →
    leadsCoh (.wrFull (.serve line) d) s (serveHead s.hub line)) ∧
  (∀ (s : State) (line : LineAddr) (a : AtomicArg), headIs s.hub line 7 →
    leadsCoh (.atomic (.serve line) a) s (serveHead s.hub line)) ∧
  (∀ (s : State) (line : LineAddr) (d : LineData) (c : AgentId), headIs s.hub line 8 →
    leadsCoh (.stash (.serve line) d c) s (serveHead s.hub line))

/-- R161, R174, R195: snoops and pushes at the remote line cache. -/
def Obligations.SnoopCommandsComplete : Prop :=
  (∀ (s : State) (b : Bay) (hd : Hdr), (receive s.hub b.val hd .none true).2 = true → hd.opc = 0x10 →
    reservedSrc hd.src = false → hd.sized = true →
    leadsCoh (.snpInv b hd) s
      (rlcSnoop (receive s.hub b.val hd .none true).1 b.val hd.addr (snpOf hd))) ∧
  (∀ (s : State) (b : Bay) (hd : Hdr), (receive s.hub b.val hd .none true).2 = true → hd.opc = 0x11 →
    reservedSrc hd.src = false → hd.sized = true →
    leadsCoh (.snpData b hd) s
      (rlcSnoop (receive s.hub b.val hd .none true).1 b.val hd.addr (snpOf hd))) ∧
  (∀ (s : State) (b : Bay) (hd : Hdr), (receive s.hub b.val hd .none true).2 = true → hd.opc = 0x12 →
    reservedSrc hd.src = false → hd.sized = true →
    leadsCoh (.snpFwd b hd) s
      (rlcSnoop (receive s.hub b.val hd .none true).1 b.val hd.addr (snpOf hd))) ∧
  (∀ (s : State) (b : Bay) (hd : Hdr) (d : LineData), meant s.hub b hd (.line d) 0x32 →
    leadsCoh (.stashPush b hd d) s
      (rlcPush (received s.hub b hd (.line d)) hd.addr (agentNode hd.src) hd.tag (hd.prio % 8) d))

/-- R172, R179, R186, R188: answers that the home's transaction awaits. -/
def Obligations.AnswerCommandsComplete : Prop :=
  (∀ (s : State) (b : Bay) (hd : Hdr) (h' : Hub), meant s.hub b hd .none 0x20 →
    forOpen (received s.hub b hd .none) hd →
    homeAnswer (received s.hub b hd .none) hd.addr hd.src .rspI = some h' →
    leadsCoh (.rspI b hd) s h') ∧
  (∀ (s : State) (b : Bay) (hd : Hdr) (h' : Hub), meant s.hub b hd .none 0x21 →
    forOpen (received s.hub b hd .none) hd →
    homeAnswer (received s.hub b hd .none) hd.addr hd.src .rspS = some h' →
    leadsCoh (.rspS b hd) s h') ∧
  (∀ (s : State) (b : Bay) (hd : Hdr) (h' : Hub), meant s.hub b hd .none 0x22 → hd.attr % 8 ≤ 1 →
    forOpen (received s.hub b hd .none) hd →
    homeAnswer (received s.hub b hd .none) hd.addr hd.src (.fwd (hd.attr % 8 == 1)) = some h' →
    leadsCoh (.rspFwd b hd) s h') ∧
  (∀ (s : State) (b : Bay) (hd : Hdr) (d : LineData) (h h' : Hub),
    (receive s.hub b.val hd (.line d) true).2 = true → hd.opc = 0x41 → reservedSrc hd.src = false → hd.sized = true →
    (receive s.hub b.val hd (.line d) true).1.coh.staging.all (fun x => x.req.line != hd.addr) = true →
    oweCredits (receive s.hub b.val hd (.line d) true).1 b.val 4 5 = h → forOpen h hd → hd.attr % 8 ≤ 1 →
    homeAnswer h hd.addr hd.src
      (if bit hd.attr 3 then .fwdWb (hd.attr % 8 == 1) d hd.poison
       else .wb (hd.attr % 8 == 1) d hd.poison (BitVec.allOnes 64)) = some h' →
    leadsCoh (.snpWb b hd d) s h') ∧
  (∀ (s : State) (b : Bay) (hd : Hdr) (h' : Hub), meant s.hub b hd .none 0x24 →
    forOpen (received s.hub b hd .none) hd →
    homeAck (received s.hub b hd .none) hd.addr hd.src = some h' →
    leadsCoh (.ack b hd) s h') ∧
  (∀ (s : State) (b : Bay) (hd : Hdr) (h' : Hub), meant s.hub b hd .none 0x25 →
    forOpen (received s.hub b hd .none) hd →
    homeStashAck (received s.hub b hd .none) hd.addr hd.src (bit hd.attr 0) = some h' →
    leadsCoh (.stashAck b hd) s h')

/-- R159, R171, R194, R197: data and completions at the requester. -/
def Obligations.RequesterCommandsComplete : Prop :=
  (∀ (s : State) (b : Bay) (hd : Hdr) (d : LineData) (h' : Hub), meant s.hub b hd (.line d) 0x30 →
    mapGet? (received s.hub b hd (.line d)).coh.outs hd.addr = none →
    rlcData (received s.hub b hd (.line d)) hd.addr (agentNode hd.src) hd.tag d hd.poison (hd.attr % 8) (bit hd.attr 3) false =
      some h' →
    leadsCoh (.data b hd d) s h') ∧
  (∀ (s : State) (b : Bay) (hd : Hdr) (d : LineData) (r : Req), meant s.hub b hd (.line d) 0x30 →
    mapGet? (received s.hub b hd (.line d)).coh.outs hd.addr = some r → readOp r.op = true → hd.attr % 8 = 0 →
    leadsCoh (.data b hd d) s
      (outEnd (replyData (received s.hub b hd (.line d)) r r.bob d hd.poison 0 false none) hd.addr r)) ∧
  (∀ (s : State) (b : Bay) (hd : Hdr) (d : LineData) (h' : Hub), meant s.hub b hd (.line d) 0x50 →
    mapGet? (received s.hub b hd (.line d)).coh.outs hd.addr = none →
    rlcData (received s.hub b hd (.line d)) hd.addr (homeNode (received s.hub b hd (.line d)) hd.addr) hd.tag d hd.poison
      (hd.attr % 8) false true = some h' →
    leadsCoh (.dataFwd b hd d) s h') ∧
  (∀ (s : State) (b : Bay) (hd : Hdr) (h' : Hub), meant s.hub b hd .none 0x23 →
    mapGet? (received s.hub b hd .none).coh.outs hd.addr = none →
    rlcCmp (received s.hub b hd .none) hd.addr (agentNode hd.src) hd.tag (hd.attr % 8) (bit hd.attr 3) = some h' →
    leadsCoh (.cmp b hd) s h') ∧
  (∀ (s : State) (b : Bay) (hd : Hdr) (r : Req) (d : LineData), meant s.hub b hd .none 0x23 →
    mapGet? (received s.hub b hd .none).coh.outs hd.addr = some r → r.op = .wrFull d →
    leadsCoh (.cmp b hd) s (outEnd (replyCmp (received s.hub b hd .none) r r.bob 0 false none) hd.addr r)) ∧
  (∀ (s : State) (b : Bay) (hd : Hdr) (r : Req) (d : LineData) (c : AgentId), meant s.hub b hd .none 0x23 →
    mapGet? (received s.hub b hd .none).coh.outs hd.addr = some r → r.op = .stash d c →
    leadsCoh (.cmp b hd) s (outEnd (replyCmp (received s.hub b hd .none) r r.bob 0 false none) hd.addr r)) ∧
  (∀ (s : State) (b : Bay) (hd : Hdr) (old : BitVec 64) (st : Nat) (r : Req) (a : AtomicArg),
    meant s.hub b hd (.word (old.toNat + 2 ^ 64 * st)) 0x31 →
    mapGet? (received s.hub b hd (.word (old.toNat + 2 ^ 64 * st))).coh.outs hd.addr = some r → r.op = .atomic a →
    leadsCoh (.dataAtm b hd old st) s
      (outEnd (replyAtm (predMove (received s.hub b hd (.word (old.toNat + 2 ^ 64 * st))) hd.addr (bit hd.attr 3)) r r.bob old
        (st % 256) false) hd.addr r))

/-- R21, R158, R163, R164, R189, R191, R231, R271, R461, R462, Table COH-7: the messages of a host. -/
def Obligations.HostMemoryCommandsComplete : Prop :=
  (∀ (s : State) (b : Bay) (hpa : Nat) (line : LineAddr), hostTakes s.hub b hpa line →
    leadsCoh (.memrd b hpa .s) s
      (ingressPut s.hub b.val 0 (localReq s.hub (.host b.val hpa) (bayAgent s.hub b.val) .rdShared line false
        (fld s.hub pBOB Fld.BOB.PRI_H)) none)) ∧
  (∀ (s : State) (b : Bay) (hpa : Nat) (line : LineAddr), hostTakes s.hub b hpa line →
    leadsCoh (.memrd b hpa .a) s
      (ingressPut s.hub b.val 0 (localReq s.hub (.host b.val hpa) (bayAgent s.hub b.val) .rdOwn line false
        (fld s.hub pBOB Fld.BOB.PRI_H)) none)) ∧
  (∀ (s : State) (b : Bay) (hpa : Nat) (line : LineAddr), hostTakes s.hub b hpa line →
    leadsCoh (.memrd b hpa .i) s
      (ingressPut s.hub b.val 0 (localReq s.hub (.host b.val hpa) (bayAgent s.hub b.val) .rdCur line false
        (fld s.hub pBOB Fld.BOB.PRI_H)) none)) ∧
  (∀ (s : State) (b : Bay) (hpa : Nat) (line : LineAddr), hostTakes s.hub b hpa line →
    leadsCoh (.memrddata b hpa) s
      (ingressPut s.hub b.val 0 (localReq s.hub (.host b.val hpa) (bayAgent s.hub b.val) .rdAny line false
        (fld s.hub pBOB Fld.BOB.PRI_H)) none)) ∧
  (∀ (s : State) (b : Bay) (hpa : Nat) (line : LineAddr), hostTakes s.hub b hpa line →
    leadsCoh (.meminv b hpa .a) s
      (ingressPut s.hub b.val 0 (localReq s.hub (.host b.val hpa) (bayAgent s.hub b.val) .upgrade line false
        (fld s.hub pBOB Fld.BOB.PRI_H)) none)) ∧
  (∀ (s : State) (b : Bay) (hpa : Nat) (line : LineAddr), hostTakes s.hub b hpa line →
    leadsCoh (.meminv b hpa .i) s
      (bayPut (notice s.hub line (bayAgent s.hub b.val)) b.val (.memCmp b.val hpa 0) none srcInternal
        (fld s.hub pBOB Fld.BOB.PRI_WB))) ∧
  (∀ (s : State) (b : Bay) (hpa : Nat) (line : LineAddr), hostTakes s.hub b hpa line →
    leadsCoh (.memclnevct b hpa) s
      (bayPut (notice s.hub line (bayAgent s.hub b.val)) b.val (.memCmp b.val hpa 0) none srcInternal
        (fld s.hub pBOB Fld.BOB.PRI_WB))) ∧
  (∀ (s : State) (b : Bay) (hpa : Nat), modeRejects s.hub (bayAgent s.hub b.val) = false →
    leadsHub (.memspecrd b hpa) s s.hub) ∧
  (∀ (s : State) (b : Bay) (hpa : Nat) (line : LineAddr) (m : Meta0) (d : LineData) (mask : BitVec 64) (poison : Bool),
    hostTakes s.hub b hpa line →
    leadsCoh (.memwr b hpa m d mask poison) s
      { s.hub with coh := { s.hub.coh with staging := s.hub.coh.staging ++
          [{ slice := sliceOf line, src := b.val, link := none,
             req := localReq s.hub (.host b.val hpa) (bayAgent s.hub b.val) (.memWr d mask m) line poison
               (fld s.hub pBOB Fld.BOB.PRI_H), since := s.hub.htime }] } }) ∧
  (∀ (s : State) (b : Bay) (line : LineAddr) (shared : Bool) (h' : Hub), hostOk s.hub b.val = true →
    agentDead s.hub (bayAgent s.hub b.val) = false →
    localAnswer (takeWrites s.hub line (bayAgent s.hub b.val)).1 line (bayAgent s.hub b.val) shared
      (takeWrites s.hub line (bayAgent s.hub b.val)).2 = some h' →
    leadsCoh (.birsp b line shared) s h') ∧
  (∀ (s : State) (b : Bay) (line : LineAddr), hostOk s.hub b.val = true →
    snoopOut s.hub line (bayAgent s.hub b.val) = true →
    leadsCoh (.biconflict b line) s
      (bayPut s.hub b.val (.biConflictAck b.val line) none srcInternal (fld s.hub pBOB Fld.BOB.PRI_SNP))) ∧
  (∀ (s : State) (b : Bay), b.val ∈ memBays s.hub 1 → hostWritesDone s.hub b.val = true →
    leadsTulle (.gpfPhase2Request b) s
      (emit (modBay s.hub b.val (fun r => { r with gpfAsked := false, gpfFlushed := true })) (.gpfDone b.val))) ∧
  (∀ (s : State) (b : Bay), s.hub.mode.sealPhase = 5 → b.val ∈ memBays s.hub 2 →
    leadsTulle (.gpfComplete b) s (modBay s.hub b.val (fun r => { r with gpfFlushed := true }))) ∧
  (∀ (s : State) (b : Bay), hostOk s.hub b.val = true →
    leadsHub (.getPoisonList b) s
      (emit s.hub (.poisonList b.val
        ((hdmDecs s.hub b.val).flatMap (fun d => (s.hub.psn.entries.filter (fun e =>
          e.2.kind == 1 && d.tpa ≤ e.2.line && e.2.line < d.tpa + d.size)).map (fun e => d.hpaAt (e.2.line - d.tpa))))
        ((hdmDecs s.hub b.val).flatMap (fun d => (s.hub.psn.marks.filter (fun m =>
          d.tpa < (m.1 + 1) * 2 ^ 24 && m.1 * 2 ^ 24 < d.tpa + d.size)).map
            (fun m => d.hpaAt (m.1 * 2 ^ 24 - d.tpa)))))))

/-- R158, R163, R175, R191, R192, Table COH-7: the messages of a device. -/
def Obligations.DeviceCacheCommandsComplete : Prop :=
  (∀ (s : State) (b : Bay) (line : LineAddr), devTakes s.hub b line →
    leadsCoh (.d2hRead b .rdShared line) s
      (ingressPut s.hub b.val 0 (localReq s.hub (.dev b.val) (bayAgent s.hub b.val) .rdShared line false
        (fld s.hub pBOB Fld.BOB.PRI_D)) none)) ∧
  (∀ (s : State) (b : Bay) (line : LineAddr), devTakes s.hub b line →
    leadsCoh (.d2hRead b .rdAny line) s
      (ingressPut s.hub b.val 0 (localReq s.hub (.dev b.val) (bayAgent s.hub b.val) .rdAny line false
        (fld s.hub pBOB Fld.BOB.PRI_D)) none)) ∧
  (∀ (s : State) (b : Bay) (line : LineAddr), devTakes s.hub b line →
    leadsCoh (.d2hRead b .rdOwn line) s
      (ingressPut s.hub b.val 0 (localReq s.hub (.dev b.val) (bayAgent s.hub b.val) .rdOwn line false
        (fld s.hub pBOB Fld.BOB.PRI_D)) none)) ∧
  (∀ (s : State) (b : Bay) (line : LineAddr), devTakes s.hub b line →
    leadsCoh (.d2hRead b .rdCurr line) s
      (ingressPut s.hub b.val 0 (localReq s.hub (.dev b.val) (bayAgent s.hub b.val) .rdCur line false
        (fld s.hub pBOB Fld.BOB.PRI_D)) none)) ∧
  (∀ (s : State) (b : Bay) (line : LineAddr), devTakes s.hub b line →
    leadsCoh (.d2hRead b .rdOwnNoData line) s
      (ingressPut s.hub b.val 0 (localReq s.hub (.dev b.val) (bayAgent s.hub b.val) .upgrade line false
        (fld s.hub pBOB Fld.BOB.PRI_D)) none)) ∧
  (∀ (s : State) (b : Bay) (line : LineAddr) (op : D2hWr), devTakes s.hub b line →
    leadsCoh (.d2hWrite b op line (BitVec.allOnes 64)) s
      (ingressPut s.hub b.val 0 (localReq s.hub (.dev b.val) (bayAgent s.hub b.val) (.wrFull 0) line false
        (fld s.hub pBOB Fld.BOB.PRI_D)) none)) ∧
  (∀ (s : State) (b : Bay) (line : LineAddr) (op : D2hWr) (mask : BitVec 64), devTakes s.hub b line → mask ≠ BitVec.allOnes 64 →
    leadsCoh (.d2hWrite b op line mask) s
      (ingressPut s.hub b.val 0 (localReq s.hub (.dev b.val) (bayAgent s.hub b.val) (.wrPart 0 mask) line false
        (fld s.hub pBOB Fld.BOB.PRI_D)) none)) ∧
  (∀ (s : State) (b : Bay) (line : LineAddr), devTakes s.hub b line →
    leadsCoh (.clflush b line) s
      (ingressPut s.hub b.val 0 (localReq s.hub (.dev b.val) (bayAgent s.hub b.val) .flush line false
        (fld s.hub pBOB Fld.BOB.PRI_D)) none)) ∧
  (∀ (s : State) (b : Bay) (line : LineAddr), devTakes s.hub b line →
    leadsCoh (.dirtyevict b line) s
      (ingressPut s.hub b.val 1 (localReq s.hub (.dev b.val) (bayAgent s.hub b.val) .evict line false
        (fld s.hub pBOB Fld.BOB.PRI_WB)) none)) ∧
  (∀ (s : State) (b : Bay) (line : LineAddr), devTakes s.hub b line →
    leadsCoh (.cleanevict b line false) s
      (bayPut (notice s.hub line (bayAgent s.hub b.val)) b.val (.goWritePullDrop b.val line) none srcInternal
        (fld s.hub pBOB Fld.BOB.PRI_WB))) ∧
  (∀ (s : State) (b : Bay) (line : LineAddr), devTakes s.hub b line →
    leadsCoh (.cleanevict b line true) s
      (bayPut (notice s.hub line (bayAgent s.hub b.val)) b.val (.go b.val line 0) none srcInternal
        (fld s.hub pBOB Fld.BOB.PRI_WB))) ∧
  (∀ (s : State) (b : Bay), devOk s.hub b.val = true → modeRejects s.hub (bayAgent s.hub b.val) = false →
    leadsHub (.cacheflushed b) s
      (bayPut s.hub b.val (.go b.val 0 0) none srcInternal (fld s.hub pBOB Fld.BOB.PRI_D))) ∧
  (∀ (s : State) (b : Bay) (line : LineAddr) (d : LineData) (poison : Bool) (h' : Hub), devOk s.hub b.val = true →
    agentDead s.hub (bayAgent s.hub b.val) = false →
    localAnswer s.hub line (bayAgent s.hub b.val) false none = some h' →
    leadsCoh (.d2hRsp b .rspIHitSE line d poison) s (homeEvicts h' line (bayAgent s.hub b.val))) ∧
  (∀ (s : State) (b : Bay) (line : LineAddr) (d : LineData) (poison : Bool) (h' : Hub), devOk s.hub b.val = true →
    agentDead s.hub (bayAgent s.hub b.val) = false →
    localAnswer s.hub line (bayAgent s.hub b.val) true none = some h' →
    leadsCoh (.d2hRsp b .rspSHitSE line d poison) s (homeEvicts h' line (bayAgent s.hub b.val))) ∧
  (∀ (s : State) (b : Bay) (line : LineAddr) (d : LineData) (poison : Bool) (h' : Hub), devOk s.hub b.val = true →
    agentDead s.hub (bayAgent s.hub b.val) = false →
    localAnswer s.hub line (bayAgent s.hub b.val) false (some (d, BitVec.allOnes 64, poison)) = some h' →
    leadsCoh (.d2hRsp b .rspIFwdM line d poison) s (homeEvicts h' line (bayAgent s.hub b.val))) ∧
  (∀ (s : State) (b : Bay) (line : LineAddr) (d : LineData) (poison : Bool) (h' : Hub), devOk s.hub b.val = true →
    agentDead s.hub (bayAgent s.hub b.val) = false →
    localAnswer s.hub line (bayAgent s.hub b.val) true (some (d, BitVec.allOnes 64, poison)) = some h' →
    leadsCoh (.d2hRsp b .rspSFwdM line d poison) s (homeEvicts h' line (bayAgent s.hub b.val))) ∧
  (∀ (s : State) (b : Bay) (line : LineAddr) (d : LineData) (poison : Bool) (h' : Hub), devOk s.hub b.val = true →
    agentDead s.hub (bayAgent s.hub b.val) = false →
    localAnswer s.hub line (bayAgent s.hub b.val) false none = some h' →
    leadsCoh (.d2hRsp b .rspIHitI line d poison) s
      (bump (homeEvicts h' line (bayAgent s.hub b.val)) pCOH Fld.COH.SNP_STALE)) ∧
  (∀ (s : State) (b : Bay) (line : LineAddr) (d : LineData) (poison : Bool) (h' : Hub), devOk s.hub b.val = true →
    agentDead s.hub (bayAgent s.hub b.val) = false →
    homePulled s.hub line (bayAgent s.hub b.val) d poison = some h' → leadsCoh (.d2hData b line d poison) s h')

/-- R275 to R279, R281, R283, R437 to R440: assignment, doorbells, pushes and acceptance. -/
def Obligations.QueueCommandsComplete : Prop :=
  (∀ (s : State) (o : Origin) (v : Word), served s.hub o pQCTL 0x104 v.toNat →
    ((queue s.hub (fld s.hub pQCTL Fld.QCTL.QSEL)).st = .unassigned ∨
      (queue s.hub (fld s.hub pQCTL Fld.QCTL.QSEL)).st = .idle ∨
      (queue s.hub (fld s.hub pQCTL Fld.QCTL.QSEL)).st = .stopped) →
    opsOf s.hub (fld s.hub pQCTL Fld.QCTL.QSEL) = [] →
    leadsHub (.qassign o v) s
      (modQueue s.hub (fld s.hub pQCTL Fld.QCTL.QSEL) (fun x => { x with
        bay := bits v.toNat 0 6, int := bit v.toNat 6,
        st := if bit v.toNat 7 then (if x.st = .unassigned then .idle else x.st) else .unassigned }))) ∧
  (∀ (s : State) (o : Origin) (q : Nat) (u : DbUnit), q < 16384 → decodes s.hub o = true →
    ringsQueue s.hub o q = true → u.setup = false → (queue s.hub q).st = .enabled → u.zeroOk = true →
    (u.sqValid = false ∨ sub32 (queue s.hub q).tail (queue s.hub q).accept ≤ sub32 u.sqTail (queue s.hub q).accept ∧
      sub32 u.sqTail (queue s.hub q).accept ≤ 2 ^ (queue s.hub q).sqLog2) →
    (u.cqValid = false ∨ sub32 u.cqHead (queue s.hub q).head ≤ sub32 (queue s.hub q).complete (queue s.hub q).head) →
    leadsStops (.sqTailDoorbell o q u) s
      (modQueue s.hub q (fun x => { x with tail := if u.sqValid then u.sqTail % 2 ^ 32 else x.tail,
                                           head := if u.cqValid then u.cqHead % 2 ^ 32 else x.head }))) ∧
  (∀ (s : State) (o : Origin) (q : Nat) (u : DbUnit), q < 16384 → decodes s.hub o = true →
    ringsQueue s.hub o q = true → u.setup = false → (queue s.hub q).st = .enabled → u.zeroOk = true →
    (u.sqValid = false ∨ sub32 (queue s.hub q).tail (queue s.hub q).accept ≤ sub32 u.sqTail (queue s.hub q).accept ∧
      sub32 u.sqTail (queue s.hub q).accept ≤ 2 ^ (queue s.hub q).sqLog2) →
    (u.cqValid = false ∨ sub32 u.cqHead (queue s.hub q).head ≤ sub32 (queue s.hub q).complete (queue s.hub q).head) →
    leadsStops (.cqHeadDoorbell o q u) s
      (modQueue s.hub q (fun x => { x with tail := if u.sqValid then u.sqTail % 2 ^ 32 else x.tail,
                                           head := if u.cqValid then u.cqHead % 2 ^ 32 else x.head }))) ∧
  (∀ (s : State) (o : Origin) (q : Nat) (u : DbUnit), q < 16384 → decodes s.hub o = true →
    ringsQueue s.hub o q = true → u.setup = true → mgmtQueue q = true →
    ((queue s.hub q).st = .idle ∨ (queue s.hub q).st = .stopped) → opsOf s.hub q = [] → u.zeroOk = true →
    ringsOk u.sqLog2 u.cqLog2 u.sqBase u.cqBase = true → u.vector < 2048 →
    leadsStops (.setupDoorbell o q u) s
      (modQueue s.hub q (fun x => { x with st := .enabled, cause := 0, sqBase := u.sqBase, cqBase := u.cqBase,
                                           sqLog2 := u.sqLog2, cqLog2 := u.cqLog2, vector := u.vector, accept := 0,
                                           complete := 0, tail := 0, head := 0, pushed := [] }))) ∧
  (∀ (s : State) (o : Origin) (q : Nat) (e : BitVec 512), q < 16384 → decodes s.hub o = true →
    ringsQueue s.hub o q = true → (queue s.hub q).st = .enabled →
    sub32 (queue s.hub q).tail (queue s.hub q).accept < 2 ^ (queue s.hub q).sqLog2 → (queue s.hub q).pushed.length < 4 →
    leadsHub (.descriptorPush o q e) s
      (modQueue s.hub q (fun x => { x with pushed := x.pushed ++ [(x.tail, e)], tail := (x.tail + 1) % 2 ^ 32 }))) ∧
  (∀ (s : State) (q tok : Nat) (entry e : BitVec 512), queueReady (queue s.hub q) = true → tokensHeld s.hub < 1024 →
    turnOther s.hub s.ram q = false → heldEntry s.ram (queue s.hub q) = some e → modeAccepts s.hub q e = true →
    s.hub.scb.boot = 2 → ringFree439 s.hub = true → (durableClass q e && durBlocked s.hub) = false →
    freeTok 1024 s.hub.mov.toks 0 = some tok →
    leadsStops (.entryAccept q entry) s (accept s.hub q tok e)) ∧
  (∀ (s : State) (q tok : Nat) (entry : BitVec 512) (h1 : Hub), queueReady (queue s.hub q) = true →
    tokensHeld s.hub < 1024 → turnOther s.hub s.ram q = false → heldEntry s.ram (queue s.hub q) = none →
    sqRead s.hub q = (h1, true) → modeAccepts h1 q entry = true → h1.scb.boot = 2 → ringFree439 h1 = true →
    (durableClass q entry && durBlocked h1) = false → freeTok 1024 h1.mov.toks 0 = some tok →
    leadsStops (.entryAccept q entry) s (accept h1 q tok entry))

/-- R286, R287, R290 to R297, R332, R333: the movers' ops. -/
def Obligations.MoverCommandsComplete : Prop :=
  (∀ (s : State) (t : OpStep), onStream s.hub t.tok 1 = true →
    leadsHub (.copy t) s (pump (tileStep s.hub t.tok t.tile t.host t.poison) t.tok)) ∧
  (∀ (s : State) (t : OpStep), onStream s.hub t.tok 2 = true →
    leadsHub (.fill t) s (pump (tileStep s.hub t.tok t.tile t.host t.poison) t.tok)) ∧
  (∀ (s : State) (t : OpStep), onStream s.hub t.tok 3 = true →
    leadsHub (.compare t) s (pump (tileStep s.hub t.tok t.tile t.host t.poison) t.tok)) ∧
  (∀ (s : State) (t : OpStep), onStream s.hub t.tok 4 = true →
    leadsHub (.crc32c t) s (pump (tileStep s.hub t.tok t.tile t.host t.poison) t.tok)) ∧
  (∀ (s : State) (t : OpStep), onStream s.hub t.tok 5 = true →
    leadsHub (.moverStash t) s (pump (tileStep s.hub t.tok t.tile t.host t.poison) t.tok)) ∧
  (∀ (s : State) (t : OpStep), onStream s.hub t.tok 6 = true →
    leadsHub (.atomicBatch t) s (pump (tileStep s.hub t.tok t.tile t.host t.poison) t.tok)) ∧
  (∀ (s : State) (tok : Nat) (o : Op), adviseTurn s.hub tok 0 o →
    leadsHub (.adviseWillneed tok) s (opSettle (willneed 256 (putOp s.hub tok { o with begun := true }) tok) tok)) ∧
  (∀ (s : State) (tok : Nat) (o : Op), adviseTurn s.hub tok 1 o → o.begun = false →
    leadsHub (.adviseDontneed tok) s
      (opSettle (modOp (modOp (invAsk s.hub
        { src := .op o.seq, bay := (queue s.hub o.q).bay, pasid := some (queue s.hub o.q).pasid,
          va := (eDst o.entry).addr, len := eLen o.entry })
        tok (fun o => { o with inval := true })) tok (fun o => { o with begun := true })) tok)) ∧
  (∀ (s : State) (tok : Nat) (o : Op), adviseTurn s.hub tok 2 o → o.begun = false →
    leadsHub (.adviseHot tok) s
      (opSettle (modOp ((regionsOf s.hub o).foldl
        (fun h r => hotRecord h r 2 (ownNode h * 64 + ownerCode (queue h o.q)) 0) s.hub)
        tok (fun o => { o with begun := true })) tok)) ∧
  (∀ (s : State) (tok : Nat) (o : Op), adviseTurn s.hub tok 3 o → o.begun = false →
    leadsHub (.adviseCold tok) s
      (opSettle (modOp { s.hub with meter := { s.hub.meter with sets := s.hub.meter.sets.map (fun e =>
        if (regionsOf s.hub o).contains e.1 then (e.1, { e.2 with slots := List.replicate 16 0 }) else e) } }
        tok (fun o => { o with begun := true })) tok)) ∧
  (∀ (s : State) (t : OpStep) (o : Op), opOf s.hub t.tok = some o → onStream s.hub t.tok 8 = true → o.begun = true →
    leadsHub (.migrate t) s (pump (tileStep s.hub t.tok t.tile t.host t.poison) t.tok)) ∧
  (∀ (s : State) (t : OpStep) (o : Op) (i : Nat), opOf s.hub t.tok = some o → onStream s.hub t.tok 8 = true →
    o.begun = false → o.fail = none → o.aborted = false →
    (List.range 16).find? (fun i => (mapGet? s.hub.xlt.holds i).isNone) = some i →
    leadsHub (.migrate t) s
      (putOp (invAsk (putHold s.hub i
          { tok := t.tok, bay := (queue s.hub o.q).bay, pasid := (queue s.hub o.q).pasid, va := (eSrc o.entry).addr,
            len := eLen o.entry, posted := none })
        { src := .op o.seq, bay := (queue s.hub o.q).bay, pasid := some (queue s.hub o.q).pasid,
          va := (eSrc o.entry).addr, len := eLen o.entry }) t.tok { o with begun := true, inval := true })) ∧
  (∀ (s : State) (g : Fin 4) (tok m : Nat) (o : Op), groupHead s.hub g.val = some tok → domState s.hub (12 + g.val) = 0 →
    (s.hub.mode.mode = .serve ∨ s.hub.mode.mode = .drain) → s.hub.mode.toMaintain = false →
    pickMover s.hub g.val = some m → opOf s.hub tok = some o →
    leadsHub (.opDispatch g) s (noMoverCheck (pump
      (dispatched (putOp { s.hub with mov := { s.hub.mov with dq := s.hub.mov.dq.filter (· != tok) } } tok
        { o with st := .stream m ((freeStreams s.hub m).headD 0) }) tok o) tok))) ∧
  (∀ (s : State) (tok tile : Nat), leadsHub (.tileComplete tok tile) s (tileDone s.hub tok tile)) ∧
  (∀ (s : State) (tok : Nat) (o : Op), opOf s.hub tok = some o → mayPost s.hub tok o = true →
    (queue s.hub o.q).int = true →
    leadsStops (.opCompletion tok true) s
      (post { s.hub with sram := s.hub.sram ++ [(cqAddr (queue s.hub o.q), cqBytes (queue s.hub o.q) o)] } tok o)) ∧
  (∀ (s : State) (tok : Nat) (o : Op), opOf s.hub tok = some o → mayPost s.hub tok o = true →
    (queue s.hub o.q).int = false → mgmtQueue o.q = true → quadOpen s.hub (queue s.hub o.q).bay = true →
    leadsStops (.opCompletion tok true) s
      (post (emit s.hub (.hostWrite (queue s.hub o.q).bay (cqAddr (queue s.hub o.q)) true none
        (cqBytes (queue s.hub o.q) o) false)) tok o)) ∧
  (∀ (s : State) (o : Origin) (m : Mover) (v : Word), served s.hub o (pMOV m.val) 0x100 v.toNat →
    encodable s.hub o (pMOV m.val) 0x100 v.toNat →
    leadsHub (.moverEnable o m v) s (noMoverCheck (stored s.hub o (pMOV m.val) 0x100 v.toNat)))

/-- R282, R288, R289, R291, R298, R315, R319, R325, R326, R329: the management commands of a queue. -/
def Obligations.ManagementCommandsComplete : Prop :=
  (∀ (s : State) (tok : Nat) (o : Op), mgmtTurn s.hub tok 0x40 o →
    leadsHub (.nop tok) s
      (opEnds s.hub tok 0 0 0)) ∧
  (∀ (s : State) (tok : Nat) (o : Op) (base i : Nat), mgmtTurn s.hub tok 0x41 o →
    (if (queue s.hub o.q).int then resolveInternal s.hub (eB o.entry 8 8) (eB o.entry 16 8 / 64)
      else resolveHpa s.hub (queue s.hub o.q).bay (eB o.entry 8 8 / 64) (eB o.entry 16 8 / 64)) = some base →
    freeReach 65536 s.hub.mov.reach 0 = some i → i < 65536 →
    leadsHub (.reachCreate tok) s
      (opEnds (putReach s.hub i
        { base := base, lines := eB o.entry 16 8 / 64, perm := eB o.entry 26 1 % 8, gen := (reachOf s.hub i).gen,
          valid := true, bay := ownerCode (queue s.hub o.q), ctx := eB o.entry 24 2, retired := false }) tok 0
        (ownNode s.hub * 2 ^ 25 + i * 32 + (reachOf s.hub i).gen) 0)) ∧
  (∀ (s : State) (tok : Nat) (o : Op), mgmtTurn s.hub tok 0x42 o →
    hNode (eB o.entry 8 4) = ownNode s.hub → hIdx (eB o.entry 8 4) < 65536 →
    (reachOf s.hub (hIdx (eB o.entry 8 4))).valid = true →
    (reachOf s.hub (hIdx (eB o.entry 8 4))).gen = hGen (eB o.entry 8 4) →
    (reachOf s.hub (hIdx (eB o.entry 8 4))).bay = ownerCode (queue s.hub o.q) →
    leadsHub (.reachRevoke tok) s
      (mgmtHolds (putReach s.hub (hIdx (eB o.entry 8 4)) { reachOf s.hub (hIdx (eB o.entry 8 4)) with
        valid := false, gen := (hGen (eB o.entry 8 4) + 1) % 32,
        retired := hGen (eB o.entry 8 4) == 31 }) tok false)) ∧
  (∀ (s : State) (tok : Nat) (o : Op), mgmtTurn s.hub tok 0x43 o →
    mgmtQueue (eB o.entry 8 2) = false → eB o.entry 8 2 < 16384 →
    ownerCode (queue s.hub (eB o.entry 8 2)) = ownerCode (queue s.hub o.q) →
    (queue s.hub (eB o.entry 8 2)).int = (queue s.hub o.q).int →
    ((queue s.hub (eB o.entry 8 2)).st = .idle ∨ (queue s.hub (eB o.entry 8 2)).st = .stopped) →
    opsOf s.hub (eB o.entry 8 2) = [] →
    leadsHub (.queueCreate tok) s
      (opEnds (modQueue s.hub (eB o.entry 8 2) (fun y => { y with
        st := .enabled, cause := 0, prio := eB o.entry 12 1 % 8, mirror := !y.int && eB o.entry 13 1 = 1,
        group := eB o.entry 14 1 % 4, sqLog2 := eB o.entry 10 1, cqLog2 := eB o.entry 11 1, sqBase := eB o.entry 16 8,
        cqBase := eB o.entry 24 8, pasid := if y.int then 0 else eB o.entry 32 4 % 2 ^ 20, ctx := eB o.entry 36 2,
        vector := if y.int then 0 else eB o.entry 38 2 % 2048, accept := 0, complete := 0, tail := 0, head := 0,
        pushed := [] })) tok 0 0 0)) ∧
  (∀ (s : State) (tok : Nat) (o : Op), mgmtTurn s.hub tok 0x44 o →
    eB o.entry 8 2 < 16384 → ownerCode (queue s.hub (eB o.entry 8 2)) = ownerCode (queue s.hub o.q) →
    (queue s.hub (eB o.entry 8 2)).int = (queue s.hub o.q).int → (queue s.hub (eB o.entry 8 2)).st = .enabled →
    leadsHub (.queueDestroy tok) s
      (noMoverCheck (destroyCheck (forget (abortUndispatched (mgmtHolds (modQueue s.hub (eB o.entry 8 2)
        (fun y => { y with st := .destroying })) tok false) (eB o.entry 8 2) tok)
        (fun w => w == .sq (eB o.entry 8 2))) (eB o.entry 8 2)))) ∧
  (∀ (s : State) (tok : Nat) (o : Op), mgmtTurn s.hub tok 0x45 o →
    eB o.entry 8 2 < 16384 → ownerCode (queue s.hub (eB o.entry 8 2)) = ownerCode (queue s.hub o.q) →
    (queue s.hub (eB o.entry 8 2)).int = (queue s.hub o.q).int → (queue s.hub (eB o.entry 8 2)).st ≠ .unassigned →
    leadsHub (.queueSetPrio tok) s
      (opEnds (modQueue s.hub (eB o.entry 8 2) (fun y => { y with prio := eB o.entry 10 1 % 8 })) tok 0 0 0)) ∧
  (∀ (s : State) (tok : Nat) (o : Op), mgmtTurn s.hub tok 0x50 o →
    s.hub.xlt.binds.length < 1024 →
    mapGet? s.hub.xlt.binds (ownerCode (queue s.hub o.q) * 2 ^ 20 + eB o.entry 8 3 % 2 ^ 20) = none →
    hNode (eB o.entry 12 4) = ownNode s.hub → hIdx (eB o.entry 12 4) < 65536 →
    (reachOf s.hub (hIdx (eB o.entry 12 4))).valid = true →
    (reachOf s.hub (hIdx (eB o.entry 12 4))).bay = ownerCode (queue s.hub o.q) →
    leadsHub (.xltBind tok) s
      (opEnds { s.hub with xlt := { s.hub.xlt with
        binds := mapPut s.hub.xlt.binds (ownerCode (queue s.hub o.q) * 2 ^ 20 + eB o.entry 8 3 % 2 ^ 20)
          { handle := eB o.entry 12 4, root := eB o.entry 16 8, ctx := eB o.entry 24 2 } } } tok 0 0 0)) ∧
  (∀ (s : State) (tok : Nat) (o : Op), mgmtTurn s.hub tok 0x51 o →
    leadsHub (.xltInval tok) s
      (mgmtHolds (invAsk s.hub
        { src := .op o.seq, bay := ownerCode (queue s.hub o.q),
          pasid := if bit (eB o.entry 11 1) 0 then none else some (eB o.entry 8 3 % 2 ^ 20), va := eB o.entry 16 8,
          len := eB o.entry 24 8 }) tok true)) ∧
  (∀ (s : State) (tok : Nat) (o : Op) (f : FaultE), mgmtTurn s.hub tok 0x52 o →
    mapGet? s.hub.xlt.faults (eB o.entry 8 1) = some f → f.mirror = true → f.bay = ownerCode (queue s.hub o.q) →
    leadsStops (.xltResume tok) s
      (opEnds (faultEnds s.hub (eB o.entry 8 1) (eB o.entry 9 1 = 0)) tok 0 0 0)) ∧
  (∀ (s : State) (tok : Nat) (o : Op), mgmtTurn s.hub tok 0x53 o →
    leadsHub (.xltFring tok) s
      (opEnds { s.hub with xlt := { s.hub.xlt with
        rings := mapPut s.hub.xlt.rings (ownerCode (queue s.hub o.q))
          { log2 := eB o.entry 8 1, vector := eB o.entry 10 2, base := eB o.entry 16 8, cnt := 0 } } } tok 0 0 0)) ∧
  (∀ (s : State) (tok : Nat) (o : Op), mgmtTurn s.hub tok 0x54 o →
    (mapGet? s.hub.xlt.binds (ownerCode (queue s.hub o.q) * 2 ^ 20 + eB o.entry 8 3 % 2 ^ 20)).isSome = true →
    leadsHub (.xltUnbind tok) s
      (mgmtHolds (invAsk { s.hub with xlt := { s.hub.xlt with
        binds := mapDel s.hub.xlt.binds (ownerCode (queue s.hub o.q) * 2 ^ 20 + eB o.entry 8 3 % 2 ^ 20) } }
        { src := .op o.seq, bay := ownerCode (queue s.hub o.q), pasid := some (eB o.entry 8 3 % 2 ^ 20), va := 0, len := 0 })
        tok true))

/-- R312, R313, R316, R317, R324, R326, R329 to R331, R333, R335: translation and the heat sketch. -/
def Obligations.TranslationCommandsComplete : Prop :=
  (∀ (s : State) (slot pa log2 : Nat) (rd w u : Bool) (x : Xlat), mapGet? s.hub.xlt.slots slot = some x → x.mirror = false →
    (if x.write then w else rd) = true →
    leadsStops (.atsTranslationCompletion slot (.ok pa log2 rd w u)) s
      (xlatEnds s.hub slot x (.inl (atsEntry x pa (max log2 12) w u)))) ∧
  (∀ (s : State) (slot : Nat) (x : Xlat), mapGet? s.hub.xlt.slots slot = some x → x.mirror = false →
    leadsStops (.atsTranslationCompletion slot .urOrCa) s (xlatEnds s.hub slot x (.inr 1))) ∧
  (∀ (s : State) (slot size pa : Nat) (w : Bool) (x : Xlat) (r : MRes), mapGet? s.hub.xlt.slots slot = some x →
    s.hub.coh.mres.find? (fun r => r.tok == 1024 + slot) = some r → r.poison = false →
    tableEntry x.level (bits r.data.toNat (64 * (x.off / 8 % 8)) 64) x.write = .leaf size pa w →
    leadsStops (.mirrorWalkRead slot) s
      (xlatEnds { s.hub with coh := { s.hub.coh with mres := s.hub.coh.mres.filter (fun r => r.tok != 1024 + slot) } } slot x
        (.inl (walkTlb x r.data size pa w)))) ∧
  (∀ (s : State) (b : Bay) (idx : Nat) (f : FaultE), mapGet? s.hub.xlt.faults idx = some f → f.mirror = false →
    f.bay = b.val →
    leadsStops (.prgResponse b idx .success) s (faultEnds s.hub idx true)) ∧
  (∀ (s : State) (b : Bay) (idx : Nat) (f : FaultE), mapGet? s.hub.xlt.faults idx = some f → f.mirror = false →
    f.bay = b.val →
    leadsStops (.prgResponse b idx .invalid) s (faultEnds s.hub idx false)) ∧
  (∀ (s : State) (b : Bay) (idx : Nat) (f : FaultE), mapGet? s.hub.xlt.faults idx = some f → f.mirror = false →
    f.bay = b.val →
    leadsStops (.prgResponse b idx .failure) s (faultEnds { s.hub with xlt := { s.hub.xlt with
        priFail := b.val :: s.hub.xlt.priFail.filter (· != b.val) } } idx false)) ∧
  (∀ (s : State) (b : Bay) (idx : Nat) (c : PrgCode), mapGet? s.hub.xlt.faults idx = none →
    leadsStops (.prgResponse b idx c) s (lateRsp s.hub)) ∧
  (∀ (s : State) (idx : Nat) (f : FaultE), mapGet? s.hub.xlt.faults idx = some f →
    leadsStops (.faultTimeout idx) s
      (faultEnds (advanceTo s.hub (f.time + fld s.hub pXLT Fld.XLT.CFG_FAULT_TO_MS * 2000000)) idx false)) ∧
  (∀ (s : State) (b : Bay) (glob : Bool) (pasid va log2 tag : Nat), bayUp s.hub b.val = true →
    leadsHub (.atsInvalidateRequest b glob pasid va log2 tag) s
      (invAsk s.hub
        { src := .host tag, bay := b.val, pasid := if glob then none else some pasid,
          va := va / 2 ^ max log2 12 * 2 ^ max log2 12, len := 2 ^ max log2 12 })) ∧
  (∀ s : State, s.hub.xlt.run = none → s.hub.xlt.invs ≠ [] →
    leadsStops .invalidationStart s (pumpAll (invStart s.hub))) ∧
  (∀ (s : State) (v : Inv) (t : Nat), s.hub.xlt.run = some (v, t, false) →
    leadsHub .invalidationSweepEnd s
      { advanceTo s.hub (t + 2050) with xlt := { (advanceTo s.hub (t + 2050)).xlt with run := some (v, t, true) } }) ∧
  (∀ (s : State) (v : Inv) (t tag : Nat), s.hub.xlt.run = some (v, t, true) → readsOut s.hub v = false →
    v.src = .host tag →
    leadsHub .invalidationComplete s (emit { s.hub with xlt := { s.hub.xlt with run := none } } (.invDone v.bay tag))) ∧
  (∀ (s : State) (v : Inv) (t seq k : Nat) (o : Op), s.hub.xlt.run = some (v, t, true) → readsOut s.hub v = false →
    v.src = .op seq → s.hub.mov.toks.find? (fun t => t.2.seq == seq) = some (k, o) →
    leadsHub .invalidationComplete s
      (pump (modOp { s.hub with xlt := { s.hub.xlt with run := none } } k (fun o => { o with inval := false })) k)) ∧
  (∀ (s : State) (i t : Nat) (x : Hold), mapGet? s.hub.xlt.holds i = some x → x.posted = some t →
    leadsStops (.migHoldExpiry i) s
      (pumpAll (setIstat (errlog (bump
        { advanceTo s.hub (t + fld s.hub pXLT Fld.XLT.CFG_MIG_HOLD_MS * 2000000) with
          xlt := { (advanceTo s.hub (t + fld s.hub pXLT Fld.XLT.CFG_MIG_HOLD_MS * 2000000)).xlt with
            holds := mapDel (advanceTo s.hub (t + fld s.hub pXLT Fld.XLT.CFG_MIG_HOLD_MS * 2000000)).xlt.holds i } }
        pXLT Fld.XLT.MIG_EXPIRE_CNT) pXLT 2 0 (x.pasid + 2 ^ 20 * x.bay)) pXLT 3))) ∧
  (∀ s : State,
    leadsHub .acnDecaySweep s
      { advanceTo s.hub (s.hub.meter.decayAt + 2 ^ fld s.hub pACN Fld.ACN.CFG_DECAY_LOG2 * 2000) with
        meter := { (advanceTo s.hub (s.hub.meter.decayAt + 2 ^ fld s.hub pACN Fld.ACN.CFG_DECAY_LOG2 * 2000)).meter with
          decayAt := s.hub.meter.decayAt + 2 ^ fld s.hub pACN Fld.ACN.CFG_DECAY_LOG2 * 2000,
          sets := (advanceTo s.hub (s.hub.meter.decayAt + 2 ^ fld s.hub pACN Fld.ACN.CFG_DECAY_LOG2 * 2000)).meter.sets.map
            (fun e => (e.1, { e.2 with slots := e.2.slots.map (· / 2) })) } })

/-- R199, R211, R231 to R233, R236, R239, R240, R247: the arbiters of a slice, starvation and audit. -/
def Obligations.SliceCommandsComplete : Prop :=
  (∀ (s : State) (sl : Slice) (i : Nat) (x : Ing) (r : Req) (h : Hub),
    ingressPick (ingressReady s.hub sl.val) sl.val = some (i, x) →
    equip (ingressReady s.hub sl.val) sl.val x.pool
      { x.req with prio := basePrio (ingressReady s.hub sl.val) x } x.lane.isSome
      (ageLevel (ingressReady s.hub sl.val) x.since) = some (r, h) →
    ageLevel (ingressReady s.hub sl.val) x.since ≠ 7 →
    leadsCoh (.ingressGrant sl) s
      (enterPool (giveBack { h with
        coh := { h.coh with ingress := nextHead h (h.coh.ingress.eraseIdx i) x.src x.slice x.pool } } x) x.pool r)) ∧
  (∀ (s : State) (sl : Slice) (line : LineAddr) (t u : Txn), stalledHead s.hub sl.val = some (line, t) →
    t.req.op ≠ .rebuild → headOf (lookup s.hub line t) line = some u → (u.st = .ready → rowServed u.req.op = true) →
    leadsCoh (.wayStallResume sl) s (lookup s.hub line t)) ∧
  (∀ (s : State) (sl : Slice) (line : LineAddr), stalledHead s.hub sl.val = none →
    stalledEntry s.hub sl.val = some line →
    leadsCoh (.wayStallResume sl) s (closeDone (settleWaits s.hub line))) ∧
  (∀ (s : State) (sl : Slice) (x : Staged), stagedPick s.hub sl.val = some x → isAnswer x.req = true →
    leadsCoh (.writeStagingDequeue sl) s (snpWbAct (unstage s.hub x) x.req)) ∧
  (∀ (s : State) (sl : Slice) (x : Staged), stagedPick s.hub sl.val = some x → isAnswer x.req = false →
    absorbs s.hub x.req = true →
    leadsCoh (.writeStagingDequeue sl) s (absorb (unstage s.hub x) x.req)) ∧
  (∀ (s : State) (sl : Slice) (x : Staged) (r : Req) (h : Hub), stagedPick s.hub sl.val = some x →
    needsNone s.hub x = false →
    (homeEntry (unstage s.hub x) (granuleOf x.req.line)).frozen = false →
    equip (unstage s.hub x) sl.val (stagedPool s.hub x.req)
      { x.req with prio := poolPrio (unstage s.hub x) (stagedPool s.hub x.req) x.req, late := false } x.lane.isSome
      (ageLevel (unstage s.hub x) x.since) = some (r, h) →
    leadsCoh (.writeStagingDequeue sl) s (if stagedPool s.hub x.req = 1 then takeWb h r else enterSlice h r)) ∧
  (∀ (s : State) (sl : Slice) (idx i : Nat) (x : Ing), (ingressHeads s.hub sl.val)[idx]? = some (i, x) → x.lane = none →
    leadsHub (.starvationTimeout sl idx) s
      (setIstat (bump (enterLane (advanceTo s.hub (x.since + starveLimit s.hub + 1)) i x) pBOB Fld.BOB.STARVE_CNT)
        pBOB 1)) ∧
  (∀ (s : State) (sl : Slice) (i : Nat) (x : Staged),
    (s.hub.coh.staging.filter (fun y => y.slice == sl.val && stagedFirst s.hub y && !needsNone s.hub y))[i]? = some x →
    x.lane = none →
    leadsHub (.starvationTimeout sl ((ingressHeads s.hub sl.val).length + i)) s
      (setIstat (bump (stageLane (advanceTo s.hub (x.since + starveLimit s.hub + 1)) x) pBOB Fld.BOB.STARVE_CNT)
        pBOB 1)) ∧
  (∀ (s : State) (q idx : Nat), flag s.hub pBOB Fld.BOB.CFG_AUDIT_EN = true → auditOpen s.hub q idx = true →
    leadsHub (.auditTimeout q idx) s
      (setIstat (errlog (setFld (auditFirst s.hub q idx) pBOB Fld.BOB.AUDIT_STAT
        (fld s.hub pBOB Fld.BOB.AUDIT_STAT ||| 2 ^ q)) pBOB 1 0 (q + 16 * (idx % 2 ^ 20))) pBOB 2))

/-- R243, R250, R251, R254, R256, R260: dead agents and transactions without an end. -/
def Obligations.DeadAgentCommandsComplete : Prop :=
  (∀ (s : State) (b : Bay) (t : Nat), (bayRt s.hub b.val).downSince = some t → bayUp s.hub b.val = false →
    bayIsAgent s.hub b.val = true →
    leadsCoh (.deadLinkTimeout b) s
      (declareDead (advanceTo s.hub (t + fld s.hub pDED Fld.DED.CFG_LINK_TO_MS * 2000000 + 1))
        (bayAgent s.hub b.val) 1)) ∧
  (∀ (s : State) (b : Bay) (t : Nat), snoopSince s.hub (bayAgent s.hub b.val) = some t →
    leadsCoh (.deadSnoopTimeout b) s
      (declareDead (advanceTo s.hub (t + fld s.hub pDED Fld.DED.CFG_SNP_TO_MS * 2000000)) (bayAgent s.hub b.val) 2)) ∧
  (∀ (s : State) (t : Nat) (ts : List Nat), s.hub.dead.alerts = t :: ts →
    leadsHub .deadAlertExpiry s
      (atPage { advanceTo s.hub (t + 2000000) with dead := { (advanceTo s.hub (t + 2000000)).dead with alerts := ts } } pDED
        (fun h => { h with alerts := { h.alerts with deaths := h.alerts.deaths - 1 } }))) ∧
  (∀ (s : State) (k : Nat), leadsTulle (.cacheSweepEnd k) s (sweepEnd s.hub k)) ∧
  (∀ s : State, s.hub.dead.recs ≠ [] → s.hub.dead.ran = false →
    (advanceTo s.hub (s.hub.dead.walkAt + 2000)).dead.ran = false →
    leadsTulle .reclaimWalkStep s
      (walkDone (walkStep (walkBatch (advanceTo s.hub (s.hub.dead.walkAt + 2000)))
        (advanceTo s.hub (s.hub.dead.walkAt + 2000))) (s.hub.dead.walkAt + 2000))) ∧
  (∀ (s : State) (line : LineAddr), leadsCoh (.txnTimeout line) s (txnTimeout s.hub line))

/-- R344 to R355, R357 to R362: Picot's channels, captures, synchronisation pins and task inputs. -/
def Obligations.PicotCommandsComplete : Prop :=
  (∀ (s : State) (o : Origin) (c : Chan) (v : Word) (t : Stage), served s.hub o pPIC (0x404 + 32 * c.val) v.toNat →
    hubsOwn c.val = false → stageFor s.hub o pPIC (0x404 + 32 * c.val) = some t → s.hub.htime - t.time < 1024 →
    leadsPicot (.cmpWrite o c .cmpHi v) s
      (cmpSet (stageDrop s.hub o) c.val (t.value + 2 ^ 32 * v.toNat))) ∧
  (∀ (s : State) (o : Origin) (c : Chan) (v : Word), served s.hub o pPIC (0x408 + 32 * c.val) v.toNat →
    hubsOwn c.val = false → leadsPicot (.cmpWrite o c .interval v) s (intervalSet s.hub c.val v.toNat)) ∧
  (∀ (s : State) (o : Origin) (c : Chan) (v : Word), served s.hub o pPIC (0x40C + 32 * c.val) v.toNat →
    hubsOwn c.val = false → leadsPicot (.cmpWrite o c .phase v) s (phaseSet s.hub c.val v.toNat)) ∧
  (∀ (s : State) (o : Origin) (c : Chan) (v : Word), served s.hub o pPIC (0x410 + 32 * c.val) v.toNat →
    hubsOwn c.val = false → (ctlSet s.hub c.val v.toNat).2 = [] →
    leadsPicot (.cmpWrite o c .ctl v) s (ctlSet s.hub c.val v.toNat).1) ∧
  (∀ (s : State) (o : Origin) (c : Chan) (v : Word), served s.hub o pPIC (0x410 + 32 * c.val) (v.toNat ||| 0x20) →
    hubsOwn c.val = false → (ctlSet s.hub c.val (v.toNat ||| 0x20)).2 = [] →
    leadsPicot (.channelStart o c v) s (ctlSet s.hub c.val (v.toNat ||| 0x20)).1) ∧
  (∀ (s : State) (c : Chan) (f : Nat), nextFire s.hub c.val = some f →
    leadsPicot (.compareFire c) s (fireCmp s.hub c.val f)) ∧
  (∀ (s : State) (c : Chan) (f : Nat), nextWrap s.hub c.val = some f →
    leadsPicot (.periodWrap c) s (firePeriod s.hub c.val f)) ∧
  (∀ (s : State) (t : Chan), flag s.hub pEVT (Fld.EVT.T_TSTAT_RUNNING.nth t.val) = true → taskOver s.hub t.val = true →
    leadsPicot (.taskEnd t) s (taskEnd (if tKind s.hub t.val = 2 then setIstat s.hub pCNT 1 else s.hub) t.val)) ∧
  (∀ (s : State) (o : Origin) (hi : Bool) (v : Word), leadsPicot (.taskIrqClear o hi v) s (taskIrqWrite s.hub o hi v.toNat)) ∧
  (∀ (s : State) (o : Origin) (v : Word), served s.hub o pEVT 0x108 v.toNat →
    leadsPicot (.swfire o v) s (((List.range 8).filter (bit v.toNat)).foldl (fun h b => raise h (88 + b)) s.hub)) ∧
  (∀ (s : State) (o : Origin) (t : Chan) (v : Word), served s.hub o pEVT (0x210 + 32 * t.val) v.toNat →
    (taskWrite s.hub t.val v.toNat).2 = [] →
    leadsPicot (.taskWrite o t v) s (taskWrite s.hub t.val v.toNat).1) ∧
  (∀ (s : State) (k : Slice), s.hub.boot.hclk = true → flag s.hub pPIC (Fld.PIC.CAP_CFG_EN.nth k.val) = true →
    pinEdge (fld s.hub pPIC (Fld.PIC.CAP_CFG_SRC.nth k.val)) = true →
    flag s.hub pPIC (Fld.PIC.CAP_STAT_VALID.nth k.val) = false →
    leadsPicot (.captureEdge k) s
      (setIstat (setFld (setFld64 (raise s.hub (64 + k.val)) pPIC (Fld.PIC.CAP_LO.nth k.val) (Fld.PIC.CAP_HI.nth k.val)
        s.hub.htime) pPIC (Fld.PIC.CAP_STAT_VALID.nth k.val) 1) pPIC 3)) ∧
  (∀ s : State, s.hub.boot.hclk = true → leadsPicot .syncInPulse s
    (raise { s.hub with pins := { s.hub.pins with syncIn := true, syncInAt := s.hub.htime } } 72)) ∧
  (∀ s : State, s.hub.pins.syncOut = true →
    leadsPicot .syncOutPulseEnd s
      (syncOutLow (advanceTo s.hub (s.hub.pic.syncAt + 2 + fld s.hub pPIC Fld.PIC.SYNC_WIDTH))))

/-- R373, R378, R379: overflow reports, dump ticks and sampling. -/
def Obligations.CounterCommandsComplete : Prop :=
  (∀ (s : State) (pg t : Nat) (rest : List (Nat × Nat)), s.hub.perf.ovfPending = (pg, t) :: rest →
    leadsPicot .overflowReport s
      (ovfReport (advanceTo { s.hub with perf := { s.hub.perf with ovfPending := rest } } (t + 1)) pg t)) ∧
  (∀ s : State, s.hub.boot.hclk = true → flag s.hub pCNT Fld.CNT.DUMP_CFG_EN = true →
    (liveTasks (advanceTo s.hub ((s.hub.htime / dumpPeriod s.hub + 1) * dumpPeriod s.hub))).any
      (fun t => tKind (advanceTo s.hub ((s.hub.htime / dumpPeriod s.hub + 1) * dumpPeriod s.hub)) t == 2) = true →
    leadsPicot .dumpTick s
      (raise (advanceTo s.hub ((s.hub.htime / dumpPeriod s.hub + 1) * dumpPeriod s.hub)) dumpSource)) ∧
  (∀ s : State, s.hub.boot.hclk = true → flag s.hub pCNT Fld.CNT.DUMP_CFG_EN = true →
    (liveTasks (advanceTo s.hub ((s.hub.htime / dumpPeriod s.hub + 1) * dumpPeriod s.hub))).any
      (fun t => tKind (advanceTo s.hub ((s.hub.htime / dumpPeriod s.hub + 1) * dumpPeriod s.hub)) t == 2) = false →
    leadsPicot .dumpTick s
      (bump (advanceTo s.hub ((s.hub.htime / dumpPeriod s.hub + 1) * dumpPeriod s.hub)) pCNT Fld.CNT.DUMP_NOTASK_CNT)) ∧
  (∀ (s : State) (o : Origin) (v : Word), leadsPicot (.samplingEnable o v) s (smpCfgWrite s.hub o v.toNat))

/-- R392 to R394, R399 to R404, R412 to R416: the mailbox's services, the watchdog and the health window. -/
def Obligations.MailboxCommandsComplete : Prop :=
  (∀ (s : State), callRuns s.hub 0x1 = true → notSeal s.hub = true →
    leadsTulle (.mbNop) s (complete s.hub 0 [])) ∧
  (∀ (s : State), callRuns s.hub 0x3 = true → notSeal s.hub = true →
    leadsTulle (.wdogKick) s (complete (wdogKick s.hub) 0 [])) ∧
  (∀ (s : State) (len : Nat), callRuns s.hub 0x4 = true → notSeal s.hub = true →
    leadsTulle (.relay len) s (complete (freeBytes s.hub (min len 512)).2 0 (freeBytes s.hub (min len 512)).1)) ∧
  (∀ (s : State) (k : FwKind) (sl : Slot) (off len : Nat) (img : Image), callRuns s.hub 0x10 = true → stageMode s.hub = true →
    s.hub.pins.hubReset = false → off + len ≤ slotSize (kindNum k) → fld s.hub pTRU Fld.TRU.MB_BUF_OFF + len ≤ sramSize →
    leadsTulle (.fwStage k sl off len img) s (complete (stageSlot s.hub (kindNum k) (slotNum sl) img).1
      (stageSlot s.hub (kindNum k) (slotNum sl) img).2 [])) ∧
  (∀ (s : State) (k : FwKind) (sl : Slot), callRuns s.hub 0x11 = true → stageMode s.hub = true →
    leadsTulle (.fwActivate k sl) s (complete (activateSlot s.hub (kindNum k) (slotNum sl)).1
      (activateSlot s.hub (kindNum k) (slotNum sl)).2 [])) ∧
  (∀ (s : State) (p : Policy), callRuns s.hub 0x12 = true → stageMode s.hub = true → s.hub.pins.hubReset = false →
    leadsTulle (.policyInstall p) s (complete (policyInstall s.hub p).1 (policyInstall s.hub p).2 [])) ∧
  (∀ (s : State) (p : Profile), callRuns s.hub 0x13 = true → stageMode s.hub = true → s.hub.pins.hubReset = false →
    leadsTulle (.profileInstall p) s (complete (profileInstall s.hub p).1 (profileInstall s.hub p).2 [])) ∧
  (∀ (s : State) (k : FwKind) (sl : Slot) (off len : Nat) (img : Image), s.hub.pins.hubReset = true →
    leadsTulle (.fwStage k sl off len img) s { s.hub with
      keep := { s.hub.keep with images := mapPut s.hub.keep.images (2 * kindNum k + slotNum sl) img } }) ∧
  (∀ (s : State), callRuns s.hub 0x14 = true → openMode s.hub = true → storeOk s.hub = true →
    leadsTulle (.svnCommit) s (complete (svnCommit s.hub) 0 [])) ∧
  (∀ (s : State) (ok : Bool), callRuns s.hub 0x15 = true → notSeal s.hub = true →
    leadsTulle (.overlayRead ok) s (complete (overlayRead s.hub ok).1 (overlayRead s.hub ok).2 [])) ∧
  (∀ (s : State) (n : Nat), callRuns s.hub 0x20 = true → notSeal s.hub = true → n < 8 →
    leadsTulle (.mcRead n) s (complete s.hub 0 (leBytes 4 (mcOf s.hub n)))) ∧
  (∀ (s : State) (n : Nat), callRuns s.hub 0x21 = true → notSeal s.hub = true → 3 ≤ n → n < 8 → storeOk s.hub = true →
    leadsTulle (.mcIncr n) s (complete (zhPut s.hub [(2, n, satAdd 32 (mcOf s.hub n) 1)]) 0 [])) ∧
  (∀ s : State, callRuns s.hub 2 = true → s.hub.mode.mode = .serve →
    leadsTulle .healthDeclare s (complete (healthDeclare s.hub) 0 [])) ∧
  (∀ s : State, callRuns s.hub 0x30 = true → notSeal s.hub = true →
    leadsTulle .resetRequest s (hubReset s.hub 5 0 false)) ∧
  (∀ s : State, zhServes s.hub = true → flag s.hub pLDG Fld.LDG.BOOT_HEALTH = true → openMode s.hub = true →
    leadsTulle .healthTimer s (healthClear (advanceTo s.hub (s.hub.trust.healthAt + 120000000000)))) ∧
  (∀ (s : State) (t : Nat) (p : Policy), s.hub.trust.wdogAt = some t → s.hub.trust.policy = some p →
    s.hub.trust.wdogHalf = false →
    leadsTulle .wdogHalf s
      (setIstat (halfSeen (advanceTo s.hub (t + p.wdogMs * 1000000))) pTRU 1)) ∧
  (∀ (s : State) (t : Nat) (p : Policy), s.hub.trust.wdogAt = some t → s.hub.trust.policy = some p →
    leadsTulle .watchdogExpiry s
      (hubReset (putSel (advanceTo s.hub (t + p.wdogMs * 2000000))
        { bootSel (advanceTo s.hub (t + p.wdogMs * 2000000)) with wdog := true }) 5 0 false))

/-- R389, R405, R409 to R413, R471: the management commands. -/
def Obligations.QuinsorCommandsComplete : Prop :=
  (∀ (s : State) (c : QCarrier), answers s.hub = true → romTier s.hub = false → notSeal s.hub = true →
    leadsTulle (.ldgInfo c) s (emit s.hub (.answer c 0 (ldgInfo s.hub).2.2))) ∧
  (∀ (s : State) (c : QCarrier) (l n : Nat), answers s.hub = true → romTier s.hub = false → notSeal s.hub = true →
    leadsTulle (.ldgRead c l n) s (emit s.hub (.answer c (ldgRead s.hub l n).2.1 (ldgRead s.hub l n).2.2))) ∧
  (∀ (s : State) (c : QCarrier), answers s.hub = true → romTier s.hub = false → notSeal s.hub = true → activeDevs s.hub ≠ [] →
    leadsTulle (.ldgCerts c) s (emit s.hub (.answer c 0 (certChain s.hub)))) ∧
  (∀ (s : State) (c : QCarrier), answers s.hub = true → romTier s.hub = false → notSeal s.hub = true →
    leadsTulle (.ldgNonce c) s (emit (ldgNonce s.hub).1 (.answer c 0 (freeBytes s.hub 32).1))) ∧
  (∀ (s : State) (c : QCarrier) (sig : OwnerSig) (l : Nat), answers s.hub = true → romTier s.hub = false → notSeal s.hub = true →
    sigGood s.hub sig (opsKey s.hub sig.key) = true →
    leadsTulle (.ldgAck c sig l) s (emit (ackTo (spend s.hub sig) l).1 (.answer c (ackTo (spend s.hub sig) l).2.1 (ackTo (spend s.hub sig) l).2.2))) ∧
  (∀ (s : State) (c : QCarrier) (sig : OwnerSig), answers s.hub = true → zhTier s.hub = true →
    sigGood s.hub sig (opsKey s.hub sig.key || rootInForce s.hub sig.key) = true →
    leadsTulle (.benchRelease c sig) s
      (hubReset (emit (putSel (spend s.hub sig) { bootSel (spend s.hub sig) with tries := 0 }) (.answer c 0 [])) 5 0 false)) ∧
  (∀ (s : State) (c : QCarrier) (key : Nat), answers s.hub = true → zhTier s.hub = true → unowned s.hub = true →
    leadsTulle (.ownerClaim c key) s (emit (ownerClaim s.hub key).1 (.answer c 0 []))) ∧
  (∀ (s : State) (c : QCarrier) (sig : OwnerSig) (i : Fin 4), answers s.hub = true → zhTier s.hub = true →
    sigGood s.hub sig (otherRoot s.hub i.val sig.key) = true →
    leadsTulle (.ownerRevoke c sig i) s (emit (ownerRevoke (spend s.hub sig) i.val).1 (.answer c (ownerRevoke (spend s.hub sig) i.val).2.1 []))) ∧
  (∀ (s : State) (c : QCarrier) (k : FwKind) (img : Image), answers s.hub = true → zhTier s.hub = true →
    leadsTulle (.imageUpdate c k img) s (emit (imageUpdate s.hub (kindNum k) img).1 (.answer c (imageUpdate s.hub (kindNum k) img).2.1 []))) ∧
  (∀ (s : State) (c : QCarrier), answers s.hub = true → romTier s.hub = true →
    leadsTulle (.benchStatus c) s (emit s.hub (.answer c 0 (benchStatus s.hub))))

/-- R62, R397, R398, R412, R471, Table TRU-5: the messages of SPDM and MCTP. -/
def Obligations.AttestationCommandsComplete : Prop :=
  (∀ (s : State) (p : SpdmPort), spdmTakes s.hub p true 0 →
    leadsTulle (.spdmGetVersion p) s (respond (modConn s.hub p (fun _ => { SpdmConn.reset with stage := 1 })) p 0x04 0 0
      (if romTier s.hub then [0, 1, 0x00, 0x13]
        else [0, 2, 0x00, 0x12, 0x00, 0x13]))) ∧
  (∀ (s : State) (p : SpdmPort), spdmTakes s.hub p true 1 →
    leadsTulle (.spdmGetCapabilities p) s (respond (modConn s.hub p (fun c => { c with stage := max c.stage 2 })) p 0x61 0 0
      (spdmCaps s.hub))) ∧
  (∀ (s : State) (p : SpdmPort), spdmTakes s.hub p true 2 →
    leadsTulle (.spdmNegotiateAlgorithms p) s (respond (modConn s.hub p (fun c => { c with stage := 3 })) p 0x63
      ((spdmAlgStructs s.hub).length / 4) 0 (spdmAlgs s.hub))) ∧
  (∀ (s : State) (p : SpdmPort), spdmTakes s.hub p false 3 →
    leadsTulle (.spdmGetDigests p) s (respond s.hub p 0x01 0 1 (sha384 (slotChain s.hub)))) ∧
  (∀ (s : State) (p : SpdmPort) (off len : Nat), spdmTakes s.hub p true 3 →
    off < (slotChain s.hub).length → activeDevs s.hub ≠ [] →
    leadsTulle (.spdmGetCertificate p 0 off len) s (respond s.hub p 0x02 0 0
      (leBytes 2 (((slotChain s.hub).drop off).take len).length ++
        leBytes 2 ((slotChain s.hub).length - off - (((slotChain s.hub).drop off).take len).length) ++
        ((slotChain s.hub).drop off).take len))) ∧
  (∀ (s : State) (p : SpdmPort), spdmTakes s.hub p true 3 →
    leadsTulle (.spdmChallenge p 0) s (respond (nonceAndSig s.hub true).2 p 0x03 0 1
      (sha384 (slotChain s.hub) ++ (nonceAndSig s.hub true).1))) ∧
  (∀ (s : State) (p : SpdmPort) (i : Nat) (sign : Bool), spdmTakes s.hub p false 3 → 0 < i → i ≤ 7 →
    leadsTulle (.spdmGetMeasurements p i sign) s (respond (nonceAndSig s.hub sign).2 p 0x60 0 0
      (leBytes 1 1 ++ leBytes 3 (measRecord s.hub i).length ++ measRecord s.hub i ++ (nonceAndSig s.hub sign).1))) ∧
  (∀ (s : State) (p : SpdmPort) (sign : Bool), spdmTakes s.hub p false 3 →
    leadsTulle (.spdmGetMeasurements p 0 sign) s (respond (nonceAndSig s.hub sign).2 p 0x60 7 0
      (leBytes 1 0 ++ leBytes 3 0 ++ (nonceAndSig s.hub sign).1))) ∧
  (∀ (s : State) (p : SpdmPort) (sign : Bool), spdmTakes s.hub p false 3 →
    leadsTulle (.spdmGetMeasurements p 0xFF sign) s (respond (nonceAndSig s.hub sign).2 p 0x60 0 0
      (leBytes 1 7 ++ leBytes 3 (([1, 2, 3, 4, 5, 6, 7] : List Nat).flatMap (measRecord s.hub)).length ++
        ([1, 2, 3, 4, 5, 6, 7] : List Nat).flatMap (measRecord s.hub) ++ (nonceAndSig s.hub sign).1))) ∧
  (∀ (s : State) (p : SpdmPort) (reqId : Nat), spdmTakes s.hub p false 3 → (conn s.hub p).session = 0 →
    leadsTulle (.spdmKeyExchange p 0 reqId) s (spdmOpen s.hub p reqId)) ∧
  (∀ (s : State) (p : SpdmPort), spdmTakes s.hub p false 3 → (conn s.hub p).session = 1 →
    ((conn s.hub p).mutAuth = false ∨ (conn s.hub p).authd = true) →
    leadsTulle (.spdmFinish p true) s (respond (modConn s.hub p (fun c => { c with session := 2 })) p 0x65 0 0 [])) ∧
  (∀ (s : State) (p : SpdmPort), spdmTakes s.hub p false 3 → (conn s.hub p).session = 2 →
    leadsTulle (.spdmHeartbeat p) s (respond s.hub p 0x68 0 0 [])) ∧
  (∀ (s : State) (p : SpdmPort) (op : Nat), spdmTakes s.hub p false 3 → (conn s.hub p).session = 2 →
    0 < op → op ≤ 3 →
    leadsTulle (.spdmKeyUpdate p op) s (respond (if op = 3 then s.hub else modConn s.hub p (fun c => { c with keys := c.keys + 1 })) p 0x69 op 0 [])) ∧
  (∀ (s : State) (p : SpdmPort), spdmTakes s.hub p false 3 → (conn s.hub p).session = 2 →
    leadsTulle (.spdmEndSession p) s (respond (modConn s.hub p (fun c => { c with session := 0 })) p 0x6C 0 0 [])) ∧
  (∀ (s : State) (p : SpdmPort) (q : QCmd), spdmTakes s.hub p false 3 →
    leadsTulle (.spdmVendorDefined p q) s (runCmd s.hub .spdmVendor q)) ∧
  (∀ (s : State) (p : SpdmPort) (hd len : Nat) (last : Bool), spdmTakes s.hub p false 3 → (conn s.hub p).chunk = none →
    leadsTulle (.spdmChunkSend p hd 0 len last) s (respond (modConn s.hub p (fun c => { c with chunk := if last then none else some (hd, 1, len) })) p 0x05 0 hd
      (leBytes 2 0))) ∧
  (∀ (s : State) (p : SpdmPort) (hd seq b len : Nat) (last : Bool), spdmTakes s.hub p false 3 → (conn s.hub p).chunk = some (hd, seq, b) →
    leadsTulle (.spdmChunkSend p hd seq len last) s (respond (modConn s.hub p (fun c => { c with chunk := if last then none else some (hd, seq + 1, b + len) })) p 0x05 0 hd
      (leBytes 2 seq))) ∧
  (∀ (s : State) (p : SpdmPort) (hd seq : Nat) (rest : List Nat), spdmTakes s.hub p false 3 → (conn s.hub p).large = some (hd, seq, rest) →
    leadsTulle (.spdmChunkGet p hd seq) s (emit (modConn s.hub p (fun c => { c with
        large := if (rest.drop (max 1 Config.spdmTransfer)).isEmpty then none
          else some (hd, seq + 1, rest.drop (max 1 Config.spdmTransfer)) }))
      (.spdm p 0x06 (b2n (rest.drop (max 1 Config.spdmTransfer)).isEmpty) hd
        (leBytes 2 seq ++ rest.take (max 1 Config.spdmTransfer))))) ∧
  (∀ (s : State) (p : SpdmPort), spdmTakes s.hub p false 3 → (conn s.hub p).session = 1 → (conn s.hub p).mutAuth = true →
    leadsTulle (.spdmGetEncapsulatedRequest p) s (respond s.hub p 0x6A 0 0 [0x13, 0x82, 0, 0])) ∧
  (∀ (s : State) (p : SpdmPort) (ok : Bool), spdmTakes s.hub p false 3 → (conn s.hub p).session = 1 →
    (conn s.hub p).mutAuth = true →
    leadsTulle (.spdmDeliverEncapsulatedResponse p ok) s (respond (modConn s.hub p (fun c => { c with authd := ok })) p 0x6B 0 0 [])) ∧
  (∀ (s : State) (c : Carrier) (typ len : Nat), answers s.hub = true → s.hub.mode.mode ≠ .seal → carrierUp s.hub c = true →
    carrierSound c = true →
    leadsTulle (.mctpMessage c typ len) s (emit (carrierSeen s.hub c) (.mctpIn c typ len (mctpTo s.hub)))) ∧
  (∀ (s : State) (c : Carrier) (code : Nat), answers s.hub = true → s.hub.mode.mode ≠ .seal → carrierUp s.hub c = true →
    carrierSound c = true →
    leadsTulle (.mctpControl c code) s (emit (carrierSeen s.hub c) (.mctpRsp c code))) ∧
  (∀ (s : State) (typ len : Nat), answers s.hub = true → s.hub.mode.mode ≠ .seal →
    carrierUp s.hub (.smbus (smbusAddr s.hub) false) = true →
    leadsTulle (.mctpMessage (.smbus (smbusAddr s.hub) false) typ len) s (setFld s.hub pPIN Fld.PIN.MGMT_STATE 1)) ∧
  (∀ h : Hub, h.trust.policy = none → smbusAddr h = 0x4C) ∧
  (∀ (h : Hub) (p : Policy), h.trust.policy = some p → smbusAddr h = p.i3cStatic.getD 0x4C)

/-- R424, R426 to R433, R442, R443, R445: the keep store and the Scorebook. -/
def Obligations.KeepStoreCommandsComplete : Prop :=
  (∀ (s : State) (part : Nat) (bs : List KBody), s.hub.kep.batch = none → healthyDevs s.hub ≠ [] →
    s.hub.boot.point ≠ .none → s.hub.boot.point ≠ .rom → nextBatch s.hub = some (part, bs) →
    roomFor (applyFixes s.hub part) part
      (batchUnits (numberFrom (lastSeq (applyFixes s.hub part) part + 1) bs)) = true →
    leadsHub .batchStart s
      { applyFixes s.hub part with
        kep := { (applyFixes s.hub part).kep with
          batch := some { part := part, recs := numberFrom (lastSeq (applyFixes s.hub part) part + 1) bs,
                          phase2 := false, passed := [], tries := [0, 0] } } }) ∧
  (∀ (s : State) (b : KBatch), s.hub.kep.batch = some b → b.phase2 = false → b.passed = [] →
    leadsHub (.phase1Complete []) s
      { (activeDevs s.hub).foldl (fun h d => devPuts h d b.part (b.recs.map .data)) s.hub with
        kep := { s.hub.kep with batch := some { b with phase2 := true, passed := [] } } }) ∧
  (∀ (s : State) (b : KBatch) (d : KsDev), s.hub.kep.batch = some b → b.phase2 = false → b.passed = [] →
    activeDevs s.hub = [d.val] → b.tries.getD d.val 0 < 2 →
    leadsHub (.phase1Complete [d]) s
      (keepBatch (programFail s.hub b d.val (batchSize b)).1 (programFail s.hub b d.val (batchSize b)).2)) ∧
  (∀ (s : State) (b : KBatch), s.hub.kep.batch = some b → b.phase2 = true → b.passed = [] →
    leadsTulle (.batchCommitted []) s
      (b.recs.foldl recDone (bump
        { (activeDevs s.hub).foldl (fun h d => devPuts h d b.part ((batchUnits b.recs).drop b.recs.length)) s.hub with
          kep := { s.hub.kep with batch := none } } pKEP Fld.KEP.BATCH_CNT))) ∧
  (∀ (s : State) (d : KsDev) (part : Nat) (x : KSec) (t : List KSec), s.hub.pins.hubReset = false →
    eraseDue s.hub d.val part = true → (devLog s.hub.keep d.val part).full = x :: t → x.retire = false →
    x.erases + 1 < 100000 →
    leadsHub (.sectorEraseComplete d part { ok := true, header := true }) s
      (wearCheck (putLog (bump s.hub pKEP Fld.KEP.ERASE_CNT) d.val part
        { devLog s.hub.keep d.val part with
          full := t
          ahead := (devLog s.hub.keep d.val part).ahead ++
            [{ x with erases := x.erases + 1, used := 1, units := [], retire := false,
                      seq := topSecSeq (devLog s.hub.keep d.val part) + 1 }] }))) ∧
  (∀ (s : State) (d : KsDev) (part : Nat) (x y : KSec) (t : List KSec) (h : Hub) (hdr : Bool),
    s.hub.pins.hubReset = false → eraseDue s.hub d.val part = true → (devLog s.hub.keep d.val part).full = x :: t →
    retire (bump s.hub pKEP Fld.KEP.ERASE_CNT) d.val part x = (h, some y) →
    leadsHub (.sectorEraseComplete d part { ok := false, header := hdr }) s
      (wearCheck (putLog h d.val part
        { devLog s.hub.keep d.val part with
          full := t
          ahead := (devLog s.hub.keep d.val part).ahead ++
            [{ y with seq := topSecSeq (devLog s.hub.keep d.val part) + 1 }] }))) ∧
  (∀ (s : State) (d : KsDev) (part : Nat) (hdr : Bool), s.hub.pins.hubReset = true →
    leadsHub (.sectorEraseComplete d part { ok := true, header := hdr }) s
      { s.hub with keep := eraseWhole s.hub.keep d.val part }) ∧
  (∀ (s : State) (d : KsDev), devState s.hub d.val = 2 → leadsHub (.deviceProbe d true) s (probePassed s.hub d.val)) ∧
  (∀ (s : State) (o : Origin) (d : KsDev), served s.hub o pKEP 0x100 1 → devState s.hub d.val = 2 →
    leadsHub (.kepProbe o [d]) s (probePassed s.hub d.val)) ∧
  (∀ (s : State) (d : KsDev), devState s.hub d.val = 1 → devState s.hub (1 - d.val) = 0 →
    fld s.hub pKEP (Fld.KEP.DEV_REBUILD_POS.nth d.val) + 1 < copySectors →
    leadsHub (.rebuildSectorCopy d) s (setFld s.hub pKEP (Fld.KEP.DEV_REBUILD_POS.nth d.val)
      (fld s.hub pKEP (Fld.KEP.DEV_REBUILD_POS.nth d.val) + 1))) ∧
  (∀ (s : State) (d : KsDev), devState s.hub d.val = 1 → devState s.hub (1 - d.val) = 0 →
    fld s.hub pKEP (Fld.KEP.DEV_REBUILD_POS.nth d.val) + 1 = copySectors →
    leadsHub (.rebuildSectorCopy d) s
      (rebuildDone (setFld s.hub pKEP (Fld.KEP.DEV_REBUILD_POS.nth d.val) copySectors) d.val)) ∧
  (∀ (s : State) (d : KsDev) (part seq : Nat) (r : KRec), healthyDevs s.hub = [0, 1] →
    (devRecs s.hub.keep d.val part).any (fun x => x.seq == seq) = true →
    (devRecs s.hub.keep (1 - d.val) part).find? (fun x => x.seq == seq) = some r →
    leadsHub (.dailyReadTimer [(d, part, seq)]) s
      { putLog s.hub d.val part (spoil (devLog s.hub.keep d.val part) seq) with
        kep := { s.hub.kep with fixes := s.hub.kep.fixes ++ [(d.val, part, r)] } }) ∧
  (∀ (s : State) (d : KsDev) (part seq : Nat), healthyDevs s.hub = [d.val] →
    (devRecs s.hub.keep d.val part).any (fun x => x.seq == seq) = true →
    leadsHub (.dailyReadTimer [(d, part, seq)]) s
      (setIstat (errlog (bump (putLog s.hub d.val part (spoil (devLog s.hub.keep d.val part) seq)) pKEP
        Fld.KEP.READ_ERR_CNT) pKEP 2 (recAddr (devLog s.hub.keep d.val part) seq) part) pKEP 4)) ∧
  (∀ (s : State) (o : Origin) (v : Nat), served s.hub o pSCB 0x11C (v % 2 ^ 32) →
    leadsHub (.rdSeqWrite o v) s (setFld64 s.hub pSCB Fld.SCB.RD_SEQ_LO Fld.SCB.RD_SEQ_HI (v % 2 ^ 64))) ∧
  (∀ (s : State) (o : Origin), served s.hub o pSCB 0x148 1 → flag s.hub pSCB Fld.SCB.STAT_DUR_BUSY = false →
    leadsHub (.durableFetch o) s
      { setFld s.hub pSCB Fld.SCB.STAT_DUR_BUSY 1 with
        scb := { s.hub.scb with fetchSel := fld s.hub pSCB Fld.SCB.DUR_SEL } }) ∧
  (∀ s : State, flag s.hub pSCB Fld.SCB.STAT_DUR_BUSY = true →
    leadsHub .durableFetchDone s
      (setIstat (setFld (setFld (setFld
        { s.hub with scb := { s.hub.scb with fetched := (keepRecs s.hub 2)[s.hub.scb.fetchSel]? } }
        pSCB Fld.SCB.STAT_DUR_BUSY 0)
        pSCB Fld.SCB.STAT_DUR_VALID (b2n ((keepRecs s.hub 2)[s.hub.scb.fetchSel]?).isSome))
        pSCB Fld.SCB.STAT_DUR_END (b2n ((keepRecs s.hub 2).length ≤ s.hub.scb.fetchSel))) pSCB 2))

/-- R447, R448, R450, R459, R461: modes, power domains and the phases of SEAL. -/
def Obligations.ModeCommandsComplete : Prop :=
  (∀ (s : State) (o : Origin), served s.hub o pMOD 0x104 (1 + 8 * fld s.hub pMOD Fld.MOD.CTL_SERVE_OK) →
    s.hub.mode.toMaintain = false → s.hub.mode.mode = .drain → s.hub.tulle.handA = none →
    leadsTulle (.modeReqServe o) s (raise (setMode (reqOutcome s.hub 1) .serve) 75)) ∧
  (∀ (s : State) (o : Origin) (a : HandA), served s.hub o pMOD 0x104 (1 + 8 * fld s.hub pMOD Fld.MOD.CTL_SERVE_OK) →
    s.hub.mode.toMaintain = false → s.hub.mode.mode = .drain → s.hub.tulle.handA = some a →
    leadsTulle (.modeReqServe o) s (reqOutcome (modMode s.hub (fun m => { m with toServe := true })) 3)) ∧
  (∀ (s : State) (o : Origin), served s.hub o pMOD 0x104 (1 + 8 * fld s.hub pMOD Fld.MOD.CTL_SERVE_OK) →
    s.hub.mode.toMaintain = false → s.hub.mode.mode = .maintain → serveReady s.hub = true →
    leadsTulle (.modeReqServe o) s (raise (setMode (reqOutcome s.hub 1) .serve) 75)) ∧
  (∀ (s : State) (o : Origin), served s.hub o pMOD 0x104 (2 + 8 * fld s.hub pMOD Fld.MOD.CTL_SERVE_OK) →
    s.hub.mode.mode = .serve → s.hub.mode.brace = false → s.hub.mode.toMaintain = false →
    leadsTulle (.modeReqDrain o) s
      (if localCount (setMode (reqOutcome s.hub 1) .drain) = 0 then setIstat (setMode (reqOutcome s.hub 1) .drain) pMOD 4
      else setMode (reqOutcome s.hub 1) .drain)) ∧
  (∀ (s : State) (o : Origin), served s.hub o pMOD 0x104 (3 + 8 * fld s.hub pMOD Fld.MOD.CTL_SERVE_OK) →
    (s.hub.mode.mode = .serve ∨ s.hub.mode.mode = .drain) → localCount s.hub = 0 → s.hub.mode.toMaintain = false →
    leadsTulle (.modeReqMaintain o) s
      (maintainProgress (reqOutcome (modMode s.hub (fun m => { m with toMaintain := true, toServe := false })) 3))) ∧
  (∀ (s : State) (o : Origin) (v : Bool), served s.hub o pMOD 0x104 (8 * b2n v) →
    encodable s.hub o pMOD 0x104 (8 * b2n v) →
    leadsTulle (.serveOkWrite o v) s (stored s.hub o pMOD 0x104 (8 * b2n v))) ∧
  (∀ s : State, running s.hub = true → s.hub.mode.mode = .assemble → serveReady s.hub = true →
    leadsTulle .enterServe s (raise (setMode s.hub .serve) 75)) ∧
  (∀ s : State, (maintainProgress s.hub).mode.toMaintain = true → rlcEmpty (maintainProgress s.hub) = true →
    groupInflight (maintainProgress s.hub) 0 + groupInflight (maintainProgress s.hub) 1 +
      groupInflight (maintainProgress s.hub) 2 + groupInflight (maintainProgress s.hub) 3 = 0 →
    leadsTulle .enterMaintain s
      (rejectWaiting (setMode (reqOutcome (modMode (maintainProgress s.hub) (fun m => { m with toMaintain := false })) 1)
        .maintain))) ∧
  (∀ (s : State) (o : Origin) (d : Domain), served s.hub o pPWR (0x140 + 4 * d.val) 0 →
    leadsTulleStops (.domainReqOn o d) s (domReq s.hub d.val 0).1) ∧
  (∀ (s : State) (o : Origin) (d : Domain), served s.hub o pPWR (0x140 + 4 * d.val) 1 → domPinned s.hub d.val = false →
    leadsTulleStops (.domainReqDrained o d) s (domReq s.hub d.val 1).1) ∧
  (∀ (s : State) (o : Origin) (d : Domain), served s.hub o pPWR (0x140 + 4 * d.val) 2 → domPinned s.hub d.val = false →
    leadsTulleStops (.domainReqOff o d) s (domReq s.hub d.val 2).1) ∧
  (∀ (s : State) (d : Domain), domState s.hub d.val = 1 → domInflight s.hub d.val = 0 →
    leadsTulleStops (.domainDrained d) s (domDrained s.hub d.val)) ∧
  (∀ (s : State) (d : Domain), domState s.hub d.val = 2 → fld s.hub pPWR (Fld.PWR.DOM_CTL_REQ.nth d.val) = 2 →
    leadsTulle (.domainOff d) s (setDom (advanceTo s.hub (domSince s.hub d.val + 2000)) d.val 3)) ∧
  (∀ (s : State) (d : Domain), domState s.hub d.val = 3 → fld s.hub pPWR (Fld.PWR.DOM_CTL_REQ.nth d.val) = 0 →
    leadsTulle (.domainPowerUp d) s (domOn (advanceTo s.hub (domSince s.hub d.val + 20000)) d.val)) ∧
  (∀ s : State, sealRuns s.hub = true → sealDone s.hub = true →
    leadsTulle .sealPhaseEnd s (sealHold (sealNext s.hub true))) ∧
  (∀ s : State, sealRuns s.hub = true →
    sealDone (advanceTo s.hub (s.hub.mode.sealTime + sealDeadline s.hub.mode.sealPhase)) = false →
    leadsTulle .sealPhaseDeadline s
      (sealHold (sealCut (advanceTo s.hub (s.hub.mode.sealTime + sealDeadline s.hub.mode.sealPhase)))))

/-! ### The queue and the step -/

/-- The command at the front of the queue runs on the state with the queue's rest. -/
def Obligations.StepTakesFront : Prop :=
  ∀ (c : Instr) (cs : List Instr) (s : State), s.pending = c :: cs → step s = exec c { s with pending := cs }

/-- The model's choice (log entry 1), no rule of the spec: on an empty queue one hc passes, what was raised acts, and an
entry to MAINTAIN goes on; the queue stays empty. -/
def Obligations.StepIdlesAtEmptyQueue : Prop :=
  ∀ s : State, s.pending = [] → step s = .next (s.onPicot fun h => maintainProgress (advance h 1)) ∧
    (s.onPicot fun h => maintainProgress (advance h 1)).pending = []

/-- No command ends the run, and none changes the queue. -/
def Obligations.EveryCommandCompletes : Prop :=
  ∀ (c : Instr) (s : State), ∃ t, exec c s = .next t ∧ t.pending = s.pending

/-- As many steps as commands wait take every one of them, whatever the state. -/
def Obligations.QueueDrains : Prop :=
  ∀ s : State, ∃ t : State, Sys2Proof.core.run s.pending.length s = Host.Outcome.next t ∧ t.pending = []

/-! ### Management SRAM -/

/-- The state after reset is safe. -/
def Obligations.SafeAtReset : Prop := State.Inv State.reset

/-- Every step from a safe state, of whatever command, leads to a safe state: management SRAM keeps its canonical form and
its bounds, and no write to it is left waiting. -/
def Obligations.StepsKeepSafe : Prop := ∀ s t : State, s.Inv → step s = .next t → t.Inv

/-- A byte of management SRAM reads as last written; a write leaves every other byte, and no byte outside the SRAM takes
one (the last is the model's choice, log entry 31). -/
def Obligations.SramReadAfterWrite : Prop :=
  ∀ (m : List Host.Cell) (a : Nat) (bs : List Nat) (x : Nat),
    ramGet (ramWrite m a bs) x =
      if a ≤ x ∧ x < a + bs.length ∧ x < sramSize then BitVec.ofNat 8 (bs.getD (x - a) 0) else ramGet m x

/-! ### Register fields -/

/-- A field reads as last stored, cut to its width; a store changes no other field and nothing but the register map; the
fields of the page space are told apart by page, register and lowest bit. -/
def Obligations.FieldReadAfterWrite : Prop :=
  (∀ (h : Hub) (pg : Nat) (f : FieldDef) (v : Nat), fld (setFld h pg f v) pg f = v % 2 ^ f.width) ∧
  (∀ (h : Hub) (pg : Nat) (f : FieldDef) (v pg' : Nat) (f' : FieldDef), fieldKey pg' f' ≠ fieldKey pg f →
    fld (setFld h pg f v) pg' f' = fld h pg' f') ∧
  (∀ (h : Hub) (pg : Nat) (f : FieldDef) (v : Nat), { setFld h pg f v with regs := h.regs } = h) ∧
  (∀ (pg pg' : Nat) (f f' : FieldDef), f.off < 4096 → f'.off < 4096 → f.lo < 32 → f'.lo < 32 →
    fieldKey pg f = fieldKey pg' f' → pg = pg' ∧ f.off = f'.off ∧ f.lo = f'.lo)

/-- R6, R8, R92, R94: what a write of a register leaves in each of its fields. An RW field takes the value, and keeps its
own where the value is a reserved encoding; a 1 in a bit of a W1C field clears that bit and a 0 leaves it; a 1 in a bit of
a W1S field sets it; every other field ignores the write. A field of a higher class keeps its value, and under a LOCK
that refuses the write only W1C fields take it. -/
def Obligations.StoredByAccessCode : Prop :=
  ∀ (h : Hub) (c : Cls) (lk : Bool) (pg : Nat) (fs : List FieldDef) (v : Nat),
    fs.Pairwise (fun a b => fieldKey pg a ≠ fieldKey pg b) → ∀ f ∈ fs,
      let x := bits v f.lo f.width &&& fieldMask pg f
      let t := (applyFields h c lk pg fs v).1
      (c.rank < f.cls.rank → fld t pg f = fld h pg f) ∧
      (f.cls.rank ≤ c.rank → f.acc = .rw →
        fld t pg f = if lk ∨ reservedEnc pg f x = true then fld h pg f else x % 2 ^ f.width) ∧
      (f.cls.rank ≤ c.rank → f.acc = .w1c → ∀ i < f.width, (fld t pg f).testBit i = ((fld h pg f).testBit i && !x.testBit i)) ∧
      (f.cls.rank ≤ c.rank → f.acc = .w1s → lk = true → fld t pg f = fld h pg f) ∧
      (f.cls.rank ≤ c.rank → f.acc = .w1s → lk = false →
        ∀ i < f.width, (fld t pg f).testBit i = ((fld h pg f).testBit i || x.testBit i)) ∧
      (f.acc = .ro ∨ f.acc = .rc ∨ f.acc = .wo → fld t pg f = fld h pg f)

/-- R93, R96: a write by a host that does not own the page, or by a host in SEAL or BENCH, is dropped whole; and a
dropped write only logs: no field of any page but PAG changes. -/
def Obligations.DroppedWritesOnlyLog : Prop :=
  (∀ (h : Hub) (b : Bay) (pg off v : Nat), decodes h (.hostH b) = true → pageExists pg = true →
    ¬(flag h pg Fld.HDR.OWNER_VALID = true ∧ fld h pg Fld.HDR.OWNER_BAY = b.val) →
    (writeKinds h (.hostH b) pg off v).2 = true ∧ AccKind.classWrite ∈ (writeKinds h (.hostH b) pg off v).1) ∧
  (∀ (h : Hub) (b : Bay) (pg off v : Nat), decodes h (.hostH b) = true → pageExists pg = true →
    (h.mode.mode = .seal ∨ h.mode.mode = .bench) →
    (writeKinds h (.hostH b) pg off v).2 = true ∧ AccKind.stateRefused ∈ (writeKinds h (.hostH b) pg off v).1) ∧
  (∀ (h : Hub) (o : Origin) (pg off v : Nat), (writeKinds h o pg off v).2 = true →
    let t := logKinds h (writeKinds h o pg off v).1 (regAccess o pg off) true
    (∀ act, guardedK h o pg off v act = t) ∧ (∀ refuse post, fieldWrite h o pg off v refuse post = t) ∧
    ∀ (pg' : Nat) (f : FieldDef), pg' ≠ pPAG → f.off < 4096 → f.lo < 32 → fld t pg' f = fld h pg' f)

/-- R108: while no first error is captured, an error is captured in full; while one is, a further error counts, sets MORE
and changes nothing else. No other field of any page changes. -/
def Obligations.ErrlogKeepsFirstError : Prop :=
  (∀ (h : Hub) (pg code cls origin addr detail : Nat), flag h pg Fld.HDR.ERRLOG_A_VALID = false →
    let t := errlogAs h pg code cls origin addr detail
    fld t pg Fld.HDR.ERRLOG_A_VALID = 1 ∧ fld t pg Fld.HDR.ERRLOG_A_CODE = code % 256 ∧
    fld t pg Fld.HDR.ERRLOG_A_CLASS = cls % 4 ∧ fld t pg Fld.HDR.ERRLOG_A_ORIGIN = origin % 64 ∧
    fld t pg Fld.HDR.ERRLOG_B_COUNT = 1 ∧ fld t pg Fld.HDR.ERRLOG_C_ADDR_LO = addr % 2 ^ 32 ∧
    fld t pg Fld.HDR.ERRLOG_F_ADDR_HI = addr / 2 ^ 32 % 2 ^ 20 ∧ fld t pg Fld.HDR.ERRLOG_D_TIME_LO = h.htime % 2 ^ 32 ∧
    fld t pg Fld.HDR.ERRLOG_E_TIME_HI = h.htime / 2 ^ 32 % 2 ^ 32 ∧ fld t pg Fld.HDR.ERRLOG_G_DETAIL = detail % 2 ^ 32 ∧
    (∀ (pg' : Nat) (f : FieldDef), f.off < 4096 → f.lo < 32 → (pg' ≠ pg ∨ f.off < 0x024 ∨ 0x040 ≤ f.off) →
      fld t pg' f = fld h pg' f) ∧ { t with regs := h.regs } = h) ∧
  (∀ (h : Hub) (pg code cls origin addr detail : Nat), flag h pg Fld.HDR.ERRLOG_A_VALID = true →
    let t := errlogAs h pg code cls origin addr detail
    fld t pg Fld.HDR.ERRLOG_A_MORE = 1 ∧
    fld t pg Fld.HDR.ERRLOG_B_COUNT = min (fld h pg Fld.HDR.ERRLOG_B_COUNT + 1) (2 ^ 32 - 1) ∧
    (∀ (pg' : Nat) (f : FieldDef), fieldKey pg' f ≠ fieldKey pg Fld.HDR.ERRLOG_A_MORE →
      fieldKey pg' f ≠ fieldKey pg Fld.HDR.ERRLOG_B_COUNT → fld t pg' f = fld h pg' f) ∧ { t with regs := h.regs } = h)

/-- R61, R72, R80, R82: what a hub reset leaves. The keep store, the fuses, the pool media and the directory region stay;
LOSS_CNT, PREV_RESET, the owner counts and the THERMTRIP latch stay but for a VAUX reset; PREV_RESET takes the cause and
the rail except while THERMTRIP_N is asserted, and is POWER_ON while VAUX is low. Every other register field reads its reset value, HTIME, the mode and the
transactions stand as at reset, and management SRAM is wiped (the last is the model's choice, log entry 31). -/
def Obligations.HubResetLeaves : Prop :=
  ∀ (h : Hub) (cause rail : Nat) (vaux : Bool),
    let t := hubReset h cause rail vaux
    (t.keep = h.keep ∧ t.fuses = h.fuses ∧ t.media = h.media ∧ t.prk.region = h.prk.region) ∧
    t.owners = (if vaux then [] else h.owners) ∧ t.pins.thermtrip = (h.pins.thermtrip && !vaux) ∧
    fld t pCLK Fld.CLK.PREV_RESET_CAUSE =
      (if vaux || bit h.pins.railReset 5 then 0
       else if h.pins.thermtrip then fld h pCLK Fld.CLK.PREV_RESET_CAUSE % 256 else cause % 256) ∧
    fld t pCLK Fld.CLK.PREV_RESET_RAIL =
      (if vaux || bit h.pins.railReset 5 then 0
       else if h.pins.thermtrip then fld h pCLK Fld.CLK.PREV_RESET_RAIL % 8 else rail % 8) ∧
    fld t pCLK Fld.CLK.LOSS_CNT = (if vaux then 0 else fld h pCLK Fld.CLK.LOSS_CNT % 2 ^ 32) ∧
    (∀ (pg : Nat) (f : FieldDef), f.off < 4096 → f.lo < 32 → (pg ≠ pCLK ∨ f.off ≠ 0x108 ∧ f.off ≠ 0x10C) →
      fld t pg f = f.reset) ∧
    t.htime = 0 ∧ t.mode = ModeSt.reset ∧ t.coh = Hub.reset.coh ∧ t.mov = Hub.reset.mov ∧ t.tulle = Hub.reset.tulle ∧
    t.xlt = Hub.reset.xlt ∧ t.dead = Hub.reset.dead ∧ t.pic = Hub.reset.pic ∧ t.sramWipe = true

/-! ### Rules of single blocks -/

/-- R117: the cost of a link is 1,024 over lanes times rate, rounded up, with its three worked values. -/
def Obligations.LinkCost : Prop :=
  (∀ (h : Hub) (b : Nat),
    let d := lanesOf (fld h (pBAY b) Fld.BAY.LSTAT_WIDTH) * rateOf (fld h (pBAY b) Fld.BAY.LSTAT_RATE)
    10240 ≤ linkCost h b * d ∧ (linkCost h b - 1) * d < 10240) ∧
  (∀ (h : Hub) (b : Nat), fld h (pBAY b) Fld.BAY.LSTAT_WIDTH = 2 → fld h (pBAY b) Fld.BAY.LSTAT_RATE = 5 →
    linkCost h b = 4) ∧
  (∀ (h : Hub) (b : Nat), fld h (pBAY b) Fld.BAY.LSTAT_WIDTH = 4 → fld h (pBAY b) Fld.BAY.LSTAT_RATE = 5 →
    linkCost h b = 1) ∧
  (∀ (h : Hub) (b : Nat), fld h (pBAY b) Fld.BAY.LSTAT_WIDTH = 0 → fld h (pBAY b) Fld.BAY.LSTAT_RATE = 0 →
    linkCost h b = 410)

/-- R349: a served CTL write of a software channel that sets AUTO with INTERVAL 0, or PERIOD with INTERVAL below 2, or
START while PHASE is not below INTERVAL, keeps CTL, every other field outside PAG and all other state of the channel, and
is logged with kind RESERVED_ENC; so does the row CHANNEL_START. -/
def Obligations.ReservedChannelControl : Prop :=
  ∀ (s : State) (o : Origin) (c : Chan) (v : Word), served s.hub o pPIC (0x410 + 32 * c.val) v.toNat →
    hubsOwn c.val = false →
    (v.toNat % 4 = 2 ∧ chInt s.hub c.val = 0 ∨ v.toNat % 4 = 3 ∧ chInt s.hub c.val < 2 ∨
      bit v.toNat 5 = true ∧ chInt s.hub c.val ≤ fld s.hub pPIC (Fld.PIC.CH_PHASE.nth c.val)) →
    let t := accErr s.hub .reservedEnc (regAccess o pPIC (0x410 + 32 * c.val)) true
    leadsPicot (.cmpWrite o c .ctl v) s t ∧ (bit v.toNat 5 = true → leadsPicot (.channelStart o c v) s t) ∧
    t.pic.chans = s.hub.pic.chans ∧
    (∀ (pg : Nat) (f : FieldDef), pg ≠ pPAG → f.off < 4096 → f.lo < 32 → fld t pg f = fld s.hub pg f)

/-- R275: a served write of QASSIGN is applied only while the queue is UNASSIGNED, IDLE, or STOPPED, with no op
outstanding: it sets the owner, and clearing ASSIGNED returns the queue to UNASSIGNED. Otherwise the hub drops it and logs
it with kind STATE_REFUSED. -/
def Obligations.QueueAssignmentRule : Prop :=
  ∀ (s : State) (o : Origin) (v : Word), served s.hub o pQCTL 0x104 v.toNat →
    let q := fld s.hub pQCTL Fld.QCTL.QSEL
    let x := queue s.hub q
    (((x.st = .unassigned ∨ x.st = .idle ∨ x.st = .stopped) ∧ opsOf s.hub q = []) → ∃ t,
      leadsHub (.qassign o v) s t ∧ (queue t q).bay = v.toNat % 64 ∧ (queue t q).int = bit v.toNat 6 ∧
      (bit v.toNat 7 = false → (queue t q).st = .unassigned) ∧
      (bit v.toNat 7 = true → (queue t q).st = if x.st = .unassigned then .idle else x.st) ∧
      (∀ k, k ≠ q → queue t k = queue s.hub k) ∧ t.regs = s.hub.regs) ∧
    (¬((x.st = .unassigned ∨ x.st = .idle ∨ x.st = .stopped) ∧ opsOf s.hub q = []) →
      leadsHub (.qassign o v) s (accErr s.hub .stateRefused (regAccess o pQCTL 0x104) true))

/-- R131: a message whose number lies fewer than 32,768 ahead of the number its flow expects is accepted, and the flow
then expects the number after it; any other is a copy, discarded and counted. No other flow changes. -/
def Obligations.FlowAccepts : Prop :=
  ∀ (h : Hub) (n vc seq : Nat), vc < 8 →
    let e := mapGet h.tulle.recvSeq (n * 8 + vc) 0
    let t := flowAccept h n vc seq
    ((seq + 65536 - e) % 65536 < 32768 → t.2 = true ∧ mapGet t.1.tulle.recvSeq (n * 8 + vc) 0 = (seq + 1) % 65536 ∧
      (∀ n' vc', vc' < 8 → (n', vc') ≠ (n, vc) →
        mapGet t.1.tulle.recvSeq (n' * 8 + vc') 0 = mapGet h.tulle.recvSeq (n' * 8 + vc') 0) ∧
      { t.1 with tulle := h.tulle } = h) ∧
    (32768 ≤ (seq + 65536 - e) % 65536 → t.2 = false ∧ t.1.tulle = h.tulle ∧
      fld t.1 pTUL Fld.TUL.DUP_CNT = min (fld h pTUL Fld.TUL.DUP_CNT + 1) (2 ^ 32 - 1))

/-- R214: the updates of a SHARED entry's slots, and the grant of E or M. -/
def Obligations.SlotUpdates : Prop :=
  (∀ (e : DirEnt) (a : AgentId), e.st = .shared ∨ e.st = .overflow → e.v0 = true → e.p0 = a →
    entAddF e a = { e with f0 := true }) ∧
  (∀ (e : DirEnt) (a : AgentId), e.st = .shared ∨ e.st = .overflow → ¬(e.v0 = true ∧ e.p0 = a) →
    let e1 : DirEnt := { e with
      v1 := e.v1 && e.p1 != a, p1 := if e.v1 && e.p1 == a then 0 else e.p1,
      v2 := e.v2 && e.p2 != a, p2 := if e.v2 && e.p2 == a then 0 else e.p2 }
    entAddF e a =
      if e.v0 = false then { e1 with p0 := a, v0 := true, f0 := true }
      else if e1.v1 = false then { e1 with p0 := a, f0 := true, p1 := e.p0, v1 := true }
      else if e1.v2 = false then { e1 with p0 := a, f0 := true, p2 := e.p0, v2 := true }
      else { e1 with p0 := a, f0 := true, st := .overflow }) ∧
  (∀ (e : DirEnt) (a : AgentId), e.st = .shared ∨ e.st = .overflow → a ∈ e.named → entAddS e a = e) ∧
  (∀ (e : DirEnt) (a : AgentId), e.st = .shared ∨ e.st = .overflow → a ∉ e.named →
    entAddS e a =
      if e.v1 = false then { e with p1 := a, v1 := true }
      else if e.v2 = false then { e with p2 := a, v2 := true }
      else if e.v0 = false then { e with p0 := a, v0 := true, f0 := false }
      else { e with st := .overflow }) ∧
  (∀ (e : DirEnt) (a : AgentId), e.st = .shared ∨ e.st = .overflow →
    let g (v : Bool) (p : AgentId) : Bool := v && p == a
    let t := entRemove e a
    (t.v0 = true ∨ t.v1 = true ∨ t.v2 = true ∨ e.st = .overflow →
      t = { e with v0 := e.v0 && !g e.v0 e.p0, p0 := if g e.v0 e.p0 then 0 else e.p0, f0 := e.f0 && !g e.v0 e.p0,
                   v1 := e.v1 && !g e.v1 e.p1, p1 := if g e.v1 e.p1 then 0 else e.p1,
                   v2 := e.v2 && !g e.v2 e.p2, p2 := if g e.v2 e.p2 then 0 else e.p2 }) ∧
    (e.st = .shared → (∀ b ∈ e.named, b = a) → t = .uncached)) ∧
  (∀ a : AgentId, entOwn a =
    { st := .owned, p0 := a, p1 := 0, p2 := 0, v0 := true, v1 := false, v2 := false, f0 := false })

/-- R204, R205: an entry in a form of Table PRK-2, with zero in the pointer of every slot that is not valid (PTR0 of a
POISONED entry apart), reads back from its 64-bit form as it was written. -/
def Obligations.DirectoryWordRoundTrip : Prop :=
  ∀ (h : Hub) (e : DirEnt), bgen h < 4096 → e.p0 < 8192 → e.p1 < 8192 → e.p2 < 8192 →
    (e.v0 = true ∨ e.st = .poisoned ∨ e.p0 = 0) → (e.v1 = true ∨ e.p1 = 0) → (e.v2 = true ∨ e.p2 = 0) →
    (e.f0 = true → e.v0 = true ∧ e.p0 % 64 = 62) →
    (match e.st with
      | .uncached => e = .uncached
      | .shared => e.v0 = true ∨ e.v1 = true ∨ e.v2 = true
      | .owned => e.v0 = true ∧ e.v1 = false ∧ e.v2 = false ∧ e.f0 = false
      | .overflow => True
      | .poisoned => e.v0 = false ∧ e.v1 = false ∧ e.v2 = false ∧ e.f0 = false) →
    entWord h e < 2 ^ 58 ∧ entWord h e % 8 = e.st.code ∧ bits (entWord h e) 46 12 = bgen h ∧
      wordEnt h (entWord h e) = some e

/-- R269: the owner count of a local granule goes up by one, within 25 bits, when a line of it becomes OWNED, down by one
when a line stops being OWNED, and keeps its value otherwise; no other granule's count changes. -/
def Obligations.OwnerCounts : Prop :=
  ∀ (h : Hub) (line : LineAddr) (old new : DirEnt) (g : Nat), homedHere h (granuleOf line) = true →
    mapGet (ownedShift h line old new).owners g 0 =
      if g ≠ (homeEntry h (granuleOf line)).loc then mapGet h.owners g 0
      else if old.st = .owned ∧ new.st ≠ .owned then mapGet h.owners g 0 - 1
      else if old.st ≠ .owned ∧ new.st = .owned then min (mapGet h.owners g 0 + 1) (2 ^ 25 - 1)
      else mapGet h.owners g 0

/-- R236, R239 at an egress arbiter: the message granted is one that can be sent. It is the head of the arbiter's
starvation lane where that is a head of the channel that can be sent; otherwise no other head of a source queue that can
be sent has a higher effective priority, or an equal one and an earlier wait, or these equal and a lower source. -/
def Obligations.ArbiterPicksTheBest : Prop :=
  ∀ (h : Hub) (l : TLink) (vc : Nat),
    let eff (m : TMsg) : Nat := min 7 (msgPrio h m + min 7 ((h.htime - m.since) / 2 ^ fld h pBOB Fld.BOB.CFG_AGE_SHIFT))
    (vcPick h l vc = none → ∀ y ∈ vcHeads l.queue vc, sendable h l y.2 = false) ∧
    (∀ x, vcPick h l vc = some x → x ∈ vcHeads l.queue vc ∧ sendable h l x.2 = true) ∧
    (∀ x y, vcPick h l vc = some x → y ∈ vcHeads l.queue vc → sendable h l y.2 = true →
      laneHead h l.queue = some y.2 → x.2 = y.2) ∧
    (∀ x, vcPick h l vc = some x → laneHead h l.queue ≠ some x.2 →
      ∀ y ∈ vcHeads l.queue vc, sendable h l y.2 = true →
        eff y.2 < eff x.2 ∨ eff y.2 = eff x.2 ∧ (x.2.since < y.2.since ∨ x.2.since = y.2.since ∧ x.2.src ≤ y.2.src))

/-- R169, Table COH-8: a far atomic changes only its 4 or 8 bytes of the line, to the result of its operation on the old
value and the operand, and answers the old value, zero-extended. -/
def Obligations.AtomicAlu : Prop :=
  (∀ (w : Nat) (x y z : BitVec w), 0 < w →
    atomicOp 0 w x.toNat y.toNat z.toNat = (x + y).toNat ∧
    atomicOp 1 w x.toNat y.toNat z.toNat = (x &&& y).toNat ∧
    atomicOp 2 w x.toNat y.toNat z.toNat = (x ||| y).toNat ∧
    atomicOp 3 w x.toNat y.toNat z.toNat = (x ^^^ y).toNat ∧
    atomicOp 4 w x.toNat y.toNat z.toNat = y.toNat ∧
    atomicOp 5 w x.toNat y.toNat z.toNat = (if x = z then y else x).toNat ∧
    atomicOp 6 w x.toNat y.toNat z.toNat = (if y.slt x then y else x).toNat ∧
    atomicOp 7 w x.toNat y.toNat z.toNat = (if x.slt y then y else x).toNat ∧
    atomicOp 8 w x.toNat y.toNat z.toNat = min x.toNat y.toNat ∧
    atomicOp 9 w x.toNat y.toNat z.toNat = max x.toNat y.toNat) ∧
  (∀ (a : AtomicArg) (d : LineData),
    let w := if a.size8 then 64 else 32
    let sh := a.word.val * 64 + (if !a.size8 && a.upper then 32 else 0)
    let old := d.toNat / 2 ^ sh % 2 ^ w
    (atomicExec a d).2.toNat = old ∧
    ∀ i < 512, (atomicExec a d).1.getLsbD i =
      if sh ≤ i ∧ i < sh + w then (atomicOp a.op w old (a.operand.toNat % 2 ^ w) (a.compare.toNat % 2 ^ w)).testBit (i - sh)
      else d.getLsbD i)

/-- R347: START of a channel whose PHASE is below its INTERVAL computes the smallest k × INTERVAL + PHASE greater than Ta
(modulo 2^64, the width of C). -/
def Obligations.StartValue : Prop :=
  ∀ (h : Hub) (c ta : Nat), fld h pPIC (Fld.PIC.CH_PHASE.nth c) < chInt h c →
    ∃ k, startCmp h c ta = (k * chInt h c + fld h pPIC (Fld.PIC.CH_PHASE.nth c)) % 2 ^ 64 ∧
      ta < k * chInt h c + fld h pPIC (Fld.PIC.CH_PHASE.nth c) ∧
      ∀ j, ta < j * chInt h c + fld h pPIC (Fld.PIC.CH_PHASE.nth c) → k ≤ j

/-- R290: the check of a pool operand fails with the first of HANDLE_NODE, BAD_HANDLE, STALE_HANDLE and ACCESS that
applies, and otherwise passes. -/
def Obligations.ReachCheckOrder : Prop :=
  ∀ (h : Hub) (hd owner ctx perm off len : Nat),
    let r := reachOf h (hIdx hd)
    let p1 := hNode hd ≠ ownNode h
    let p2 := 65536 ≤ hIdx hd ∨ r.valid = false
    let p3 := hGen hd ≠ r.gen
    let p4 := r.bay ≠ owner ∨ r.ctx ≠ ctx ∨ r.perm &&& perm ≠ perm ∨ r.lines * 64 < off + len
    let t := handleCheck h hd owner ctx perm off len
    (p1 → t = 0x15) ∧ (¬p1 → p2 → t = 0x13) ∧ (¬p1 → ¬p2 → p3 → t = 0x14) ∧ (¬p1 → ¬p2 → ¬p3 → p4 → t = 0x16) ∧
    (¬p1 → ¬p2 → ¬p3 → ¬p4 → t = 0)

/-- R437: the Scorebook sequence begins at 1, advances by 1 at each acceptance, continues at 1 after 2^48 − 1 and is never
0. -/
def Obligations.ScorebookSequence : Prop :=
  (∀ h : Hub, h.scb.issued = 0 → nextScbSeq h = 1) ∧
  (∀ h : Hub, nextScbSeq { h with scb := { h.scb with issued := h.scb.issued + 1 } } =
    if nextScbSeq h = 2 ^ 48 - 1 then 1 else nextScbSeq h + 1) ∧
  (∀ h : Hub, nextScbSeq h ≠ 0 ∧ nextScbSeq h < 2 ^ 48)

/-- R118: quorum is held with at least ⌊N / 2⌋ + 1 members present, or with exactly N / 2 of an even N that include the
lowest node of the profile; a hub without a profile holds none. -/
def Obligations.Quorum : Prop :=
  ∀ h : Hub, (∀ n ∈ profileNodes h, n < 128) →
    (quorumHeld h = true ↔ profileNodes h ≠ [] ∧
      ((profileNodes h).length / 2 + 1 ≤ (presentNodes h).length ∨
        (profileNodes h).length % 2 = 0 ∧ (presentNodes h).length = (profileNodes h).length / 2 ∧
          ∃ m ∈ presentNodes h, ∀ n ∈ profileNodes h, m ≤ n))

/-- R411: an LDG_ACK at or below EXPORTED_TO completes with OK and changes nothing; one beyond the head completes with
BAD_ARG and changes nothing; any other, with a keep store device that answers, completes with OK. -/
def Obligations.LedgerAck : Prop :=
  (∀ (h : Hub) (n : Nat), n ≤ exportedTo h → ackTo h n = (h, 0, [])) ∧
  (∀ (h : Hub) (n : Nat), exportedTo h < n → headLseq h < n → ackTo h n = (h, 2, [])) ∧
  (∀ (h : Hub) (n : Nat), exportedTo h < n → n ≤ headLseq h → storeOk h = true →
    ackTo h n = (releaseHeld (setIstat (ldgShow (zhPut h [(3, 0, n)])) pLDG 3), 0, []))

/-- R389, R401: what blows a fuse only blows fuses. A claim fuses slot 0 and touches nothing else; a revocation sets the
slot's bit, clears none and touches nothing else; a commit raises ZH_SVN to the running SVN, at most 64, and lowers it
never. -/
def Obligations.FusesOnlyRise : Prop :=
  (∀ (h : Hub) (key : Nat) (x : Option Nat) (t : List (Option Nat)), h.fuses.owners = x :: t →
    ownerClaim h key = ({ h with fuses := { h.fuses with owners := some key :: t } }, 0, [])) ∧
  (∀ (h : Hub) (slot : Nat), (h.fuses.owners.getD slot none).isSome = true →
    (∀ i, bit (ownerRevoke h slot).1.fuses.revoke i = (bit h.fuses.revoke i || decide (i = slot))) ∧
    (ownerRevoke h slot).2.1 = 0 ∧
    { (ownerRevoke h slot).1 with fuses := { (ownerRevoke h slot).1.fuses with revoke := h.fuses.revoke } } = h) ∧
  (∀ (h : Hub) (i : Image), h.trust.zhImg = some i →
    (svnCommit h).fuses = { h.fuses with zhSvn := max h.fuses.zhSvn (min i.svn 64) } ∧
    h.fuses.zhSvn ≤ (svnCommit h).fuses.zhSvn ∧ (i.svn ≤ 64 → i.svn ≤ (svnCommit h).fuses.zhSvn))
end

