-- ==== Sys2Proof/Laws/Leads.lean ====
section
/-! SUPPORT. How a statement of where a command leads follows from the hub that its meaning gives, and what a served
register write does. -/

namespace Sys2Proof.Machine

/-! ### From a meaning to where it leads -/

/-- An act on the hub is what it gives at the present hub. -/
theorem State.act_congr {s : State} {f g : Hub → Hub} (k : f s.hub = g s.hub) : s.act f = s.act g := by
  unfold State.act; rw [k]

/-- An act that the hold of SEAL stops is, outside the hold, the plain act. -/
theorem State.onHub_outside {s : State} (o : outsideHold s) (f : Hub → Hub) : s.onHub f = s.act f :=
  State.act_congr (by rw [o]; rfl)

/-- An act that the hold of SEAL may stop is what it gives at the present hub. -/
theorem State.onHub_congr {s : State} {f g : Hub → Hub} (k : f s.hub = g s.hub) : s.onHub f = s.onHub g :=
  State.act_congr (by rw [k])

/-- The same on the slices. -/
theorem State.onCoh_congr {s : State} {f g : Hub → Hub} (k : f s.hub = g s.hub) : s.onCoh f = s.onCoh g :=
  State.onHub_congr (by rw [k])

/-- The same where Tulle is settled after it. -/
theorem State.onTulle_congr {s : State} {f g : Hub → Hub} (k : f s.hub = g s.hub) : s.onTulle f = s.onTulle g :=
  State.onHub_congr (by rw [k])

/-- The same where queues may stop. -/
theorem withStops_congr {h : Hub} {f g : Hub → Hub} (k : f h = g h) : withStops f h = withStops g h := by
  unfold withStops; rw [k]

/-- A command that acts on the hub leads to the hub its action gives. -/
theorem leadsHub_of {c : Instr} {s : State} {h : Hub} {f : Hub → Hub} (e : exec c s = .next (s.onHub f)) (k : f s.hub = h) :
    leadsHub c s h := fun o => (e.trans (congrArg _ (State.onHub_outside o f))).trans (congrArg _ (State.act_congr k))

/-- The same on the slices. -/
theorem leadsCoh_of {c : Instr} {s : State} {h : Hub} {f : Hub → Hub} (e : exec c s = .next (s.onCoh f)) (k : f s.hub = h) :
    leadsCoh c s h := fun _ => e.trans (congrArg _ (State.onCoh_congr k))

/-- The same with Tulle settled after the action. -/
theorem leadsTulle_of {c : Instr} {s : State} {h : Hub} {f : Hub → Hub} (e : exec c s = .next (s.onTulle f))
    (k : f s.hub = h) : leadsTulle c s h := fun _ => e.trans (congrArg _ (State.onTulle_congr k))

/-- The same for a row of Tulle's management outside BENCH. -/
theorem leadsTulle_of_fabric {c : Instr} {s : State} {h : Hub} {f : Hub → Hub} (e : exec c s = .next (s.onFabric f))
    (r : tulleRuns s.hub = true) (k : f s.hub = h) : leadsTulle c s h :=
  leadsTulle_of e (by simp only [r, if_true, k])

/-- The same where queues may stop. -/
theorem leadsStops_of {c : Instr} {s : State} {h : Hub} {f : Hub → Hub} (e : exec c s = .next (s.onHub (withStops f)))
    (k : f s.hub = h) : leadsStops c s h :=
  fun o => (e.trans (congrArg _ (State.onHub_outside o _))).trans (congrArg _ (State.act_congr (withStops_congr k)))

/-- The same where queues may stop and Tulle settles. -/
theorem leadsTulleStops_of {c : Instr} {s : State} {h : Hub} {f : Hub → Hub}
    (e : exec c s = .next (s.onTulle (withStops f))) (k : f s.hub = h) : leadsTulleStops c s h :=
  fun _ => e.trans (congrArg _ (State.onTulle_congr (withStops_congr k)))

/-- The same where raised event sources act. -/
theorem leadsPicot_of {c : Instr} {s : State} {h : Hub} {f : Hub → Hub} (e : exec c s = .next (s.onPicot f))
    (k : f s.hub = h) : leadsPicot c s h :=
  fun _ => e.trans (congrArg _ (State.onTulle_congr (withStops_congr (by rw [k]))))

/-- The same for a row of the test port. -/
theorem leadsTap_of {c : Instr} {s : State} {h : Hub} {f : Hub → Hub} (e : exec c s = .next (s.act f)) (k : f s.hub = h) :
    leadsTap c s h := e.trans (congrArg _ (State.act_congr k))

/-- The same for a row of the supplies. -/
theorem leadsSupply_of {c : Instr} {s : State} {h : Hub} {f : Hub → Hub} (e : exec c s = .next (s.onSupply f))
    (k : f s.hub = h) : leadsSupply c s h := e.trans (congrArg _ (State.act_congr (by rw [k])))

/-- The same for a row of a pin. -/
theorem leadsPins_of {c : Instr} {s : State} {h : Hub} {f : Hub → Hub} (e : exec c s = .next (s.onPins f))
    (k : f s.hub = h) : leadsPins c s h := e.trans (congrArg _ (State.act_congr (by rw [k])))

/-! ### Served writes -/

/-- A served write of a register with an effect of its own does its effect, and logs what the effect says. -/
theorem guardedK_served {h : Hub} {o : Origin} {pg off v : Nat} {act : Hub → Hub × List AccKind} (k : served h o pg off v) :
    guardedK h o pg off v act = logKinds (act h).1 (act h).2 (regAccess o pg off) true := by
  obtain ⟨a, b, c⟩ := k
  simp [guardedK, a, b, c]

/-- The same where the effect logs nothing. -/
theorem guarded_served {h : Hub} {o : Origin} {pg off v : Nat} {act : Hub → Hub} (k : served h o pg off v) :
    guarded h o pg off v act = act h := by
  simp [guarded, guardedK_served k, logKinds]

/-- A served write of a register that stores fields stores them. -/
theorem fieldWrite_served {h : Hub} {o : Origin} {pg off v : Nat} {post : Hub → Hub} (k : served h o pg off v)
    (e : encodable h o pg off v) : fieldWrite h o pg off v false post = post (stored h o pg off v) := by
  obtain ⟨a, b, _⟩ := k
  unfold encodable at e
  simp [fieldWrite, a, b, e, stored, logKinds]

/-- A served write of a high half takes the staged low half, or keeps the present one (R102). -/
theorem highWriteK_unstaged {h : Hub} {o : Origin} {pg off v : Nat} {act : Hub → Nat → Hub × List AccKind}
    (k : served h o pg off v) (n : stageFor h o pg off = none) :
    highWriteK h o pg off v act =
      logKinds (act h (wordAs h .z pg (off - 4))).1 (act h (wordAs h .z pg (off - 4))).2 (regAccess o pg off) true := by
  obtain ⟨a, b, c⟩ := k
  simp [highWriteK, a, b, c, n]

/-! ### Messages that arrive -/

/-- A message of a management row that is for this hub is handled. -/
theorem mgmtRow_reaching {h : Hub} {b : Bay} {hd : Hdr} {body : Payload} {opc : Nat} {f : Hub → Hub}
    (r : reaching h b hd body opc) : mgmtRow h b hd body opc f = f (received h b hd body) := by
  obtain ⟨_, a, c, d, e⟩ := r
  simp [mgmtRow, received, a, c, d, e]

/-- A snoop, answer or data message that is for this hub is handled. -/
theorem atHub_meant {h : Hub} {b : Bay} {hd : Hdr} {body : Payload} {opc : Nat} {f : Hub → Hub}
    (r : meant h b hd body opc) : atHub h b hd body opc f = f (received h b hd body) := by
  obtain ⟨a, c, d, e⟩ := r
  simp [atHub, received, a, c, d, e]

end Sys2Proof.Machine
end

