-- ==== Sys2Proof/Laws/Maps.lean ====
section
/-! SUPPORT. The laws of sparse maps: a read after a write, that a write leaves every other key, and that the canonical
form is kept; then the same for register fields and management SRAM. -/

namespace Sys2Proof.Machine

variable {α : Type}

/-! ### Reads after writes -/

/-- The value put at a key is read there. -/
@[simp] theorem mapGet?_mapPut_self (m : List (Nat × α)) (k : Nat) (v : α) : mapGet? (mapPut m k v) k = some v := by
  induction m with
  | nil => simp [mapPut, mapGet?]
  | cons e t ih =>
    obtain ⟨a, b⟩ := e
    unfold mapPut
    by_cases x : k = a
    · simp [x, mapGet?]
    · by_cases y : k < a
      · simp [x, y, mapGet?]
      · simp [x, y, mapGet?, ih, Ne.symm x]

/-- A put leaves every other key. -/
theorem mapGet?_mapPut_ne (m : List (Nat × α)) {k a : Nat} (v : α) (n : a ≠ k) :
    mapGet? (mapPut m k v) a = mapGet? m a := by
  induction m with
  | nil => simp [mapPut, mapGet?, Ne.symm n]
  | cons e t ih =>
    obtain ⟨b, c⟩ := e
    unfold mapPut
    by_cases x : k = b
    · subst x; simp [mapGet?, Ne.symm n]
    · by_cases y : k < b
      · simp [x, y, mapGet?, Ne.symm n]
      · simp only [x, y, if_false, mapGet?, ih]

/-- A key removed is not listed. -/
@[simp] theorem mapGet?_mapDel_self (m : List (Nat × α)) (k : Nat) : mapGet? (mapDel m k) k = none := by
  induction m with
  | nil => rfl
  | cons e t ih =>
    obtain ⟨a, b⟩ := e
    by_cases x : a = k
    · subst x; simpa [mapDel] using ih
    · have : mapDel ((a, b) :: t) k = (a, b) :: mapDel t k := by simp [mapDel, x]
      simp [this, mapGet?, x, ih]

/-- A removal leaves every other key. -/
theorem mapGet?_mapDel_ne (m : List (Nat × α)) {k a : Nat} (n : a ≠ k) : mapGet? (mapDel m k) a = mapGet? m a := by
  induction m with
  | nil => rfl
  | cons e t ih =>
    obtain ⟨b, c⟩ := e
    by_cases x : b = k
    · subst x
      have : mapDel ((b, c) :: t) b = mapDel t b := by simp [mapDel]
      simp [this, mapGet?, Ne.symm n, ih]
    · have : mapDel ((b, c) :: t) k = (b, c) :: mapDel t k := by simp [mapDel, x]
      simp only [this, mapGet?, ih]

/-- A stored value is read back. -/
@[simp] theorem mapGet_mapSet_self [DecidableEq α] (m : List (Nat × α)) (k : Nat) (v d : α) :
    mapGet (mapSet m k v d) k d = v := by
  unfold mapGet mapSet
  split <;> simp [*]

/-- A store leaves every other key. -/
theorem mapGet_mapSet_ne [DecidableEq α] (m : List (Nat × α)) {k a : Nat} (v d d' : α) (n : a ≠ k) :
    mapGet (mapSet m k v d) a d' = mapGet m a d' := by
  unfold mapGet mapSet
  split
  · rw [mapGet?_mapDel_ne m n]
  · rw [mapGet?_mapPut_ne m v n]

/-! ### The canonical form -/

/-- Every key of the list lies above a bound. -/
def keysAbove (b : Nat) (m : List (Nat × α)) : Prop := ∀ e ∈ m, b < e.1

/-- A list with a head has rising keys when its tail has and lies above the head. -/
theorem keysRise_cons (e : Nat × α) (t : List (Nat × α)) : keysRise (e :: t) = true ↔ keysAbove e.1 t ∧ keysRise t = true := by
  induction t generalizing e with
  | nil => simp [keysRise, keysAbove]
  | cons c u ih =>
    simp only [keysRise, Bool.and_eq_true, decide_eq_true_eq]
    constructor
    · rintro ⟨a, b⟩
      refine ⟨?_, b⟩
      intro x hx
      rcases List.mem_cons.mp hx with rfl | hx
      · exact a
      · exact Nat.lt_trans a (((ih c).mp b).1 x hx)
    · rintro ⟨a, b⟩
      exact ⟨a c List.mem_cons_self, b⟩

/-- A put adds only the pair it puts. -/
theorem mem_mapPut {m : List (Nat × α)} {k : Nat} {v : α} {e : Nat × α} (h : e ∈ mapPut m k v) : e = (k, v) ∨ e ∈ m := by
  induction m with
  | nil => left; simpa [mapPut] using h
  | cons c t ih =>
    obtain ⟨a, b⟩ := c
    unfold mapPut at h
    by_cases x : k = a
    · rw [if_pos x] at h
      rcases List.mem_cons.mp h with h | h
      · exact Or.inl h
      · exact Or.inr (List.mem_cons_of_mem _ h)
    · rw [if_neg x] at h
      by_cases y : k < a
      · rw [if_pos y] at h
        rcases List.mem_cons.mp h with h | h
        · exact Or.inl h
        · exact Or.inr h
      · rw [if_neg y] at h
        rcases List.mem_cons.mp h with h | h
        · subst h; exact Or.inr List.mem_cons_self
        · rcases ih h with h | h
          · exact Or.inl h
          · exact Or.inr (List.mem_cons_of_mem _ h)

/-- A put keeps the keys in rising order. -/
theorem keysRise_mapPut (m : List (Nat × α)) (k : Nat) (v : α) (h : keysRise m = true) : keysRise (mapPut m k v) = true := by
  induction m with
  | nil => simp [mapPut, keysRise]
  | cons c t ih =>
    obtain ⟨a, b⟩ := c
    obtain ⟨h1, h2⟩ := (keysRise_cons _ _).mp h
    unfold mapPut
    by_cases x : k = a
    · subst x; simpa [keysRise_cons] using ⟨h1, h2⟩
    · by_cases y : k < a
      · rw [if_neg x, if_pos y, keysRise_cons]
        refine ⟨?_, h⟩
        intro e he
        rcases List.mem_cons.mp he with rfl | he
        · exact y
        · exact Nat.lt_trans y (h1 e he)
      · rw [if_neg x, if_neg y, keysRise_cons]
        refine ⟨?_, ih h2⟩
        intro e he
        rcases mem_mapPut he with rfl | he
        · show a < k; omega
        · exact h1 e he

/-- A removal keeps the keys in rising order. -/
theorem keysRise_mapDel (m : List (Nat × α)) (k : Nat) (h : keysRise m = true) : keysRise (mapDel m k) = true := by
  induction m with
  | nil => rfl
  | cons c t ih =>
    obtain ⟨h1, h2⟩ := (keysRise_cons _ _).mp h
    by_cases x : c.1 = k
    · have : mapDel (c :: t) k = mapDel t k := by simp [mapDel, x]
      rw [this]; exact ih h2
    · have : mapDel (c :: t) k = c :: mapDel t k := by simp [mapDel, x]
      rw [this, keysRise_cons]
      exact ⟨fun e he => h1 e (List.mem_filter.mp he).1, ih h2⟩

/-- A store keeps the keys in rising order. -/
theorem keysRise_mapSet [DecidableEq α] (m : List (Nat × α)) (k : Nat) (v d : α) (h : keysRise m = true) :
    keysRise (mapSet m k v d) = true := by
  unfold mapSet
  split
  · exact keysRise_mapDel m k h
  · exact keysRise_mapPut m k v h

/-! ### Register fields -/

/-- A field reads as stored, cut to its width. -/
@[simp] theorem fld_setFld_self (h : Hub) (pg : Nat) (f : FieldDef) (v : Nat) : fld (setFld h pg f v) pg f = v % 2 ^ f.width := by
  simp [fld, setFld]

/-- A store of a field leaves every field of another key. -/
theorem fld_setFld_ne (h : Hub) {pg pg' : Nat} {f f' : FieldDef} (v : Nat) (n : fieldKey pg' f' ≠ fieldKey pg f) :
    fld (setFld h pg f v) pg' f' = fld h pg' f' := by
  simp only [fld, setFld]; exact mapGet_mapSet_ne _ _ _ _ n

/-- Fields are told apart by page, register and lowest bit. -/
theorem fieldKey_inj {pg pg' : Nat} {f f' : FieldDef} (a : f.off < 4096) (b : f'.off < 4096) (c : f.lo < 32) (d : f'.lo < 32)
    (e : fieldKey pg f = fieldKey pg' f') : pg = pg' ∧ f.off = f'.off ∧ f.lo = f'.lo := by
  unfold fieldKey at e; omega

/-! ### Management SRAM -/

/-- A byte of management SRAM after a write of one byte. -/
theorem ramGet_ramSet (m : List Host.Cell) (a x : Nat) (v : Byte) :
    ramGet (ramSet m a v) x = if x = a ∧ a < sramSize then v else ramGet m x := by
  unfold ramGet ramSet
  by_cases h : a < sramSize
  · by_cases e : x = a
    · subst e; simp [h]
    · simp [h, e, mapGet_mapSet_ne _ _ _ _ e]
  · simp [h]

/-- A write of one byte keeps the canonical form. -/
theorem wf_ramSet (m : List Host.Cell) (a : Nat) (v : Byte) (h : Memory.wf m = true) : Memory.wf (ramSet m a v) = true := by
  simp only [Memory.wf, Bool.and_eq_true] at h ⊢
  unfold ramSet
  split
  · refine ⟨keysRise_mapSet m a v 0 h.1, ?_⟩
    rw [List.all_eq_true] at h ⊢
    intro e he
    unfold mapSet at he
    split at he
    · exact h.2 e (List.mem_filter.mp he).1
    · rcases mem_mapPut he with rfl | he
      · simpa using ‹¬v = 0›
      · exact h.2 e he
  · exact h

/-- A write of one byte lists no byte outside management SRAM. -/
theorem bound_ramSet (m : List Host.Cell) (a : Nat) (v : Byte) (h : ∀ e ∈ m, e.1 < sramSize) :
    ∀ e ∈ ramSet m a v, e.1 < sramSize := by
  unfold ramSet
  split
  · intro e he
    unfold mapSet at he
    split at he
    · exact h e (List.mem_filter.mp he).1
    · rcases mem_mapPut he with rfl | he
      · assumption
      · exact h e he
  · exact h

/-- A write of bytes keeps the canonical form and the bounds. -/
theorem ramWrite_safe (m : List Host.Cell) (a : Nat) (bs : List Nat) (h : Memory.wf m = true ∧ ∀ e ∈ m, e.1 < sramSize) :
    Memory.wf (ramWrite m a bs) = true ∧ ∀ e ∈ ramWrite m a bs, e.1 < sramSize := by
  induction bs generalizing m a with
  | nil => exact h
  | cons b t ih => exact ih _ _ ⟨wf_ramSet m a _ h.1, bound_ramSet m a _ h.2⟩

/-- Writes in order keep the canonical form and the bounds. -/
theorem ramApply_safe (m : List Host.Cell) (ws : List (Nat × List Nat))
    (h : Memory.wf m = true ∧ ∀ e ∈ m, e.1 < sramSize) :
    Memory.wf (ramApply m ws) = true ∧ ∀ e ∈ ramApply m ws, e.1 < sramSize := by
  induction ws generalizing m with
  | nil => exact h
  | cons w t ih => exact ih _ (ramWrite_safe m w.1 w.2 h)

/-- An act on the hub leaves a safe management SRAM, no write waiting, and the queue of commands. -/
theorem act_safe (s : State) (f : Hub → Hub) (h : Memory.wf s.ram = true ∧ ∀ e ∈ s.ram, e.1 < sramSize) :
    Memory.wf (s.act f).ram = true ∧ (∀ e ∈ (s.act f).ram, e.1 < sramSize) ∧ (s.act f).hub.sram = [] ∧
      (s.act f).hub.sramWipe = false ∧ (s.act f).pending = s.pending := by
  have k : Memory.wf (if (f s.hub).sramWipe then [] else s.ram) = true ∧
      ∀ e ∈ (if (f s.hub).sramWipe then [] else s.ram), e.1 < sramSize := by
    split
    · exact ⟨rfl, by simp⟩
    · exact h
  obtain ⟨a, b⟩ := ramApply_safe _ (f s.hub).sram k
  exact ⟨a, b, rfl, rfl, rfl⟩

end Sys2Proof.Machine
end

