-- ==== Sys2Proof/Laws/Logs.lean ====
section
/-! SUPPORT. What counting, interrupts and logs can do: they change fields of their own page, what the hub sends, what the
counter area notes, the pending bits of MSI-X and the raised event sources, and nothing else. -/

namespace Sys2Proof.Machine

/-- From h to t only what a flag or a log of page pg may change has changed. -/
structure Logs (pg : Nat) (h t : Hub) : Prop where
  fields : ∀ (pg' : Nat) (f : FieldDef), pg' ≠ pg → f.off < 4096 → f.lo < 32 → fld t pg' f = fld h pg' f
  rest : t = { h with regs := t.regs, out := t.out, perf := t.perf, port := { h.port with pba := t.port.pba },
                      pic := { h.pic with raised := t.pic.raised } }

/-- Nothing has changed. -/
theorem Logs.refl (pg : Nat) (h : Hub) : Logs pg h h := ⟨fun _ _ _ _ _ => rfl, rfl⟩

/-- One change after another. -/
theorem Logs.trans {pg : Nat} {h t u : Hub} (a : Logs pg h t) (b : Logs pg t u) : Logs pg h u := by
  refine ⟨fun pg' f n x y => (b.fields pg' f n x y).trans (a.fields pg' f n x y), ?_⟩
  have ra := a.rest
  have rb := b.rest
  rw [ra] at rb
  exact rb

/-- A choice between two changes. -/
theorem Logs.ite {pg : Nat} {h t u : Hub} {c : Prop} [Decidable c] (a : Logs pg h t) (b : Logs pg h u) :
    Logs pg h (if c then t else u) := by split <;> assumption

/-- A store in a field of the page. -/
theorem logs_setFld (h : Hub) {pg : Nat} {f : FieldDef} (v : Nat) (x : f.off < 4096) (y : f.lo < 32) :
    Logs pg h (setFld h pg f v) :=
  ⟨fun _ _ n x' y' => fld_setFld_ne h v (fun e => n (fieldKey_inj x' x y' y e).1), rfl⟩

/-- A note in the counter area. -/
theorem Logs.perf {pg : Nat} {h t : Hub} (a : Logs pg h t) (p : Perf) : Logs pg h { t with perf := p } :=
  a.trans ⟨fun _ _ _ _ _ => rfl, rfl⟩

/-- A message sent. -/
theorem logs_emit (pg : Nat) (h : Hub) (e : Emit) : Logs pg h (emit h e) := ⟨fun _ _ _ _ _ => rfl, rfl⟩

/-- An event source raised. -/
theorem logs_raise (pg : Nat) (h : Hub) (src : Nat) : Logs pg h (raise h src) := by
  unfold raise; exact .ite (.refl _ _) ⟨fun _ _ _ _ _ => rfl, rfl⟩

/-- A counter of the page. -/
theorem logs_cvalAdd (h : Hub) (pg n : Nat) {k : Nat} (b : k < 8) : Logs pg h (cvalAdd h pg k n) := by
  have key : ∀ (h : Hub) (v : Nat), Logs pg h (setCval h pg k v) := fun h v =>
    (logs_setFld h _ (by simp [FieldDef.nth, Fld.HDR.CVAL_LO]; omega) (by simp [FieldDef.nth, Fld.HDR.CVAL_LO])).trans
      (logs_setFld _ _ (by simp [FieldDef.nth, Fld.HDR.CVAL_HI]; omega) (by simp [FieldDef.nth, Fld.HDR.CVAL_HI]))
  have cov : Logs pg h (setFld (setCval h pg k ((cval h pg k + n) % 2 ^ 48)) pg Fld.HDR.COVF
      (fld (setCval h pg k ((cval h pg k + n) % 2 ^ 48)) pg Fld.HDR.COVF ||| 2 ^ k)) :=
    (key h _).trans (logs_setFld _ _ (by decide) (by decide))
  have fr : ∀ t, Logs pg h t → Logs pg h (if flag t pg (Fld.HDR.CSEL_OVF_FREEZE.nth k) then
        { setFld t pg Fld.HDR.CSTAT_OVF_FROZEN 1 with
          perf := { t.perf with frozenHc := pg :: t.perf.frozenHc } }
      else t) := fun t a =>
    .ite (Logs.perf (a.trans (logs_setFld (f := Fld.HDR.CSTAT_OVF_FROZEN) t 1 (by decide) (by decide))) _) a
  exact .ite (key h _) (.ite (Logs.perf (fr _ cov) _) (fr _ cov))

/-- An event of the page counts. -/
theorem logs_perfEvent (h : Hub) (pg ev n : Nat) : Logs pg h (perfEvent h pg ev n) := by
  have add : ∀ (l : List Nat), (∀ k ∈ l, k < 8) → ∀ h, Logs pg h (l.foldl (fun h k =>
      if fld h pg (Fld.HDR.CSEL_EVENT.nth k) = ev && fld h pg (Fld.HDR.CSEL_MODE.nth k) = 1 then cvalAdd h pg k n
      else h) h) := by
    intro l
    induction l with
    | nil => intro _ h; exact .refl _ _
    | cons k t ih =>
      intro b h
      rw [List.foldl_cons]
      refine Logs.trans ?_ (ih (fun k hk => b k (List.mem_cons_of_mem _ hk)) _)
      exact .ite (logs_cvalAdd h pg n (b k List.mem_cons_self)) (.refl _ _)
  unfold perfEvent perfAdd
  refine Logs.trans (t := if h.perf.hcEvents.contains (pg, ev) then h
    else { h with perf := { h.perf with hcEvents := (pg, ev) :: h.perf.hcEvents } })
    (.ite (.refl _ _) ⟨fun _ _ _ _ _ => rfl, rfl⟩) ?_
  exact .ite (.refl _ _) (add _ (by decide) _)

/-- A block counter of the page counts. -/
theorem logs_bumpBy (h : Hub) (pg : Nat) {f : FieldDef} (n : Nat) (x : f.off < 4096) (y : f.lo < 32) :
    Logs pg h (bumpBy h pg f n) := by
  unfold bumpBy
  have a : Logs pg h (countBy h pg f n) := logs_setFld h _ x y
  cases blkEvent f with
  | none => exact a
  | some ev => exact a.trans (logs_perfEvent _ pg ev n)

/-- A 64-bit block counter of the page counts. -/
theorem logs_bump64 (h : Hub) (pg : Nat) {lo hi : FieldDef} (n : Nat) (x : lo.off < 4096) (y : lo.lo < 32)
    (z : hi.off < 4096) (w : hi.lo < 32) : Logs pg h (bump64 h pg lo hi n) := by
  unfold bump64
  have a : Logs pg h (count64 h pg lo hi n) := (logs_setFld h _ x y).trans (logs_setFld _ _ z w)
  cases blkEvent lo with
  | none => exact a
  | some ev => exact a.trans (logs_perfEvent _ pg ev n)

/-- An MSI-X message is sent, or held pending. -/
theorem logs_msixPage (h : Hub) (pg : Nat) : Logs pg h (msixPage h pg) := by
  unfold msixPage msixSend
  refine .ite ?_ (.refl _ _)
  refine .ite (.refl _ _) (.ite (.ite (.refl _ _) ⟨fun _ _ _ _ _ => rfl, rfl⟩) ?_)
  split
  · exact logs_emit _ _ _
  · exact .refl _ _

/-- What follows a change at a page. -/
theorem logs_settle (before after : Hub) (pg : Nat) : Logs pg after (settle before after pg) := by
  unfold settle
  dsimp only
  have d : ∀ h d, Logs pg h (driveLevel before h pg d) := fun h d => .ite (.refl _ _) (logs_emit _ _ _)
  refine ((d after .trusted).trans (d _ .mgmt)).trans ?_
  generalize driveLevel before (driveLevel before after pg .trusted) pg .mgmt = h0
  have a : Logs pg h0 (if irqActive h0 pg && !irqActive before pg then msixPage (perfEvent h0 pg 0x001 1) pg else h0) :=
    .ite ((logs_perfEvent _ _ _ _).trans (logs_msixPage _ _)) (.refl _ _)
  refine a.trans ?_
  generalize (if irqActive h0 pg && !irqActive before pg then msixPage (perfEvent h0 pg 0x001 1) pg else h0) = h1
  refine .ite ?_ (.refl _ _)
  have b : Logs pg h1 (if i3cUp h1 then emit h1 .ibi else h1) := .ite (logs_emit _ _ _) (.refl _ _)
  exact .ite b (b.trans (logs_raise _ _ _))

/-- A hardware event sets a bit of the page's ISTAT. -/
theorem logs_setIstat (h : Hub) (pg i : Nat) : Logs pg h (setIstat h pg i) := by
  unfold setIstat
  refine .ite ?_ (.refl _ _)
  unfold atPage
  refine Logs.trans ?_ (logs_settle _ _ _)
  have st : ∀ t, Logs pg h t → Logs pg h (setFld (perfEvent t pg (0x040 + i) 1) pg Fld.HDR.ISTAT
      (fld (perfEvent t pg (0x040 + i) 1) pg Fld.HDR.ISTAT ||| 2 ^ i)) := fun t b =>
    b.trans ((logs_perfEvent _ _ _ _).trans (logs_setFld _ _ (by decide) (by decide)))
  cases sourceOf pg i with
  | none => exact st _ (.refl _ _)
  | some src => exact st _ (logs_raise _ _ _)

/-- An access error touches the PAG page (R110). -/
theorem logs_accErr (h : Hub) (k : AccKind) (a : Access) (w : Bool) : Logs pPAG h (accErr h k a w) := by
  unfold accErr
  refine Logs.trans ?_ (logs_setIstat _ _ _)
  refine .ite (Logs.trans ?_ (logs_setFld _ _ (by decide) (by decide))) ?_
  all_goals
    repeat refine Logs.trans ?_ (logs_setFld _ _ (by decide) (by decide))
    exact logs_bump64 h pPAG 1 (by decide) (by decide) (by decide) (by decide)

/-- What a write logs touches the PAG page. -/
theorem logs_logKinds (h : Hub) (ks : List AccKind) (a : Access) (w : Bool) : Logs pPAG h (logKinds h ks a w) := by
  cases ks with
  | nil => exact .refl _ _
  | cons k t => exact logs_accErr _ _ _ _

/-- An error of a block touches its page (R108). -/
theorem logs_errlogAs (h : Hub) (pg code cls origin addr detail : Nat) :
    Logs pg h (errlogAs h pg code cls origin addr detail) := by
  unfold errlogAs
  refine .ite ((logs_setFld (f := Fld.HDR.ERRLOG_B_COUNT) h _ (by decide) (by decide)).trans
    (logs_setFld _ _ (by decide) (by decide))) ?_
  repeat' first
    | exact logs_setFld _ _ (by decide) (by decide)
    | refine Logs.trans ?_ (logs_setFld _ _ (by decide) (by decide))

end Sys2Proof.Machine
end

