-- ==== Sys2Proof/Laws/Rows.lean ====
section
/-! SUPPORT. What the shared operations of a family's rows do when the row's own conditions hold: the arrival of a peer's, a
host's or a device's request, the service of a line's head, a mover's management command, a mailbox call, a management
command and an SPDM request. -/

namespace Sys2Proof.Machine

/-! ### Accesses -/

/-- A served write comes through a window that decodes, to a page that exists. -/
theorem served_decodes {h : Hub} {o : Origin} {pg off v : Nat} (k : served h o pg off v) :
    decodes h o = true ∧ pageExists pg = true := by
  obtain ⟨a, _, _⟩ := k
  unfold writeKinds at a
  by_cases d : decodes h o = true
  · by_cases p : pageExists pg = true
    · exact ⟨d, p⟩
    · simp [d, p] at a
  · simp [d] at a

/-! ### Requests -/

/-- A request of a peer enters its ingress queue. -/
theorem peerArrive_requested {h : Hub} {b : Bay} {hd : Hdr} {op : ReqOp} {body : Payload} {k : Nat} (hk : classOpc op = k)
    (hv : k < 16) (r : requested h b hd body k) :
    peerArrive h b.val hd op body =
      ingressPut (receive h b.val hd body true).1 (srcLink b.val) 0 (peerReq (receive h b.val hd body true).1 hd op)
        (some b.val) := by
  obtain ⟨a, z, c, d, e, f, g⟩ := r
  have v : vcOf hd.opc = 0 := by unfold vcOf; simp [c]; omega
  simp only [v] at e
  unfold peerArrive
  simp only [a, z, g, f, c, d, hk, v]
  simp [peerReq]
  intro x y; exact absurd (by simpa using And.intro x y) e

/-- A local agent's request for a line with a home enters its ingress queue. -/
theorem localArrive_homed {h : Hub} {b : Bay} {w : Who} {op : ReqOp} {line : LineAddr} {pool : Nat}
    (hu : bayUp h b.val = true) (mr : modeRejects h (bayAgent h b.val) = false) (u : whereIs h line ≠ .unmapped)
    (n : whereIs h line ≠ .noMedia) :
    localArrive h b.val w op line false pool = ingressPut h b.val pool (localReq h w (bayAgent h b.val) op line false
      (if pool = 1 then fld h pBOB Fld.BOB.PRI_WB else whoPrio h w 0)) none := by
  unfold bayAgent at mr
  cases hq : whereIs h line with
  | unmapped => exact absurd hq u
  | noMedia => exact absurd hq n
  | here =>
    unfold localArrive localReq bayAgent
    simp only [mr, hu, hq, Bool.not_true, Bool.false_eq_true, if_false]
  | peer =>
    unfold localArrive localReq bayAgent
    simp only [mr, hu, hq, Bool.not_true, Bool.false_eq_true, if_false]

/-- A host's request that is taken enters its ingress queue. -/
theorem hostArrive_taken {h : Hub} {b : Bay} {hpa : Nat} {op : ReqOp} {line : LineAddr} (k : hostTakes h b hpa line) :
    hostArrive h b hpa op = ingressPut h b.val 0 (localReq h (.host b.val hpa) (bayAgent h b.val) op line false
      (fld h pBOB Fld.BOB.PRI_H)) none := by
  obtain ⟨a, c, d, e, f⟩ := k
  have up : bayUp h b.val = true := by simp [hostOk] at a; exact a.1.2
  simp only [hostArrive, a, c]
  exact localArrive_homed up d e f

/-- A device's request that is taken enters its ingress queue. -/
theorem devArrive_taken {h : Hub} {b : Bay} {op : ReqOp} {line : LineAddr} {pool : Nat} (k : devTakes h b line) :
    devArrive h b op line pool = ingressPut h b.val pool (localReq h (.dev b.val) (bayAgent h b.val) op line false
      (if pool = 1 then fld h pBOB Fld.BOB.PRI_WB else fld h pBOB Fld.BOB.PRI_D)) none := by
  obtain ⟨a, d, e, f⟩ := k
  have up : bayUp h b.val = true := by simp [devOk] at a; exact a.1.2
  simp only [devArrive, a, if_true]
  exact localArrive_homed up d e f

/-- The head of a line's chain is served by the row of its class. -/
theorem serveClass_headIs {h : Hub} {l : LineAddr} {k : Nat} (r : headIs h l k) : serveClass h l k = serveHead h l := by
  unfold headIs at r; unfold serveClass
  cases q : headOf h l with
  | none => simp [q] at r
  | some t => simp only [q] at r; simp [r]

/-! ### Services -/

/-- A management command of a queue whose turn it is takes effect. -/
theorem mgmtRun_turn {h : Hub} {tok opc : Nat} {o : Op} {f : Hub → Op → Queue → Hub} (m : mgmtTurn h tok opc o) :
    mgmtRun h tok opc f = f h o (queue h o.q) := by
  obtain ⟨a, b, c, d⟩ := m
  simp only [mgmtRun, a, b, c, d]; simp

/-- A mailbox call that runs and is allowed completes with what its service answers. -/
theorem service_runs {h : Hub} {code : Nat} {a : Bool} {act : Hub → Svc} (k : callRuns h code = true) (b : a = true) :
    service h code a act = complete (act h).1 (act h).2.1 (act h).2.2 := by simp only [service, k, b]; simp

/-- A management command outside the ROM's tier that is allowed is answered with what it gives. -/
theorem mgmtCmd_runs {h : Hub} {c : QCarrier} {a : Bool} {act : Hub → Svc} (k : answers h = true) (r : romTier h = false)
    (b : a = true) : mgmtCmd h c a act = emit (act h).1 (.answer c (act h).2.1 (act h).2.2) := by
  simp only [mgmtCmd, k, r, b]; simp

/-- An SPDM request that is taken is answered. -/
theorem spdmReq_taken {h : Hub} {p : SpdmPort} {rom : Bool} {st : Nat} {act : Hub → Hub} (k : spdmTakes h p rom st) :
    spdmReq h p rom st act = act h := by
  obtain ⟨a, b, c, d, e⟩ := k
  have : ¬ ((conn h p).stage < st) := by omega
  simp only [spdmReq, a, c, this, if_false]
  rcases d with d | d <;> simp [d, b]

end Sys2Proof.Machine
end

