-- ==== Sys2Proof/Laws/State.lean ====
section
/-! SUPPORT. One lemma per field of the hub and update of it: an update leaves every part of the hub but its own, and every
register field where its part is not the register map. -/

namespace Sys2Proof.Machine

/-! `setFld` changes `regs` alone. -/

@[simp] theorem setFld_out (h : Hub) (pg : Nat) (f : FieldDef) (v : Nat) : (setFld h pg f v).out = h.out := rfl
@[simp] theorem setFld_htime (h : Hub) (pg : Nat) (f : FieldDef) (v : Nat) : (setFld h pg f v).htime = h.htime := rfl
@[simp] theorem setFld_free (h : Hub) (pg : Nat) (f : FieldDef) (v : Nat) : (setFld h pg f v).free = h.free := rfl
@[simp] theorem setFld_port (h : Hub) (pg : Nat) (f : FieldDef) (v : Nat) : (setFld h pg f v).port = h.port := rfl
@[simp] theorem setFld_pins (h : Hub) (pg : Nat) (f : FieldDef) (v : Nat) : (setFld h pg f v).pins = h.pins := rfl
@[simp] theorem setFld_boot (h : Hub) (pg : Nat) (f : FieldDef) (v : Nat) : (setFld h pg f v).boot = h.boot := rfl
@[simp] theorem setFld_mode (h : Hub) (pg : Nat) (f : FieldDef) (v : Nat) : (setFld h pg f v).mode = h.mode := rfl
@[simp] theorem setFld_bays (h : Hub) (pg : Nat) (f : FieldDef) (v : Nat) : (setFld h pg f v).bays = h.bays := rfl
@[simp] theorem setFld_perf (h : Hub) (pg : Nat) (f : FieldDef) (v : Nat) : (setFld h pg f v).perf = h.perf := rfl
@[simp] theorem setFld_pic (h : Hub) (pg : Nat) (f : FieldDef) (v : Nat) : (setFld h pg f v).pic = h.pic := rfl
@[simp] theorem setFld_tulle (h : Hub) (pg : Nat) (f : FieldDef) (v : Nat) : (setFld h pg f v).tulle = h.tulle := rfl
@[simp] theorem setFld_alerts (h : Hub) (pg : Nat) (f : FieldDef) (v : Nat) : (setFld h pg f v).alerts = h.alerts := rfl
@[simp] theorem setFld_bayOut (h : Hub) (pg : Nat) (f : FieldDef) (v : Nat) : (setFld h pg f v).bayOut = h.bayOut := rfl
@[simp] theorem setFld_coh (h : Hub) (pg : Nat) (f : FieldDef) (v : Nat) : (setFld h pg f v).coh = h.coh := rfl
@[simp] theorem setFld_prk (h : Hub) (pg : Nat) (f : FieldDef) (v : Nat) : (setFld h pg f v).prk = h.prk := rfl
@[simp] theorem setFld_media (h : Hub) (pg : Nat) (f : FieldDef) (v : Nat) : (setFld h pg f v).media = h.media := rfl
@[simp] theorem setFld_owners (h : Hub) (pg : Nat) (f : FieldDef) (v : Nat) : (setFld h pg f v).owners = h.owners := rfl
@[simp] theorem setFld_dead (h : Hub) (pg : Nat) (f : FieldDef) (v : Nat) : (setFld h pg f v).dead = h.dead := rfl
@[simp] theorem setFld_psn (h : Hub) (pg : Nat) (f : FieldDef) (v : Nat) : (setFld h pg f v).psn = h.psn := rfl
@[simp] theorem setFld_meter (h : Hub) (pg : Nat) (f : FieldDef) (v : Nat) : (setFld h pg f v).meter = h.meter := rfl
@[simp] theorem setFld_keep (h : Hub) (pg : Nat) (f : FieldDef) (v : Nat) : (setFld h pg f v).keep = h.keep := rfl
@[simp] theorem setFld_kep (h : Hub) (pg : Nat) (f : FieldDef) (v : Nat) : (setFld h pg f v).kep = h.kep := rfl
@[simp] theorem setFld_scb (h : Hub) (pg : Nat) (f : FieldDef) (v : Nat) : (setFld h pg f v).scb = h.scb := rfl
@[simp] theorem setFld_mov (h : Hub) (pg : Nat) (f : FieldDef) (v : Nat) : (setFld h pg f v).mov = h.mov := rfl
@[simp] theorem setFld_xlt (h : Hub) (pg : Nat) (f : FieldDef) (v : Nat) : (setFld h pg f v).xlt = h.xlt := rfl
@[simp] theorem setFld_fuses (h : Hub) (pg : Nat) (f : FieldDef) (v : Nat) : (setFld h pg f v).fuses = h.fuses := rfl
@[simp] theorem setFld_trust (h : Hub) (pg : Nat) (f : FieldDef) (v : Nat) : (setFld h pg f v).trust = h.trust := rfl
@[simp] theorem setFld_mgmt (h : Hub) (pg : Nat) (f : FieldDef) (v : Nat) : (setFld h pg f v).mgmt = h.mgmt := rfl
@[simp] theorem setFld_tap (h : Hub) (pg : Nat) (f : FieldDef) (v : Nat) : (setFld h pg f v).tap = h.tap := rfl
@[simp] theorem setFld_sramWipe (h : Hub) (pg : Nat) (f : FieldDef) (v : Nat) : (setFld h pg f v).sramWipe = h.sramWipe := rfl
@[simp] theorem setFld_sram (h : Hub) (pg : Nat) (f : FieldDef) (v : Nat) : (setFld h pg f v).sram = h.sram := rfl

/-! `setFld64` changes `regs` alone. -/

@[simp] theorem setFld64_out (h : Hub) (pg : Nat) (lo hi : FieldDef) (v : Nat) : (setFld64 h pg lo hi v).out = h.out := rfl
@[simp] theorem setFld64_htime (h : Hub) (pg : Nat) (lo hi : FieldDef) (v : Nat) : (setFld64 h pg lo hi v).htime = h.htime := rfl
@[simp] theorem setFld64_free (h : Hub) (pg : Nat) (lo hi : FieldDef) (v : Nat) : (setFld64 h pg lo hi v).free = h.free := rfl
@[simp] theorem setFld64_port (h : Hub) (pg : Nat) (lo hi : FieldDef) (v : Nat) : (setFld64 h pg lo hi v).port = h.port := rfl
@[simp] theorem setFld64_pins (h : Hub) (pg : Nat) (lo hi : FieldDef) (v : Nat) : (setFld64 h pg lo hi v).pins = h.pins := rfl
@[simp] theorem setFld64_boot (h : Hub) (pg : Nat) (lo hi : FieldDef) (v : Nat) : (setFld64 h pg lo hi v).boot = h.boot := rfl
@[simp] theorem setFld64_mode (h : Hub) (pg : Nat) (lo hi : FieldDef) (v : Nat) : (setFld64 h pg lo hi v).mode = h.mode := rfl
@[simp] theorem setFld64_bays (h : Hub) (pg : Nat) (lo hi : FieldDef) (v : Nat) : (setFld64 h pg lo hi v).bays = h.bays := rfl
@[simp] theorem setFld64_perf (h : Hub) (pg : Nat) (lo hi : FieldDef) (v : Nat) : (setFld64 h pg lo hi v).perf = h.perf := rfl
@[simp] theorem setFld64_pic (h : Hub) (pg : Nat) (lo hi : FieldDef) (v : Nat) : (setFld64 h pg lo hi v).pic = h.pic := rfl
@[simp] theorem setFld64_tulle (h : Hub) (pg : Nat) (lo hi : FieldDef) (v : Nat) : (setFld64 h pg lo hi v).tulle = h.tulle := rfl
@[simp] theorem setFld64_alerts (h : Hub) (pg : Nat) (lo hi : FieldDef) (v : Nat) : (setFld64 h pg lo hi v).alerts = h.alerts := rfl
@[simp] theorem setFld64_bayOut (h : Hub) (pg : Nat) (lo hi : FieldDef) (v : Nat) : (setFld64 h pg lo hi v).bayOut = h.bayOut := rfl
@[simp] theorem setFld64_coh (h : Hub) (pg : Nat) (lo hi : FieldDef) (v : Nat) : (setFld64 h pg lo hi v).coh = h.coh := rfl
@[simp] theorem setFld64_prk (h : Hub) (pg : Nat) (lo hi : FieldDef) (v : Nat) : (setFld64 h pg lo hi v).prk = h.prk := rfl
@[simp] theorem setFld64_media (h : Hub) (pg : Nat) (lo hi : FieldDef) (v : Nat) : (setFld64 h pg lo hi v).media = h.media := rfl
@[simp] theorem setFld64_owners (h : Hub) (pg : Nat) (lo hi : FieldDef) (v : Nat) : (setFld64 h pg lo hi v).owners = h.owners := rfl
@[simp] theorem setFld64_dead (h : Hub) (pg : Nat) (lo hi : FieldDef) (v : Nat) : (setFld64 h pg lo hi v).dead = h.dead := rfl
@[simp] theorem setFld64_psn (h : Hub) (pg : Nat) (lo hi : FieldDef) (v : Nat) : (setFld64 h pg lo hi v).psn = h.psn := rfl
@[simp] theorem setFld64_meter (h : Hub) (pg : Nat) (lo hi : FieldDef) (v : Nat) : (setFld64 h pg lo hi v).meter = h.meter := rfl
@[simp] theorem setFld64_keep (h : Hub) (pg : Nat) (lo hi : FieldDef) (v : Nat) : (setFld64 h pg lo hi v).keep = h.keep := rfl
@[simp] theorem setFld64_kep (h : Hub) (pg : Nat) (lo hi : FieldDef) (v : Nat) : (setFld64 h pg lo hi v).kep = h.kep := rfl
@[simp] theorem setFld64_scb (h : Hub) (pg : Nat) (lo hi : FieldDef) (v : Nat) : (setFld64 h pg lo hi v).scb = h.scb := rfl
@[simp] theorem setFld64_mov (h : Hub) (pg : Nat) (lo hi : FieldDef) (v : Nat) : (setFld64 h pg lo hi v).mov = h.mov := rfl
@[simp] theorem setFld64_xlt (h : Hub) (pg : Nat) (lo hi : FieldDef) (v : Nat) : (setFld64 h pg lo hi v).xlt = h.xlt := rfl
@[simp] theorem setFld64_fuses (h : Hub) (pg : Nat) (lo hi : FieldDef) (v : Nat) : (setFld64 h pg lo hi v).fuses = h.fuses := rfl
@[simp] theorem setFld64_trust (h : Hub) (pg : Nat) (lo hi : FieldDef) (v : Nat) : (setFld64 h pg lo hi v).trust = h.trust := rfl
@[simp] theorem setFld64_mgmt (h : Hub) (pg : Nat) (lo hi : FieldDef) (v : Nat) : (setFld64 h pg lo hi v).mgmt = h.mgmt := rfl
@[simp] theorem setFld64_tap (h : Hub) (pg : Nat) (lo hi : FieldDef) (v : Nat) : (setFld64 h pg lo hi v).tap = h.tap := rfl
@[simp] theorem setFld64_sramWipe (h : Hub) (pg : Nat) (lo hi : FieldDef) (v : Nat) : (setFld64 h pg lo hi v).sramWipe = h.sramWipe := rfl
@[simp] theorem setFld64_sram (h : Hub) (pg : Nat) (lo hi : FieldDef) (v : Nat) : (setFld64 h pg lo hi v).sram = h.sram := rfl

/-! `countBy` changes `regs` alone. -/

@[simp] theorem countBy_out (h : Hub) (pg : Nat) (f : FieldDef) (n : Nat) : (countBy h pg f n).out = h.out := rfl
@[simp] theorem countBy_htime (h : Hub) (pg : Nat) (f : FieldDef) (n : Nat) : (countBy h pg f n).htime = h.htime := rfl
@[simp] theorem countBy_free (h : Hub) (pg : Nat) (f : FieldDef) (n : Nat) : (countBy h pg f n).free = h.free := rfl
@[simp] theorem countBy_port (h : Hub) (pg : Nat) (f : FieldDef) (n : Nat) : (countBy h pg f n).port = h.port := rfl
@[simp] theorem countBy_pins (h : Hub) (pg : Nat) (f : FieldDef) (n : Nat) : (countBy h pg f n).pins = h.pins := rfl
@[simp] theorem countBy_boot (h : Hub) (pg : Nat) (f : FieldDef) (n : Nat) : (countBy h pg f n).boot = h.boot := rfl
@[simp] theorem countBy_mode (h : Hub) (pg : Nat) (f : FieldDef) (n : Nat) : (countBy h pg f n).mode = h.mode := rfl
@[simp] theorem countBy_bays (h : Hub) (pg : Nat) (f : FieldDef) (n : Nat) : (countBy h pg f n).bays = h.bays := rfl
@[simp] theorem countBy_perf (h : Hub) (pg : Nat) (f : FieldDef) (n : Nat) : (countBy h pg f n).perf = h.perf := rfl
@[simp] theorem countBy_pic (h : Hub) (pg : Nat) (f : FieldDef) (n : Nat) : (countBy h pg f n).pic = h.pic := rfl
@[simp] theorem countBy_tulle (h : Hub) (pg : Nat) (f : FieldDef) (n : Nat) : (countBy h pg f n).tulle = h.tulle := rfl
@[simp] theorem countBy_alerts (h : Hub) (pg : Nat) (f : FieldDef) (n : Nat) : (countBy h pg f n).alerts = h.alerts := rfl
@[simp] theorem countBy_bayOut (h : Hub) (pg : Nat) (f : FieldDef) (n : Nat) : (countBy h pg f n).bayOut = h.bayOut := rfl
@[simp] theorem countBy_coh (h : Hub) (pg : Nat) (f : FieldDef) (n : Nat) : (countBy h pg f n).coh = h.coh := rfl
@[simp] theorem countBy_prk (h : Hub) (pg : Nat) (f : FieldDef) (n : Nat) : (countBy h pg f n).prk = h.prk := rfl
@[simp] theorem countBy_media (h : Hub) (pg : Nat) (f : FieldDef) (n : Nat) : (countBy h pg f n).media = h.media := rfl
@[simp] theorem countBy_owners (h : Hub) (pg : Nat) (f : FieldDef) (n : Nat) : (countBy h pg f n).owners = h.owners := rfl
@[simp] theorem countBy_dead (h : Hub) (pg : Nat) (f : FieldDef) (n : Nat) : (countBy h pg f n).dead = h.dead := rfl
@[simp] theorem countBy_psn (h : Hub) (pg : Nat) (f : FieldDef) (n : Nat) : (countBy h pg f n).psn = h.psn := rfl
@[simp] theorem countBy_meter (h : Hub) (pg : Nat) (f : FieldDef) (n : Nat) : (countBy h pg f n).meter = h.meter := rfl
@[simp] theorem countBy_keep (h : Hub) (pg : Nat) (f : FieldDef) (n : Nat) : (countBy h pg f n).keep = h.keep := rfl
@[simp] theorem countBy_kep (h : Hub) (pg : Nat) (f : FieldDef) (n : Nat) : (countBy h pg f n).kep = h.kep := rfl
@[simp] theorem countBy_scb (h : Hub) (pg : Nat) (f : FieldDef) (n : Nat) : (countBy h pg f n).scb = h.scb := rfl
@[simp] theorem countBy_mov (h : Hub) (pg : Nat) (f : FieldDef) (n : Nat) : (countBy h pg f n).mov = h.mov := rfl
@[simp] theorem countBy_xlt (h : Hub) (pg : Nat) (f : FieldDef) (n : Nat) : (countBy h pg f n).xlt = h.xlt := rfl
@[simp] theorem countBy_fuses (h : Hub) (pg : Nat) (f : FieldDef) (n : Nat) : (countBy h pg f n).fuses = h.fuses := rfl
@[simp] theorem countBy_trust (h : Hub) (pg : Nat) (f : FieldDef) (n : Nat) : (countBy h pg f n).trust = h.trust := rfl
@[simp] theorem countBy_mgmt (h : Hub) (pg : Nat) (f : FieldDef) (n : Nat) : (countBy h pg f n).mgmt = h.mgmt := rfl
@[simp] theorem countBy_tap (h : Hub) (pg : Nat) (f : FieldDef) (n : Nat) : (countBy h pg f n).tap = h.tap := rfl
@[simp] theorem countBy_sramWipe (h : Hub) (pg : Nat) (f : FieldDef) (n : Nat) : (countBy h pg f n).sramWipe = h.sramWipe := rfl
@[simp] theorem countBy_sram (h : Hub) (pg : Nat) (f : FieldDef) (n : Nat) : (countBy h pg f n).sram = h.sram := rfl

/-! `emit` changes `out` alone. -/

@[simp] theorem emit_regs (h : Hub) (e : Emit) : (emit h e).regs = h.regs := rfl
@[simp] theorem emit_htime (h : Hub) (e : Emit) : (emit h e).htime = h.htime := rfl
@[simp] theorem emit_free (h : Hub) (e : Emit) : (emit h e).free = h.free := rfl
@[simp] theorem emit_port (h : Hub) (e : Emit) : (emit h e).port = h.port := rfl
@[simp] theorem emit_pins (h : Hub) (e : Emit) : (emit h e).pins = h.pins := rfl
@[simp] theorem emit_boot (h : Hub) (e : Emit) : (emit h e).boot = h.boot := rfl
@[simp] theorem emit_mode (h : Hub) (e : Emit) : (emit h e).mode = h.mode := rfl
@[simp] theorem emit_bays (h : Hub) (e : Emit) : (emit h e).bays = h.bays := rfl
@[simp] theorem emit_perf (h : Hub) (e : Emit) : (emit h e).perf = h.perf := rfl
@[simp] theorem emit_pic (h : Hub) (e : Emit) : (emit h e).pic = h.pic := rfl
@[simp] theorem emit_tulle (h : Hub) (e : Emit) : (emit h e).tulle = h.tulle := rfl
@[simp] theorem emit_alerts (h : Hub) (e : Emit) : (emit h e).alerts = h.alerts := rfl
@[simp] theorem emit_bayOut (h : Hub) (e : Emit) : (emit h e).bayOut = h.bayOut := rfl
@[simp] theorem emit_coh (h : Hub) (e : Emit) : (emit h e).coh = h.coh := rfl
@[simp] theorem emit_prk (h : Hub) (e : Emit) : (emit h e).prk = h.prk := rfl
@[simp] theorem emit_media (h : Hub) (e : Emit) : (emit h e).media = h.media := rfl
@[simp] theorem emit_owners (h : Hub) (e : Emit) : (emit h e).owners = h.owners := rfl
@[simp] theorem emit_dead (h : Hub) (e : Emit) : (emit h e).dead = h.dead := rfl
@[simp] theorem emit_psn (h : Hub) (e : Emit) : (emit h e).psn = h.psn := rfl
@[simp] theorem emit_meter (h : Hub) (e : Emit) : (emit h e).meter = h.meter := rfl
@[simp] theorem emit_keep (h : Hub) (e : Emit) : (emit h e).keep = h.keep := rfl
@[simp] theorem emit_kep (h : Hub) (e : Emit) : (emit h e).kep = h.kep := rfl
@[simp] theorem emit_scb (h : Hub) (e : Emit) : (emit h e).scb = h.scb := rfl
@[simp] theorem emit_mov (h : Hub) (e : Emit) : (emit h e).mov = h.mov := rfl
@[simp] theorem emit_xlt (h : Hub) (e : Emit) : (emit h e).xlt = h.xlt := rfl
@[simp] theorem emit_fuses (h : Hub) (e : Emit) : (emit h e).fuses = h.fuses := rfl
@[simp] theorem emit_trust (h : Hub) (e : Emit) : (emit h e).trust = h.trust := rfl
@[simp] theorem emit_mgmt (h : Hub) (e : Emit) : (emit h e).mgmt = h.mgmt := rfl
@[simp] theorem emit_tap (h : Hub) (e : Emit) : (emit h e).tap = h.tap := rfl
@[simp] theorem emit_sramWipe (h : Hub) (e : Emit) : (emit h e).sramWipe = h.sramWipe := rfl
@[simp] theorem emit_sram (h : Hub) (e : Emit) : (emit h e).sram = h.sram := rfl
@[simp] theorem fld_emit (h : Hub) (e : Emit) (pg' : Nat) (f' : FieldDef) : fld (emit h e) pg' f' = fld h pg' f' := rfl

/-! `modBay` changes `bays` alone. -/

@[simp] theorem modBay_regs (h : Hub) (b : Nat) (f : BayRt → BayRt) : (modBay h b f).regs = h.regs := rfl
@[simp] theorem modBay_out (h : Hub) (b : Nat) (f : BayRt → BayRt) : (modBay h b f).out = h.out := rfl
@[simp] theorem modBay_htime (h : Hub) (b : Nat) (f : BayRt → BayRt) : (modBay h b f).htime = h.htime := rfl
@[simp] theorem modBay_free (h : Hub) (b : Nat) (f : BayRt → BayRt) : (modBay h b f).free = h.free := rfl
@[simp] theorem modBay_port (h : Hub) (b : Nat) (f : BayRt → BayRt) : (modBay h b f).port = h.port := rfl
@[simp] theorem modBay_pins (h : Hub) (b : Nat) (f : BayRt → BayRt) : (modBay h b f).pins = h.pins := rfl
@[simp] theorem modBay_boot (h : Hub) (b : Nat) (f : BayRt → BayRt) : (modBay h b f).boot = h.boot := rfl
@[simp] theorem modBay_mode (h : Hub) (b : Nat) (f : BayRt → BayRt) : (modBay h b f).mode = h.mode := rfl
@[simp] theorem modBay_perf (h : Hub) (b : Nat) (f : BayRt → BayRt) : (modBay h b f).perf = h.perf := rfl
@[simp] theorem modBay_pic (h : Hub) (b : Nat) (f : BayRt → BayRt) : (modBay h b f).pic = h.pic := rfl
@[simp] theorem modBay_tulle (h : Hub) (b : Nat) (f : BayRt → BayRt) : (modBay h b f).tulle = h.tulle := rfl
@[simp] theorem modBay_alerts (h : Hub) (b : Nat) (f : BayRt → BayRt) : (modBay h b f).alerts = h.alerts := rfl
@[simp] theorem modBay_bayOut (h : Hub) (b : Nat) (f : BayRt → BayRt) : (modBay h b f).bayOut = h.bayOut := rfl
@[simp] theorem modBay_coh (h : Hub) (b : Nat) (f : BayRt → BayRt) : (modBay h b f).coh = h.coh := rfl
@[simp] theorem modBay_prk (h : Hub) (b : Nat) (f : BayRt → BayRt) : (modBay h b f).prk = h.prk := rfl
@[simp] theorem modBay_media (h : Hub) (b : Nat) (f : BayRt → BayRt) : (modBay h b f).media = h.media := rfl
@[simp] theorem modBay_owners (h : Hub) (b : Nat) (f : BayRt → BayRt) : (modBay h b f).owners = h.owners := rfl
@[simp] theorem modBay_dead (h : Hub) (b : Nat) (f : BayRt → BayRt) : (modBay h b f).dead = h.dead := rfl
@[simp] theorem modBay_psn (h : Hub) (b : Nat) (f : BayRt → BayRt) : (modBay h b f).psn = h.psn := rfl
@[simp] theorem modBay_meter (h : Hub) (b : Nat) (f : BayRt → BayRt) : (modBay h b f).meter = h.meter := rfl
@[simp] theorem modBay_keep (h : Hub) (b : Nat) (f : BayRt → BayRt) : (modBay h b f).keep = h.keep := rfl
@[simp] theorem modBay_kep (h : Hub) (b : Nat) (f : BayRt → BayRt) : (modBay h b f).kep = h.kep := rfl
@[simp] theorem modBay_scb (h : Hub) (b : Nat) (f : BayRt → BayRt) : (modBay h b f).scb = h.scb := rfl
@[simp] theorem modBay_mov (h : Hub) (b : Nat) (f : BayRt → BayRt) : (modBay h b f).mov = h.mov := rfl
@[simp] theorem modBay_xlt (h : Hub) (b : Nat) (f : BayRt → BayRt) : (modBay h b f).xlt = h.xlt := rfl
@[simp] theorem modBay_fuses (h : Hub) (b : Nat) (f : BayRt → BayRt) : (modBay h b f).fuses = h.fuses := rfl
@[simp] theorem modBay_trust (h : Hub) (b : Nat) (f : BayRt → BayRt) : (modBay h b f).trust = h.trust := rfl
@[simp] theorem modBay_mgmt (h : Hub) (b : Nat) (f : BayRt → BayRt) : (modBay h b f).mgmt = h.mgmt := rfl
@[simp] theorem modBay_tap (h : Hub) (b : Nat) (f : BayRt → BayRt) : (modBay h b f).tap = h.tap := rfl
@[simp] theorem modBay_sramWipe (h : Hub) (b : Nat) (f : BayRt → BayRt) : (modBay h b f).sramWipe = h.sramWipe := rfl
@[simp] theorem modBay_sram (h : Hub) (b : Nat) (f : BayRt → BayRt) : (modBay h b f).sram = h.sram := rfl
@[simp] theorem fld_modBay (h : Hub) (b : Nat) (f : BayRt → BayRt) (pg' : Nat) (f' : FieldDef) : fld (modBay h b f) pg' f' = fld h pg' f' := rfl

/-! `modTulle` changes `tulle` alone. -/

@[simp] theorem modTulle_regs (h : Hub) (f : Tulle → Tulle) : (modTulle h f).regs = h.regs := rfl
@[simp] theorem modTulle_out (h : Hub) (f : Tulle → Tulle) : (modTulle h f).out = h.out := rfl
@[simp] theorem modTulle_htime (h : Hub) (f : Tulle → Tulle) : (modTulle h f).htime = h.htime := rfl
@[simp] theorem modTulle_free (h : Hub) (f : Tulle → Tulle) : (modTulle h f).free = h.free := rfl
@[simp] theorem modTulle_port (h : Hub) (f : Tulle → Tulle) : (modTulle h f).port = h.port := rfl
@[simp] theorem modTulle_pins (h : Hub) (f : Tulle → Tulle) : (modTulle h f).pins = h.pins := rfl
@[simp] theorem modTulle_boot (h : Hub) (f : Tulle → Tulle) : (modTulle h f).boot = h.boot := rfl
@[simp] theorem modTulle_mode (h : Hub) (f : Tulle → Tulle) : (modTulle h f).mode = h.mode := rfl
@[simp] theorem modTulle_bays (h : Hub) (f : Tulle → Tulle) : (modTulle h f).bays = h.bays := rfl
@[simp] theorem modTulle_perf (h : Hub) (f : Tulle → Tulle) : (modTulle h f).perf = h.perf := rfl
@[simp] theorem modTulle_pic (h : Hub) (f : Tulle → Tulle) : (modTulle h f).pic = h.pic := rfl
@[simp] theorem modTulle_alerts (h : Hub) (f : Tulle → Tulle) : (modTulle h f).alerts = h.alerts := rfl
@[simp] theorem modTulle_bayOut (h : Hub) (f : Tulle → Tulle) : (modTulle h f).bayOut = h.bayOut := rfl
@[simp] theorem modTulle_coh (h : Hub) (f : Tulle → Tulle) : (modTulle h f).coh = h.coh := rfl
@[simp] theorem modTulle_prk (h : Hub) (f : Tulle → Tulle) : (modTulle h f).prk = h.prk := rfl
@[simp] theorem modTulle_media (h : Hub) (f : Tulle → Tulle) : (modTulle h f).media = h.media := rfl
@[simp] theorem modTulle_owners (h : Hub) (f : Tulle → Tulle) : (modTulle h f).owners = h.owners := rfl
@[simp] theorem modTulle_dead (h : Hub) (f : Tulle → Tulle) : (modTulle h f).dead = h.dead := rfl
@[simp] theorem modTulle_psn (h : Hub) (f : Tulle → Tulle) : (modTulle h f).psn = h.psn := rfl
@[simp] theorem modTulle_meter (h : Hub) (f : Tulle → Tulle) : (modTulle h f).meter = h.meter := rfl
@[simp] theorem modTulle_keep (h : Hub) (f : Tulle → Tulle) : (modTulle h f).keep = h.keep := rfl
@[simp] theorem modTulle_kep (h : Hub) (f : Tulle → Tulle) : (modTulle h f).kep = h.kep := rfl
@[simp] theorem modTulle_scb (h : Hub) (f : Tulle → Tulle) : (modTulle h f).scb = h.scb := rfl
@[simp] theorem modTulle_mov (h : Hub) (f : Tulle → Tulle) : (modTulle h f).mov = h.mov := rfl
@[simp] theorem modTulle_xlt (h : Hub) (f : Tulle → Tulle) : (modTulle h f).xlt = h.xlt := rfl
@[simp] theorem modTulle_fuses (h : Hub) (f : Tulle → Tulle) : (modTulle h f).fuses = h.fuses := rfl
@[simp] theorem modTulle_trust (h : Hub) (f : Tulle → Tulle) : (modTulle h f).trust = h.trust := rfl
@[simp] theorem modTulle_mgmt (h : Hub) (f : Tulle → Tulle) : (modTulle h f).mgmt = h.mgmt := rfl
@[simp] theorem modTulle_tap (h : Hub) (f : Tulle → Tulle) : (modTulle h f).tap = h.tap := rfl
@[simp] theorem modTulle_sramWipe (h : Hub) (f : Tulle → Tulle) : (modTulle h f).sramWipe = h.sramWipe := rfl
@[simp] theorem modTulle_sram (h : Hub) (f : Tulle → Tulle) : (modTulle h f).sram = h.sram := rfl
@[simp] theorem fld_modTulle (h : Hub) (f : Tulle → Tulle) (pg' : Nat) (f' : FieldDef) : fld (modTulle h f) pg' f' = fld h pg' f' := rfl

/-! `modLink` changes `tulle` alone. -/

@[simp] theorem modLink_regs (h : Hub) (b : Nat) (f : TLink → TLink) : (modLink h b f).regs = h.regs := rfl
@[simp] theorem modLink_out (h : Hub) (b : Nat) (f : TLink → TLink) : (modLink h b f).out = h.out := rfl
@[simp] theorem modLink_htime (h : Hub) (b : Nat) (f : TLink → TLink) : (modLink h b f).htime = h.htime := rfl
@[simp] theorem modLink_free (h : Hub) (b : Nat) (f : TLink → TLink) : (modLink h b f).free = h.free := rfl
@[simp] theorem modLink_port (h : Hub) (b : Nat) (f : TLink → TLink) : (modLink h b f).port = h.port := rfl
@[simp] theorem modLink_pins (h : Hub) (b : Nat) (f : TLink → TLink) : (modLink h b f).pins = h.pins := rfl
@[simp] theorem modLink_boot (h : Hub) (b : Nat) (f : TLink → TLink) : (modLink h b f).boot = h.boot := rfl
@[simp] theorem modLink_mode (h : Hub) (b : Nat) (f : TLink → TLink) : (modLink h b f).mode = h.mode := rfl
@[simp] theorem modLink_bays (h : Hub) (b : Nat) (f : TLink → TLink) : (modLink h b f).bays = h.bays := rfl
@[simp] theorem modLink_perf (h : Hub) (b : Nat) (f : TLink → TLink) : (modLink h b f).perf = h.perf := rfl
@[simp] theorem modLink_pic (h : Hub) (b : Nat) (f : TLink → TLink) : (modLink h b f).pic = h.pic := rfl
@[simp] theorem modLink_alerts (h : Hub) (b : Nat) (f : TLink → TLink) : (modLink h b f).alerts = h.alerts := rfl
@[simp] theorem modLink_bayOut (h : Hub) (b : Nat) (f : TLink → TLink) : (modLink h b f).bayOut = h.bayOut := rfl
@[simp] theorem modLink_coh (h : Hub) (b : Nat) (f : TLink → TLink) : (modLink h b f).coh = h.coh := rfl
@[simp] theorem modLink_prk (h : Hub) (b : Nat) (f : TLink → TLink) : (modLink h b f).prk = h.prk := rfl
@[simp] theorem modLink_media (h : Hub) (b : Nat) (f : TLink → TLink) : (modLink h b f).media = h.media := rfl
@[simp] theorem modLink_owners (h : Hub) (b : Nat) (f : TLink → TLink) : (modLink h b f).owners = h.owners := rfl
@[simp] theorem modLink_dead (h : Hub) (b : Nat) (f : TLink → TLink) : (modLink h b f).dead = h.dead := rfl
@[simp] theorem modLink_psn (h : Hub) (b : Nat) (f : TLink → TLink) : (modLink h b f).psn = h.psn := rfl
@[simp] theorem modLink_meter (h : Hub) (b : Nat) (f : TLink → TLink) : (modLink h b f).meter = h.meter := rfl
@[simp] theorem modLink_keep (h : Hub) (b : Nat) (f : TLink → TLink) : (modLink h b f).keep = h.keep := rfl
@[simp] theorem modLink_kep (h : Hub) (b : Nat) (f : TLink → TLink) : (modLink h b f).kep = h.kep := rfl
@[simp] theorem modLink_scb (h : Hub) (b : Nat) (f : TLink → TLink) : (modLink h b f).scb = h.scb := rfl
@[simp] theorem modLink_mov (h : Hub) (b : Nat) (f : TLink → TLink) : (modLink h b f).mov = h.mov := rfl
@[simp] theorem modLink_xlt (h : Hub) (b : Nat) (f : TLink → TLink) : (modLink h b f).xlt = h.xlt := rfl
@[simp] theorem modLink_fuses (h : Hub) (b : Nat) (f : TLink → TLink) : (modLink h b f).fuses = h.fuses := rfl
@[simp] theorem modLink_trust (h : Hub) (b : Nat) (f : TLink → TLink) : (modLink h b f).trust = h.trust := rfl
@[simp] theorem modLink_mgmt (h : Hub) (b : Nat) (f : TLink → TLink) : (modLink h b f).mgmt = h.mgmt := rfl
@[simp] theorem modLink_tap (h : Hub) (b : Nat) (f : TLink → TLink) : (modLink h b f).tap = h.tap := rfl
@[simp] theorem modLink_sramWipe (h : Hub) (b : Nat) (f : TLink → TLink) : (modLink h b f).sramWipe = h.sramWipe := rfl
@[simp] theorem modLink_sram (h : Hub) (b : Nat) (f : TLink → TLink) : (modLink h b f).sram = h.sram := rfl
@[simp] theorem fld_modLink (h : Hub) (b : Nat) (f : TLink → TLink) (pg' : Nat) (f' : FieldDef) : fld (modLink h b f) pg' f' = fld h pg' f' := rfl

/-! `modNode` changes `tulle` alone. -/

@[simp] theorem modNode_regs (h : Hub) (n : Nat) (f : NodeRt → NodeRt) : (modNode h n f).regs = h.regs := rfl
@[simp] theorem modNode_out (h : Hub) (n : Nat) (f : NodeRt → NodeRt) : (modNode h n f).out = h.out := rfl
@[simp] theorem modNode_htime (h : Hub) (n : Nat) (f : NodeRt → NodeRt) : (modNode h n f).htime = h.htime := rfl
@[simp] theorem modNode_free (h : Hub) (n : Nat) (f : NodeRt → NodeRt) : (modNode h n f).free = h.free := rfl
@[simp] theorem modNode_port (h : Hub) (n : Nat) (f : NodeRt → NodeRt) : (modNode h n f).port = h.port := rfl
@[simp] theorem modNode_pins (h : Hub) (n : Nat) (f : NodeRt → NodeRt) : (modNode h n f).pins = h.pins := rfl
@[simp] theorem modNode_boot (h : Hub) (n : Nat) (f : NodeRt → NodeRt) : (modNode h n f).boot = h.boot := rfl
@[simp] theorem modNode_mode (h : Hub) (n : Nat) (f : NodeRt → NodeRt) : (modNode h n f).mode = h.mode := rfl
@[simp] theorem modNode_bays (h : Hub) (n : Nat) (f : NodeRt → NodeRt) : (modNode h n f).bays = h.bays := rfl
@[simp] theorem modNode_perf (h : Hub) (n : Nat) (f : NodeRt → NodeRt) : (modNode h n f).perf = h.perf := rfl
@[simp] theorem modNode_pic (h : Hub) (n : Nat) (f : NodeRt → NodeRt) : (modNode h n f).pic = h.pic := rfl
@[simp] theorem modNode_alerts (h : Hub) (n : Nat) (f : NodeRt → NodeRt) : (modNode h n f).alerts = h.alerts := rfl
@[simp] theorem modNode_bayOut (h : Hub) (n : Nat) (f : NodeRt → NodeRt) : (modNode h n f).bayOut = h.bayOut := rfl
@[simp] theorem modNode_coh (h : Hub) (n : Nat) (f : NodeRt → NodeRt) : (modNode h n f).coh = h.coh := rfl
@[simp] theorem modNode_prk (h : Hub) (n : Nat) (f : NodeRt → NodeRt) : (modNode h n f).prk = h.prk := rfl
@[simp] theorem modNode_media (h : Hub) (n : Nat) (f : NodeRt → NodeRt) : (modNode h n f).media = h.media := rfl
@[simp] theorem modNode_owners (h : Hub) (n : Nat) (f : NodeRt → NodeRt) : (modNode h n f).owners = h.owners := rfl
@[simp] theorem modNode_dead (h : Hub) (n : Nat) (f : NodeRt → NodeRt) : (modNode h n f).dead = h.dead := rfl
@[simp] theorem modNode_psn (h : Hub) (n : Nat) (f : NodeRt → NodeRt) : (modNode h n f).psn = h.psn := rfl
@[simp] theorem modNode_meter (h : Hub) (n : Nat) (f : NodeRt → NodeRt) : (modNode h n f).meter = h.meter := rfl
@[simp] theorem modNode_keep (h : Hub) (n : Nat) (f : NodeRt → NodeRt) : (modNode h n f).keep = h.keep := rfl
@[simp] theorem modNode_kep (h : Hub) (n : Nat) (f : NodeRt → NodeRt) : (modNode h n f).kep = h.kep := rfl
@[simp] theorem modNode_scb (h : Hub) (n : Nat) (f : NodeRt → NodeRt) : (modNode h n f).scb = h.scb := rfl
@[simp] theorem modNode_mov (h : Hub) (n : Nat) (f : NodeRt → NodeRt) : (modNode h n f).mov = h.mov := rfl
@[simp] theorem modNode_xlt (h : Hub) (n : Nat) (f : NodeRt → NodeRt) : (modNode h n f).xlt = h.xlt := rfl
@[simp] theorem modNode_fuses (h : Hub) (n : Nat) (f : NodeRt → NodeRt) : (modNode h n f).fuses = h.fuses := rfl
@[simp] theorem modNode_trust (h : Hub) (n : Nat) (f : NodeRt → NodeRt) : (modNode h n f).trust = h.trust := rfl
@[simp] theorem modNode_mgmt (h : Hub) (n : Nat) (f : NodeRt → NodeRt) : (modNode h n f).mgmt = h.mgmt := rfl
@[simp] theorem modNode_tap (h : Hub) (n : Nat) (f : NodeRt → NodeRt) : (modNode h n f).tap = h.tap := rfl
@[simp] theorem modNode_sramWipe (h : Hub) (n : Nat) (f : NodeRt → NodeRt) : (modNode h n f).sramWipe = h.sramWipe := rfl
@[simp] theorem modNode_sram (h : Hub) (n : Nat) (f : NodeRt → NodeRt) : (modNode h n f).sram = h.sram := rfl
@[simp] theorem fld_modNode (h : Hub) (n : Nat) (f : NodeRt → NodeRt) (pg' : Nat) (f' : FieldDef) : fld (modNode h n f) pg' f' = fld h pg' f' := rfl

/-! `modChain` changes `coh` alone. -/

@[simp] theorem modChain_regs (h : Hub) (l : LineAddr) (f : Chain → Chain) : (modChain h l f).regs = h.regs := rfl
@[simp] theorem modChain_out (h : Hub) (l : LineAddr) (f : Chain → Chain) : (modChain h l f).out = h.out := rfl
@[simp] theorem modChain_htime (h : Hub) (l : LineAddr) (f : Chain → Chain) : (modChain h l f).htime = h.htime := rfl
@[simp] theorem modChain_free (h : Hub) (l : LineAddr) (f : Chain → Chain) : (modChain h l f).free = h.free := rfl
@[simp] theorem modChain_port (h : Hub) (l : LineAddr) (f : Chain → Chain) : (modChain h l f).port = h.port := rfl
@[simp] theorem modChain_pins (h : Hub) (l : LineAddr) (f : Chain → Chain) : (modChain h l f).pins = h.pins := rfl
@[simp] theorem modChain_boot (h : Hub) (l : LineAddr) (f : Chain → Chain) : (modChain h l f).boot = h.boot := rfl
@[simp] theorem modChain_mode (h : Hub) (l : LineAddr) (f : Chain → Chain) : (modChain h l f).mode = h.mode := rfl
@[simp] theorem modChain_bays (h : Hub) (l : LineAddr) (f : Chain → Chain) : (modChain h l f).bays = h.bays := rfl
@[simp] theorem modChain_perf (h : Hub) (l : LineAddr) (f : Chain → Chain) : (modChain h l f).perf = h.perf := rfl
@[simp] theorem modChain_pic (h : Hub) (l : LineAddr) (f : Chain → Chain) : (modChain h l f).pic = h.pic := rfl
@[simp] theorem modChain_tulle (h : Hub) (l : LineAddr) (f : Chain → Chain) : (modChain h l f).tulle = h.tulle := rfl
@[simp] theorem modChain_alerts (h : Hub) (l : LineAddr) (f : Chain → Chain) : (modChain h l f).alerts = h.alerts := rfl
@[simp] theorem modChain_bayOut (h : Hub) (l : LineAddr) (f : Chain → Chain) : (modChain h l f).bayOut = h.bayOut := rfl
@[simp] theorem modChain_prk (h : Hub) (l : LineAddr) (f : Chain → Chain) : (modChain h l f).prk = h.prk := rfl
@[simp] theorem modChain_media (h : Hub) (l : LineAddr) (f : Chain → Chain) : (modChain h l f).media = h.media := rfl
@[simp] theorem modChain_owners (h : Hub) (l : LineAddr) (f : Chain → Chain) : (modChain h l f).owners = h.owners := rfl
@[simp] theorem modChain_dead (h : Hub) (l : LineAddr) (f : Chain → Chain) : (modChain h l f).dead = h.dead := rfl
@[simp] theorem modChain_psn (h : Hub) (l : LineAddr) (f : Chain → Chain) : (modChain h l f).psn = h.psn := rfl
@[simp] theorem modChain_meter (h : Hub) (l : LineAddr) (f : Chain → Chain) : (modChain h l f).meter = h.meter := rfl
@[simp] theorem modChain_keep (h : Hub) (l : LineAddr) (f : Chain → Chain) : (modChain h l f).keep = h.keep := rfl
@[simp] theorem modChain_kep (h : Hub) (l : LineAddr) (f : Chain → Chain) : (modChain h l f).kep = h.kep := rfl
@[simp] theorem modChain_scb (h : Hub) (l : LineAddr) (f : Chain → Chain) : (modChain h l f).scb = h.scb := rfl
@[simp] theorem modChain_mov (h : Hub) (l : LineAddr) (f : Chain → Chain) : (modChain h l f).mov = h.mov := rfl
@[simp] theorem modChain_xlt (h : Hub) (l : LineAddr) (f : Chain → Chain) : (modChain h l f).xlt = h.xlt := rfl
@[simp] theorem modChain_fuses (h : Hub) (l : LineAddr) (f : Chain → Chain) : (modChain h l f).fuses = h.fuses := rfl
@[simp] theorem modChain_trust (h : Hub) (l : LineAddr) (f : Chain → Chain) : (modChain h l f).trust = h.trust := rfl
@[simp] theorem modChain_mgmt (h : Hub) (l : LineAddr) (f : Chain → Chain) : (modChain h l f).mgmt = h.mgmt := rfl
@[simp] theorem modChain_tap (h : Hub) (l : LineAddr) (f : Chain → Chain) : (modChain h l f).tap = h.tap := rfl
@[simp] theorem modChain_sramWipe (h : Hub) (l : LineAddr) (f : Chain → Chain) : (modChain h l f).sramWipe = h.sramWipe := rfl
@[simp] theorem modChain_sram (h : Hub) (l : LineAddr) (f : Chain → Chain) : (modChain h l f).sram = h.sram := rfl
@[simp] theorem fld_modChain (h : Hub) (l : LineAddr) (f : Chain → Chain) (pg' : Nat) (f' : FieldDef) : fld (modChain h l f) pg' f' = fld h pg' f' := rfl

/-! `modSet` changes `prk` alone. -/

@[simp] theorem modSet_regs (h : Hub) (k : Nat) (f : PrkSet → PrkSet) : (modSet h k f).regs = h.regs := rfl
@[simp] theorem modSet_out (h : Hub) (k : Nat) (f : PrkSet → PrkSet) : (modSet h k f).out = h.out := rfl
@[simp] theorem modSet_htime (h : Hub) (k : Nat) (f : PrkSet → PrkSet) : (modSet h k f).htime = h.htime := rfl
@[simp] theorem modSet_free (h : Hub) (k : Nat) (f : PrkSet → PrkSet) : (modSet h k f).free = h.free := rfl
@[simp] theorem modSet_port (h : Hub) (k : Nat) (f : PrkSet → PrkSet) : (modSet h k f).port = h.port := rfl
@[simp] theorem modSet_pins (h : Hub) (k : Nat) (f : PrkSet → PrkSet) : (modSet h k f).pins = h.pins := rfl
@[simp] theorem modSet_boot (h : Hub) (k : Nat) (f : PrkSet → PrkSet) : (modSet h k f).boot = h.boot := rfl
@[simp] theorem modSet_mode (h : Hub) (k : Nat) (f : PrkSet → PrkSet) : (modSet h k f).mode = h.mode := rfl
@[simp] theorem modSet_bays (h : Hub) (k : Nat) (f : PrkSet → PrkSet) : (modSet h k f).bays = h.bays := rfl
@[simp] theorem modSet_perf (h : Hub) (k : Nat) (f : PrkSet → PrkSet) : (modSet h k f).perf = h.perf := rfl
@[simp] theorem modSet_pic (h : Hub) (k : Nat) (f : PrkSet → PrkSet) : (modSet h k f).pic = h.pic := rfl
@[simp] theorem modSet_tulle (h : Hub) (k : Nat) (f : PrkSet → PrkSet) : (modSet h k f).tulle = h.tulle := rfl
@[simp] theorem modSet_alerts (h : Hub) (k : Nat) (f : PrkSet → PrkSet) : (modSet h k f).alerts = h.alerts := rfl
@[simp] theorem modSet_bayOut (h : Hub) (k : Nat) (f : PrkSet → PrkSet) : (modSet h k f).bayOut = h.bayOut := rfl
@[simp] theorem modSet_coh (h : Hub) (k : Nat) (f : PrkSet → PrkSet) : (modSet h k f).coh = h.coh := rfl
@[simp] theorem modSet_media (h : Hub) (k : Nat) (f : PrkSet → PrkSet) : (modSet h k f).media = h.media := rfl
@[simp] theorem modSet_owners (h : Hub) (k : Nat) (f : PrkSet → PrkSet) : (modSet h k f).owners = h.owners := rfl
@[simp] theorem modSet_dead (h : Hub) (k : Nat) (f : PrkSet → PrkSet) : (modSet h k f).dead = h.dead := rfl
@[simp] theorem modSet_psn (h : Hub) (k : Nat) (f : PrkSet → PrkSet) : (modSet h k f).psn = h.psn := rfl
@[simp] theorem modSet_meter (h : Hub) (k : Nat) (f : PrkSet → PrkSet) : (modSet h k f).meter = h.meter := rfl
@[simp] theorem modSet_keep (h : Hub) (k : Nat) (f : PrkSet → PrkSet) : (modSet h k f).keep = h.keep := rfl
@[simp] theorem modSet_kep (h : Hub) (k : Nat) (f : PrkSet → PrkSet) : (modSet h k f).kep = h.kep := rfl
@[simp] theorem modSet_scb (h : Hub) (k : Nat) (f : PrkSet → PrkSet) : (modSet h k f).scb = h.scb := rfl
@[simp] theorem modSet_mov (h : Hub) (k : Nat) (f : PrkSet → PrkSet) : (modSet h k f).mov = h.mov := rfl
@[simp] theorem modSet_xlt (h : Hub) (k : Nat) (f : PrkSet → PrkSet) : (modSet h k f).xlt = h.xlt := rfl
@[simp] theorem modSet_fuses (h : Hub) (k : Nat) (f : PrkSet → PrkSet) : (modSet h k f).fuses = h.fuses := rfl
@[simp] theorem modSet_trust (h : Hub) (k : Nat) (f : PrkSet → PrkSet) : (modSet h k f).trust = h.trust := rfl
@[simp] theorem modSet_mgmt (h : Hub) (k : Nat) (f : PrkSet → PrkSet) : (modSet h k f).mgmt = h.mgmt := rfl
@[simp] theorem modSet_tap (h : Hub) (k : Nat) (f : PrkSet → PrkSet) : (modSet h k f).tap = h.tap := rfl
@[simp] theorem modSet_sramWipe (h : Hub) (k : Nat) (f : PrkSet → PrkSet) : (modSet h k f).sramWipe = h.sramWipe := rfl
@[simp] theorem modSet_sram (h : Hub) (k : Nat) (f : PrkSet → PrkSet) : (modSet h k f).sram = h.sram := rfl
@[simp] theorem fld_modSet (h : Hub) (k : Nat) (f : PrkSet → PrkSet) (pg' : Nat) (f' : FieldDef) : fld (modSet h k f) pg' f' = fld h pg' f' := rfl

/-! `modQueue` changes `mov` alone. -/

@[simp] theorem modQueue_regs (h : Hub) (q : Nat) (f : Queue → Queue) : (modQueue h q f).regs = h.regs := rfl
@[simp] theorem modQueue_out (h : Hub) (q : Nat) (f : Queue → Queue) : (modQueue h q f).out = h.out := rfl
@[simp] theorem modQueue_htime (h : Hub) (q : Nat) (f : Queue → Queue) : (modQueue h q f).htime = h.htime := rfl
@[simp] theorem modQueue_free (h : Hub) (q : Nat) (f : Queue → Queue) : (modQueue h q f).free = h.free := rfl
@[simp] theorem modQueue_port (h : Hub) (q : Nat) (f : Queue → Queue) : (modQueue h q f).port = h.port := rfl
@[simp] theorem modQueue_pins (h : Hub) (q : Nat) (f : Queue → Queue) : (modQueue h q f).pins = h.pins := rfl
@[simp] theorem modQueue_boot (h : Hub) (q : Nat) (f : Queue → Queue) : (modQueue h q f).boot = h.boot := rfl
@[simp] theorem modQueue_mode (h : Hub) (q : Nat) (f : Queue → Queue) : (modQueue h q f).mode = h.mode := rfl
@[simp] theorem modQueue_bays (h : Hub) (q : Nat) (f : Queue → Queue) : (modQueue h q f).bays = h.bays := rfl
@[simp] theorem modQueue_perf (h : Hub) (q : Nat) (f : Queue → Queue) : (modQueue h q f).perf = h.perf := rfl
@[simp] theorem modQueue_pic (h : Hub) (q : Nat) (f : Queue → Queue) : (modQueue h q f).pic = h.pic := rfl
@[simp] theorem modQueue_tulle (h : Hub) (q : Nat) (f : Queue → Queue) : (modQueue h q f).tulle = h.tulle := rfl
@[simp] theorem modQueue_alerts (h : Hub) (q : Nat) (f : Queue → Queue) : (modQueue h q f).alerts = h.alerts := rfl
@[simp] theorem modQueue_bayOut (h : Hub) (q : Nat) (f : Queue → Queue) : (modQueue h q f).bayOut = h.bayOut := rfl
@[simp] theorem modQueue_coh (h : Hub) (q : Nat) (f : Queue → Queue) : (modQueue h q f).coh = h.coh := rfl
@[simp] theorem modQueue_prk (h : Hub) (q : Nat) (f : Queue → Queue) : (modQueue h q f).prk = h.prk := rfl
@[simp] theorem modQueue_media (h : Hub) (q : Nat) (f : Queue → Queue) : (modQueue h q f).media = h.media := rfl
@[simp] theorem modQueue_owners (h : Hub) (q : Nat) (f : Queue → Queue) : (modQueue h q f).owners = h.owners := rfl
@[simp] theorem modQueue_dead (h : Hub) (q : Nat) (f : Queue → Queue) : (modQueue h q f).dead = h.dead := rfl
@[simp] theorem modQueue_psn (h : Hub) (q : Nat) (f : Queue → Queue) : (modQueue h q f).psn = h.psn := rfl
@[simp] theorem modQueue_meter (h : Hub) (q : Nat) (f : Queue → Queue) : (modQueue h q f).meter = h.meter := rfl
@[simp] theorem modQueue_keep (h : Hub) (q : Nat) (f : Queue → Queue) : (modQueue h q f).keep = h.keep := rfl
@[simp] theorem modQueue_kep (h : Hub) (q : Nat) (f : Queue → Queue) : (modQueue h q f).kep = h.kep := rfl
@[simp] theorem modQueue_scb (h : Hub) (q : Nat) (f : Queue → Queue) : (modQueue h q f).scb = h.scb := rfl
@[simp] theorem modQueue_xlt (h : Hub) (q : Nat) (f : Queue → Queue) : (modQueue h q f).xlt = h.xlt := rfl
@[simp] theorem modQueue_fuses (h : Hub) (q : Nat) (f : Queue → Queue) : (modQueue h q f).fuses = h.fuses := rfl
@[simp] theorem modQueue_trust (h : Hub) (q : Nat) (f : Queue → Queue) : (modQueue h q f).trust = h.trust := rfl
@[simp] theorem modQueue_mgmt (h : Hub) (q : Nat) (f : Queue → Queue) : (modQueue h q f).mgmt = h.mgmt := rfl
@[simp] theorem modQueue_tap (h : Hub) (q : Nat) (f : Queue → Queue) : (modQueue h q f).tap = h.tap := rfl
@[simp] theorem modQueue_sramWipe (h : Hub) (q : Nat) (f : Queue → Queue) : (modQueue h q f).sramWipe = h.sramWipe := rfl
@[simp] theorem modQueue_sram (h : Hub) (q : Nat) (f : Queue → Queue) : (modQueue h q f).sram = h.sram := rfl
@[simp] theorem fld_modQueue (h : Hub) (q : Nat) (f : Queue → Queue) (pg' : Nat) (f' : FieldDef) : fld (modQueue h q f) pg' f' = fld h pg' f' := rfl

/-! `putOp` changes `mov` alone. -/

@[simp] theorem putOp_regs (h : Hub) (t : Nat) (o : Op) : (putOp h t o).regs = h.regs := rfl
@[simp] theorem putOp_out (h : Hub) (t : Nat) (o : Op) : (putOp h t o).out = h.out := rfl
@[simp] theorem putOp_htime (h : Hub) (t : Nat) (o : Op) : (putOp h t o).htime = h.htime := rfl
@[simp] theorem putOp_free (h : Hub) (t : Nat) (o : Op) : (putOp h t o).free = h.free := rfl
@[simp] theorem putOp_port (h : Hub) (t : Nat) (o : Op) : (putOp h t o).port = h.port := rfl
@[simp] theorem putOp_pins (h : Hub) (t : Nat) (o : Op) : (putOp h t o).pins = h.pins := rfl
@[simp] theorem putOp_boot (h : Hub) (t : Nat) (o : Op) : (putOp h t o).boot = h.boot := rfl
@[simp] theorem putOp_mode (h : Hub) (t : Nat) (o : Op) : (putOp h t o).mode = h.mode := rfl
@[simp] theorem putOp_bays (h : Hub) (t : Nat) (o : Op) : (putOp h t o).bays = h.bays := rfl
@[simp] theorem putOp_perf (h : Hub) (t : Nat) (o : Op) : (putOp h t o).perf = h.perf := rfl
@[simp] theorem putOp_pic (h : Hub) (t : Nat) (o : Op) : (putOp h t o).pic = h.pic := rfl
@[simp] theorem putOp_tulle (h : Hub) (t : Nat) (o : Op) : (putOp h t o).tulle = h.tulle := rfl
@[simp] theorem putOp_alerts (h : Hub) (t : Nat) (o : Op) : (putOp h t o).alerts = h.alerts := rfl
@[simp] theorem putOp_bayOut (h : Hub) (t : Nat) (o : Op) : (putOp h t o).bayOut = h.bayOut := rfl
@[simp] theorem putOp_coh (h : Hub) (t : Nat) (o : Op) : (putOp h t o).coh = h.coh := rfl
@[simp] theorem putOp_prk (h : Hub) (t : Nat) (o : Op) : (putOp h t o).prk = h.prk := rfl
@[simp] theorem putOp_media (h : Hub) (t : Nat) (o : Op) : (putOp h t o).media = h.media := rfl
@[simp] theorem putOp_owners (h : Hub) (t : Nat) (o : Op) : (putOp h t o).owners = h.owners := rfl
@[simp] theorem putOp_dead (h : Hub) (t : Nat) (o : Op) : (putOp h t o).dead = h.dead := rfl
@[simp] theorem putOp_psn (h : Hub) (t : Nat) (o : Op) : (putOp h t o).psn = h.psn := rfl
@[simp] theorem putOp_meter (h : Hub) (t : Nat) (o : Op) : (putOp h t o).meter = h.meter := rfl
@[simp] theorem putOp_keep (h : Hub) (t : Nat) (o : Op) : (putOp h t o).keep = h.keep := rfl
@[simp] theorem putOp_kep (h : Hub) (t : Nat) (o : Op) : (putOp h t o).kep = h.kep := rfl
@[simp] theorem putOp_scb (h : Hub) (t : Nat) (o : Op) : (putOp h t o).scb = h.scb := rfl
@[simp] theorem putOp_xlt (h : Hub) (t : Nat) (o : Op) : (putOp h t o).xlt = h.xlt := rfl
@[simp] theorem putOp_fuses (h : Hub) (t : Nat) (o : Op) : (putOp h t o).fuses = h.fuses := rfl
@[simp] theorem putOp_trust (h : Hub) (t : Nat) (o : Op) : (putOp h t o).trust = h.trust := rfl
@[simp] theorem putOp_mgmt (h : Hub) (t : Nat) (o : Op) : (putOp h t o).mgmt = h.mgmt := rfl
@[simp] theorem putOp_tap (h : Hub) (t : Nat) (o : Op) : (putOp h t o).tap = h.tap := rfl
@[simp] theorem putOp_sramWipe (h : Hub) (t : Nat) (o : Op) : (putOp h t o).sramWipe = h.sramWipe := rfl
@[simp] theorem putOp_sram (h : Hub) (t : Nat) (o : Op) : (putOp h t o).sram = h.sram := rfl
@[simp] theorem fld_putOp (h : Hub) (t : Nat) (o : Op) (pg' : Nat) (f' : FieldDef) : fld (putOp h t o) pg' f' = fld h pg' f' := rfl

/-! `putSlot` changes `xlt` alone. -/

@[simp] theorem putSlot_regs (h : Hub) (i : Nat) (x : Xlat) : (putSlot h i x).regs = h.regs := rfl
@[simp] theorem putSlot_out (h : Hub) (i : Nat) (x : Xlat) : (putSlot h i x).out = h.out := rfl
@[simp] theorem putSlot_htime (h : Hub) (i : Nat) (x : Xlat) : (putSlot h i x).htime = h.htime := rfl
@[simp] theorem putSlot_free (h : Hub) (i : Nat) (x : Xlat) : (putSlot h i x).free = h.free := rfl
@[simp] theorem putSlot_port (h : Hub) (i : Nat) (x : Xlat) : (putSlot h i x).port = h.port := rfl
@[simp] theorem putSlot_pins (h : Hub) (i : Nat) (x : Xlat) : (putSlot h i x).pins = h.pins := rfl
@[simp] theorem putSlot_boot (h : Hub) (i : Nat) (x : Xlat) : (putSlot h i x).boot = h.boot := rfl
@[simp] theorem putSlot_mode (h : Hub) (i : Nat) (x : Xlat) : (putSlot h i x).mode = h.mode := rfl
@[simp] theorem putSlot_bays (h : Hub) (i : Nat) (x : Xlat) : (putSlot h i x).bays = h.bays := rfl
@[simp] theorem putSlot_perf (h : Hub) (i : Nat) (x : Xlat) : (putSlot h i x).perf = h.perf := rfl
@[simp] theorem putSlot_pic (h : Hub) (i : Nat) (x : Xlat) : (putSlot h i x).pic = h.pic := rfl
@[simp] theorem putSlot_tulle (h : Hub) (i : Nat) (x : Xlat) : (putSlot h i x).tulle = h.tulle := rfl
@[simp] theorem putSlot_alerts (h : Hub) (i : Nat) (x : Xlat) : (putSlot h i x).alerts = h.alerts := rfl
@[simp] theorem putSlot_bayOut (h : Hub) (i : Nat) (x : Xlat) : (putSlot h i x).bayOut = h.bayOut := rfl
@[simp] theorem putSlot_coh (h : Hub) (i : Nat) (x : Xlat) : (putSlot h i x).coh = h.coh := rfl
@[simp] theorem putSlot_prk (h : Hub) (i : Nat) (x : Xlat) : (putSlot h i x).prk = h.prk := rfl
@[simp] theorem putSlot_media (h : Hub) (i : Nat) (x : Xlat) : (putSlot h i x).media = h.media := rfl
@[simp] theorem putSlot_owners (h : Hub) (i : Nat) (x : Xlat) : (putSlot h i x).owners = h.owners := rfl
@[simp] theorem putSlot_dead (h : Hub) (i : Nat) (x : Xlat) : (putSlot h i x).dead = h.dead := rfl
@[simp] theorem putSlot_psn (h : Hub) (i : Nat) (x : Xlat) : (putSlot h i x).psn = h.psn := rfl
@[simp] theorem putSlot_meter (h : Hub) (i : Nat) (x : Xlat) : (putSlot h i x).meter = h.meter := rfl
@[simp] theorem putSlot_keep (h : Hub) (i : Nat) (x : Xlat) : (putSlot h i x).keep = h.keep := rfl
@[simp] theorem putSlot_kep (h : Hub) (i : Nat) (x : Xlat) : (putSlot h i x).kep = h.kep := rfl
@[simp] theorem putSlot_scb (h : Hub) (i : Nat) (x : Xlat) : (putSlot h i x).scb = h.scb := rfl
@[simp] theorem putSlot_mov (h : Hub) (i : Nat) (x : Xlat) : (putSlot h i x).mov = h.mov := rfl
@[simp] theorem putSlot_fuses (h : Hub) (i : Nat) (x : Xlat) : (putSlot h i x).fuses = h.fuses := rfl
@[simp] theorem putSlot_trust (h : Hub) (i : Nat) (x : Xlat) : (putSlot h i x).trust = h.trust := rfl
@[simp] theorem putSlot_mgmt (h : Hub) (i : Nat) (x : Xlat) : (putSlot h i x).mgmt = h.mgmt := rfl
@[simp] theorem putSlot_tap (h : Hub) (i : Nat) (x : Xlat) : (putSlot h i x).tap = h.tap := rfl
@[simp] theorem putSlot_sramWipe (h : Hub) (i : Nat) (x : Xlat) : (putSlot h i x).sramWipe = h.sramWipe := rfl
@[simp] theorem putSlot_sram (h : Hub) (i : Nat) (x : Xlat) : (putSlot h i x).sram = h.sram := rfl
@[simp] theorem fld_putSlot (h : Hub) (i : Nat) (x : Xlat) (pg' : Nat) (f' : FieldDef) : fld (putSlot h i x) pg' f' = fld h pg' f' := rfl

/-! `modMode` changes `mode` alone. -/

@[simp] theorem modMode_regs (h : Hub) (f : ModeSt → ModeSt) : (modMode h f).regs = h.regs := rfl
@[simp] theorem modMode_out (h : Hub) (f : ModeSt → ModeSt) : (modMode h f).out = h.out := rfl
@[simp] theorem modMode_htime (h : Hub) (f : ModeSt → ModeSt) : (modMode h f).htime = h.htime := rfl
@[simp] theorem modMode_free (h : Hub) (f : ModeSt → ModeSt) : (modMode h f).free = h.free := rfl
@[simp] theorem modMode_port (h : Hub) (f : ModeSt → ModeSt) : (modMode h f).port = h.port := rfl
@[simp] theorem modMode_pins (h : Hub) (f : ModeSt → ModeSt) : (modMode h f).pins = h.pins := rfl
@[simp] theorem modMode_boot (h : Hub) (f : ModeSt → ModeSt) : (modMode h f).boot = h.boot := rfl
@[simp] theorem modMode_bays (h : Hub) (f : ModeSt → ModeSt) : (modMode h f).bays = h.bays := rfl
@[simp] theorem modMode_perf (h : Hub) (f : ModeSt → ModeSt) : (modMode h f).perf = h.perf := rfl
@[simp] theorem modMode_pic (h : Hub) (f : ModeSt → ModeSt) : (modMode h f).pic = h.pic := rfl
@[simp] theorem modMode_tulle (h : Hub) (f : ModeSt → ModeSt) : (modMode h f).tulle = h.tulle := rfl
@[simp] theorem modMode_alerts (h : Hub) (f : ModeSt → ModeSt) : (modMode h f).alerts = h.alerts := rfl
@[simp] theorem modMode_bayOut (h : Hub) (f : ModeSt → ModeSt) : (modMode h f).bayOut = h.bayOut := rfl
@[simp] theorem modMode_coh (h : Hub) (f : ModeSt → ModeSt) : (modMode h f).coh = h.coh := rfl
@[simp] theorem modMode_prk (h : Hub) (f : ModeSt → ModeSt) : (modMode h f).prk = h.prk := rfl
@[simp] theorem modMode_media (h : Hub) (f : ModeSt → ModeSt) : (modMode h f).media = h.media := rfl
@[simp] theorem modMode_owners (h : Hub) (f : ModeSt → ModeSt) : (modMode h f).owners = h.owners := rfl
@[simp] theorem modMode_dead (h : Hub) (f : ModeSt → ModeSt) : (modMode h f).dead = h.dead := rfl
@[simp] theorem modMode_psn (h : Hub) (f : ModeSt → ModeSt) : (modMode h f).psn = h.psn := rfl
@[simp] theorem modMode_meter (h : Hub) (f : ModeSt → ModeSt) : (modMode h f).meter = h.meter := rfl
@[simp] theorem modMode_keep (h : Hub) (f : ModeSt → ModeSt) : (modMode h f).keep = h.keep := rfl
@[simp] theorem modMode_kep (h : Hub) (f : ModeSt → ModeSt) : (modMode h f).kep = h.kep := rfl
@[simp] theorem modMode_scb (h : Hub) (f : ModeSt → ModeSt) : (modMode h f).scb = h.scb := rfl
@[simp] theorem modMode_mov (h : Hub) (f : ModeSt → ModeSt) : (modMode h f).mov = h.mov := rfl
@[simp] theorem modMode_xlt (h : Hub) (f : ModeSt → ModeSt) : (modMode h f).xlt = h.xlt := rfl
@[simp] theorem modMode_fuses (h : Hub) (f : ModeSt → ModeSt) : (modMode h f).fuses = h.fuses := rfl
@[simp] theorem modMode_trust (h : Hub) (f : ModeSt → ModeSt) : (modMode h f).trust = h.trust := rfl
@[simp] theorem modMode_mgmt (h : Hub) (f : ModeSt → ModeSt) : (modMode h f).mgmt = h.mgmt := rfl
@[simp] theorem modMode_tap (h : Hub) (f : ModeSt → ModeSt) : (modMode h f).tap = h.tap := rfl
@[simp] theorem modMode_sramWipe (h : Hub) (f : ModeSt → ModeSt) : (modMode h f).sramWipe = h.sramWipe := rfl
@[simp] theorem modMode_sram (h : Hub) (f : ModeSt → ModeSt) : (modMode h f).sram = h.sram := rfl
@[simp] theorem fld_modMode (h : Hub) (f : ModeSt → ModeSt) (pg' : Nat) (f' : FieldDef) : fld (modMode h f) pg' f' = fld h pg' f' := rfl

/-! `modChan` changes `pic` alone. -/

@[simp] theorem modChan_regs (h : Hub) (c : Nat) (f : ChanRt → ChanRt) : (modChan h c f).regs = h.regs := rfl
@[simp] theorem modChan_out (h : Hub) (c : Nat) (f : ChanRt → ChanRt) : (modChan h c f).out = h.out := rfl
@[simp] theorem modChan_htime (h : Hub) (c : Nat) (f : ChanRt → ChanRt) : (modChan h c f).htime = h.htime := rfl
@[simp] theorem modChan_free (h : Hub) (c : Nat) (f : ChanRt → ChanRt) : (modChan h c f).free = h.free := rfl
@[simp] theorem modChan_port (h : Hub) (c : Nat) (f : ChanRt → ChanRt) : (modChan h c f).port = h.port := rfl
@[simp] theorem modChan_pins (h : Hub) (c : Nat) (f : ChanRt → ChanRt) : (modChan h c f).pins = h.pins := rfl
@[simp] theorem modChan_boot (h : Hub) (c : Nat) (f : ChanRt → ChanRt) : (modChan h c f).boot = h.boot := rfl
@[simp] theorem modChan_mode (h : Hub) (c : Nat) (f : ChanRt → ChanRt) : (modChan h c f).mode = h.mode := rfl
@[simp] theorem modChan_bays (h : Hub) (c : Nat) (f : ChanRt → ChanRt) : (modChan h c f).bays = h.bays := rfl
@[simp] theorem modChan_perf (h : Hub) (c : Nat) (f : ChanRt → ChanRt) : (modChan h c f).perf = h.perf := rfl
@[simp] theorem modChan_tulle (h : Hub) (c : Nat) (f : ChanRt → ChanRt) : (modChan h c f).tulle = h.tulle := rfl
@[simp] theorem modChan_alerts (h : Hub) (c : Nat) (f : ChanRt → ChanRt) : (modChan h c f).alerts = h.alerts := rfl
@[simp] theorem modChan_bayOut (h : Hub) (c : Nat) (f : ChanRt → ChanRt) : (modChan h c f).bayOut = h.bayOut := rfl
@[simp] theorem modChan_coh (h : Hub) (c : Nat) (f : ChanRt → ChanRt) : (modChan h c f).coh = h.coh := rfl
@[simp] theorem modChan_prk (h : Hub) (c : Nat) (f : ChanRt → ChanRt) : (modChan h c f).prk = h.prk := rfl
@[simp] theorem modChan_media (h : Hub) (c : Nat) (f : ChanRt → ChanRt) : (modChan h c f).media = h.media := rfl
@[simp] theorem modChan_owners (h : Hub) (c : Nat) (f : ChanRt → ChanRt) : (modChan h c f).owners = h.owners := rfl
@[simp] theorem modChan_dead (h : Hub) (c : Nat) (f : ChanRt → ChanRt) : (modChan h c f).dead = h.dead := rfl
@[simp] theorem modChan_psn (h : Hub) (c : Nat) (f : ChanRt → ChanRt) : (modChan h c f).psn = h.psn := rfl
@[simp] theorem modChan_meter (h : Hub) (c : Nat) (f : ChanRt → ChanRt) : (modChan h c f).meter = h.meter := rfl
@[simp] theorem modChan_keep (h : Hub) (c : Nat) (f : ChanRt → ChanRt) : (modChan h c f).keep = h.keep := rfl
@[simp] theorem modChan_kep (h : Hub) (c : Nat) (f : ChanRt → ChanRt) : (modChan h c f).kep = h.kep := rfl
@[simp] theorem modChan_scb (h : Hub) (c : Nat) (f : ChanRt → ChanRt) : (modChan h c f).scb = h.scb := rfl
@[simp] theorem modChan_mov (h : Hub) (c : Nat) (f : ChanRt → ChanRt) : (modChan h c f).mov = h.mov := rfl
@[simp] theorem modChan_xlt (h : Hub) (c : Nat) (f : ChanRt → ChanRt) : (modChan h c f).xlt = h.xlt := rfl
@[simp] theorem modChan_fuses (h : Hub) (c : Nat) (f : ChanRt → ChanRt) : (modChan h c f).fuses = h.fuses := rfl
@[simp] theorem modChan_trust (h : Hub) (c : Nat) (f : ChanRt → ChanRt) : (modChan h c f).trust = h.trust := rfl
@[simp] theorem modChan_mgmt (h : Hub) (c : Nat) (f : ChanRt → ChanRt) : (modChan h c f).mgmt = h.mgmt := rfl
@[simp] theorem modChan_tap (h : Hub) (c : Nat) (f : ChanRt → ChanRt) : (modChan h c f).tap = h.tap := rfl
@[simp] theorem modChan_sramWipe (h : Hub) (c : Nat) (f : ChanRt → ChanRt) : (modChan h c f).sramWipe = h.sramWipe := rfl
@[simp] theorem modChan_sram (h : Hub) (c : Nat) (f : ChanRt → ChanRt) : (modChan h c f).sram = h.sram := rfl
@[simp] theorem fld_modChan (h : Hub) (c : Nat) (f : ChanRt → ChanRt) (pg' : Nat) (f' : FieldDef) : fld (modChan h c f) pg' f' = fld h pg' f' := rfl

/-! An act on the hub leaves the queue, and no write to management SRAM waiting. -/

@[simp] theorem onHub_pending (s : State) (f : Hub → Hub) : (s.onHub f).pending = s.pending := rfl
@[simp] theorem onHub_sram (s : State) (f : Hub → Hub) : (s.onHub f).hub.sram = [] := rfl
@[simp] theorem onHub_sramWipe (s : State) (f : Hub → Hub) : (s.onHub f).hub.sramWipe = false := rfl
@[simp] theorem onTulle_pending (s : State) (f : Hub → Hub) : (s.onTulle f).pending = s.pending := rfl
@[simp] theorem onPicot_pending (s : State) (f : Hub → Hub) : (s.onPicot f).pending = s.pending := rfl

end Sys2Proof.Machine
end

