-- ==== Sys2Proof/Laws/Step.lean ====
section
/-! SUPPORT. What a command can do: it acts on the hub once, and on nothing else. -/

namespace Sys2Proof.Machine

/-- The state follows from another by one act on the hub. -/
def ActsOn (s t : State) : Prop := ∃ f, t = s.act f

/-- An act on the hub. -/
theorem acts_hub (s : State) (f : Hub → Hub) : ActsOn s (s.onHub f) := ⟨_, rfl⟩

/-- An act that no mode stops. -/
theorem acts_any (s : State) (f : Hub → Hub) : ActsOn s (s.act f) := ⟨f, rfl⟩

/-- An act of the supply monitors. -/
theorem acts_supply (s : State) (f : Hub → Hub) : ActsOn s (s.onSupply f) := ⟨_, rfl⟩

/-- A change of a pin. -/
theorem acts_pins (s : State) (f : Hub → Hub) : ActsOn s (s.onPins f) := ⟨_, rfl⟩

/-- An act after which Tulle settles. -/
theorem acts_tulle (s : State) (f : Hub → Hub) : ActsOn s (s.onTulle f) := acts_hub s _

/-- An act on the slices. -/
theorem acts_coh (s : State) (f : Hub → Hub) : ActsOn s (s.onCoh f) := acts_hub s _

/-- An act of Tulle's management. -/
theorem acts_fabric (s : State) (f : Hub → Hub) : ActsOn s (s.onFabric f) := acts_tulle s _

/-- An act after which raised event sources act. -/
theorem acts_picot (s : State) (f : Hub → Hub) : ActsOn s (s.onPicot f) := acts_tulle s _

/-- Every command completes, and acts on the hub alone. -/
theorem exec_acts (c : Instr) (s : State) : ∃ t, exec c s = .next t ∧ ActsOn s t := by
  cases c
  all_goals
    refine ⟨_, rfl, ?_⟩
    first
    | with_reducible exact acts_hub _ _
    | with_reducible exact acts_tulle _ _
    | with_reducible exact acts_coh _ _
    | with_reducible exact acts_fabric _ _
    | with_reducible exact acts_picot _ _
    | with_reducible exact acts_supply _ _
    | with_reducible exact acts_pins _ _
    | with_reducible exact acts_any _ _

/-- An act on the hub leaves the queue of commands. -/
theorem ActsOn.pending {s t : State} (h : ActsOn s t) : t.pending = s.pending := by obtain ⟨f, rfl⟩ := h; rfl

/-- An act on the hub keeps management SRAM safe and leaves no write to it waiting. -/
theorem ActsOn.safe {s t : State} (h : ActsOn s t) (k : Memory.wf s.ram = true ∧ ∀ e ∈ s.ram, e.1 < sramSize) :
    Memory.wf t.ram = true ∧ (∀ e ∈ t.ram, e.1 < sramSize) ∧ t.hub.sram = [] ∧ t.hub.sramWipe = false := by
  obtain ⟨f, rfl⟩ := h; obtain ⟨a, b, c, d, _⟩ := act_safe s f k; exact ⟨a, b, c, d⟩

end Sys2Proof.Machine
end

