-- ==== Sys2Proof/WellFormed.lean ====
section
/-! DEFINITION. Which operands a command may carry: every field within the width its table gives it, every access within its
window, every index within its array. -/

namespace Sys2Proof

/-- The value fits in w bits. -/
def fits (w v : Nat) : Bool := decide (v < 2 ^ w)

/-- A line address: TPA[45:6] (R156). -/
def lineOk (l : LineAddr) : Bool := fits 40 l

/-- An agent ID: node x 64 + bay code (R148). -/
def agentOk (a : AgentId) : Bool := fits 13 a

/-- A header (Table COH-4). -/
def hdrOk (h : Hdr) : Bool :=
  fits 8 h.opc && agentOk h.src && fits 7 h.dstn && fits 12 h.tag && lineOk h.addr && fits 16 h.seq && fits 5 h.hops &&
    fits 3 h.prio && fits 23 h.attr

/-- A page of REGWIN or PERFWIN (R86). -/
def pageOk (p : Nat) : Bool := decide (p < 512)

/-- An offset of a 32-bit register. -/
def offOk (off : Nat) : Bool := decide (off < 4096) && off % 4 == 0

/-- The window and page of an access (R86), and the origins that reach it (Table PAG-3): class H through BAR0, class U through
BAR2 and BAR4. Pages 512 to 1023 are the upper half of BAR0, with the MSI-X table and the PBA (R85). -/
def winOk (a : Access) : Bool :=
  match a.win, a.origin with
  | .regwin, .hostU _ => false
  | .regwin, .hostH _ => fits 10 a.page
  | .regwin, _ => pageOk a.page
  | .dbwin, .hostH _ => false
  | .dbwin, _ => fits 14 a.page
  | .perfwin, .hostH _ => false
  | .perfwin, _ => pageOk a.page

/-- An access: it enables a byte, and a PCIe request has at most 4,096. -/
def accOk (a : Access) : Bool := winOk a && decide (a.off < 4096) && decide (1 ≤ a.nbytes) && decide (a.nbytes ≤ 4096) &&
  a.gaps.all (fun g => decide (0 < g) && decide (g + 1 < a.nbytes))

/-- A home map entry (Table TUL-3). -/
def entryOk (e : HEntry) : Bool := fits 7 e.home && fits 2 e.atomic && fits 13 e.loc

/-- A Poison Ledger entry (Table DED-4). -/
def psnOk (e : PsnEntry) : Bool := lineOk e.line && fits 2 e.kind && fits 4 e.cause && agentOk e.agent && fits 64 e.epoch

/-- A doorbell unit (Table MOV-3). -/
def unitOk (u : DbUnit) : Bool :=
  fits 32 u.sqTail && fits 32 u.cqHead && fits 64 u.sqBase && fits 64 u.cqBase && fits 8 u.sqLog2 && fits 8 u.cqLog2 &&
    fits 16 u.vector && fits 32 u.first4

/-- A PROPOSE (Table TUL-9). -/
def proposeOk (m : ProposeMsg) : Bool := fits 64 m.epoch && m.members.all (fits 7) && fits 384 m.digest && decide (m.count ≤ 1024)

/-- A HELLO (Table TUL-9). -/
def helloOk (m : HelloMsg) : Bool :=
  fits 4 m.levelLo && fits 4 m.levelHi && fits 64 m.serial && fits 64 m.fabricId && fits 384 m.digest && fits 64 m.epoch && fits 32 m.profSer && fits 32 m.zhSvn

/-- A HEARTBEAT (Table TUL-9). -/
def heartOk (m : HeartMsg) : Bool := fits 32 m.seq && fits 64 m.epoch && fits 128 m.present

/-- The links of an LSA (Table TUL-9). -/
def linksOk (ls : List LsaLink) : Bool := ls.all (fun l => fits 7 l.peer && decide (l.bay < 48) && fits 16 l.cost)

/-- What an HO_COPY carries (Table TUL-9). -/
def copyOk : CopyItem → Bool
  | .data l _ _ => lineOk l
  | .dir _ _ => true
  | .ledger es => es.all psnOk
  | .mark => true

/-- A coherent request: its header, or the line it is served for. -/
def reqOk : ReqStep → Bool
  | .arrive _ h => hdrOk h
  | .serve l => lineOk l

/-- Bytes. -/
def bytesOk (bs : List Nat) : Bool := bs.all (fits 8)

/-- The bytes of host memory that a mover op reads. -/
def opOk (t : OpStep) : Bool := fits 10 t.tok && bytesOk t.host

/-- An image header (Table TRU-3). -/
def imageOk (i : Image) : Bool :=
  fits 8 i.typ && fits 32 i.svn && fits 32 i.length && fits 32 i.loadLen && fits 384 i.digest && fits 384 i.keyHash

/-- An owner policy (Table TRU-6). -/
def policyOk (p : Policy) : Bool :=
  fits 384 p.rootHash && fits 32 p.serial && p.roles.all (fits 2) && p.qbonds.all (fun q => decide (q ≤ 4)) &&
    decide (2 ≤ p.bootLimit) && decide (p.bootLimit ≤ 7) && decide (100 ≤ p.wdogMs) && decide (p.wdogMs ≤ 60000) &&
    fits 384 p.digest

/-- A fabric profile (Table TUL-1). -/
def profileWf (p : Profile) : Bool := fits 64 p.fabricId && fits 32 p.serial && fits 384 p.key

/-- A nonce and the hash of a key. -/
def sigOk (g : OwnerSig) : Bool := fits 256 g.nonce && fits 384 g.key

/-- A management command (R412). -/
def qcmdOk : QCmd → Bool
  | .ldgRead l _ => fits 64 l
  | .ldgAck g l => sigOk g && fits 64 l
  | .benchRelease g => sigOk g
  | .ownerClaim k => fits 384 k
  | .ownerRevoke g _ => sigOk g
  | .imageUpdate _ i => imageOk i
  | .other c => fits 8 c
  | .ldgInfo => true
  | .ldgCerts => true
  | .ldgNonce => true
  | .benchStatus => true

/-- The result of a Translation Request (R312). -/
def atsOk : AtsResult → Bool
  | .ok pa log2 _ _ _ => fits 64 pa && decide (12 ≤ log2) && fits 6 log2
  | .urOrCa => true

/-- A lane number within a group, and the widths of Table BAY-3. -/
def laneInOk : LaneIn → Bool
  | .locked num _ (.vendor id word) => decide (num < 16) && fits 16 id && fits 24 word
  | .locked num _ .pcie => decide (num < 16)
  | .locked num _ .cxl => decide (num < 16)
  | .absent => true
  | .badLevel => true
  | .noLock => true

/-- A training attempt meets at most the 16 lanes of a bonded group. -/
def trainOk (t : TrainIn) : Bool := decide (t.lanes.length ≤ 16) && t.lanes.all laneInOk

/-- What a host writes in config space: an HDM decoder has the ways and granularities of Table BAY-2. -/
def cfgOk : CfgField → Bool
  | .hdmDecoder _ hpa lines tpa ways gran pos =>
    fits 46 hpa && fits 40 lines && lineOk tpa && ([1, 2, 4, 8, 16] : List Nat).contains ways &&
      ([4, 8, 16, 32, 64, 128, 256] : List Nat).contains gran && decide (pos < ways) && lines % (ways * gran) == 0
  | .ideKey slot key => fits 16 slot && fits 256 key
  | .read _ => true
  | .priAllocation n => fits 32 n
  | .memSpaceEnable _ => true
  | .msixEnable _ => true
  | .functionMask _ => true
  | .atsEnable _ => true
  | .pasidEnable _ => true
  | .priEnable _ => true
  | .biEnable _ => true

/-- A well-formed command. -/
def Instr.wf : Instr → Bool
  | .sequencerStart => true
  | .fuseSensingDone _ => true
  | .pllLock _ => true
  | .hclkSwitch => true
  | .romStart => true
  | .zhozhaStart _ => true
  | .coreDomainRelease => true
  | .mgmtCoreRelease => true
  | .formatDone => true
  | .prkFormat _ => true
  | .prkFlush _ => true
  | .flushDone => true
  | .hubResetAssert => true
  | .hubResetDeassert => true
  | .railBelowWarning _ => true
  | .railAboveWarning _ => true
  | .railBelowReset _ => true
  | .refclkLoss => true
  | .clockLossReset => true
  | .refclkReturn => true
  | .thermtrip => true
  | .thermtripRelease => true
  | .thermalWarning _ => true
  | .pfailAssert _ => true
  | .pfailDeassert _ => true
  | .pfailExclusion _ => true
  | .pfailBootExclusion _ => true
  | .pfailReinclude _ _ => true
  | .braceExit => true
  | .benchRequest _ => true
  | .qrstAssert _ => true
  | .qrstDeassert _ => true
  | .hostHotReset _ => true
  | .hostLinkDisable _ => true
  | .hostLinkRelease _ => true
  | .functionLevelReset _ => true
  | .hostConfigWrite _ f => cfgOk f
  | .trainingRetry _ => true
  | .trainingAttemptEnd _ t => trainOk t
  | .pollingTimeout _ => true
  | .equalisationFail _ => true
  | .linkUp _ => true
  | .linkDown _ => true
  | .flapHoldExpiry _ => true
  | .flapHoldReset _ => true
  | .rolecfgWrite _ _ _ => true
  | .linkcfgWrite _ _ _ => true
  | .i3cStuckTimeout _ _ _ => true
  | .i3cRecoveryRetry _ => true
  | .mctpMessage _ typ _ => fits 8 typ
  | .mctpControl _ code => fits 8 code
  | .ksTransferFail _ cause => fits 8 cause
  | .tapBypass => true
  | .tapIdcode => true
  | .tapSamplePreload _ => true
  | .tapExtest => true
  | .tapClamp => true
  | .tapHighz => true
  | .tapExtestPulse => true
  | .tapExtestTrain => true
  | .registerWrite a v => accOk a && decide (v < 2 ^ (8 * a.nbytes))
  | .rcRead a => accOk a
  | .lowHalfRead a => accOk a
  | .highHalfRead a => accOk a
  | .latchExpiry _ => true
  | .lowHalfWrite _ page off _ => pageOk page && offOk off
  | .highHalfWrite _ page off _ => pageOk page && offOk off
  | .stageExpired _ => true
  | .iforceWrite _ page _ => pageOk page
  | .istatClear _ page _ _ => pageOk page
  | .errlogClear _ page => pageOk page
  | .accerrClear _ => true
  | .lockWrite _ page _ => pageOk page
  | .ownerWrite _ page _ => pageOk page
  | .msixTableAccess _ => true
  | .perfwinRead _ page off nbytes => pageOk page && decide (off < 4096) && decide (1 ≤ nbytes)
  | .hello _ h m => hdrOk h && helloOk m
  | .helloTimer _ => true
  | .spdm _ h m => hdrOk h && decide (m.packet.length ≤ 68) && m.packet.all (fits 8) && fits 64 m.serial
  | .lsa _ h _ links => hdrOk h && linksOk links
  | .lsaTimer => true
  | .autoProposeTimer => true
  | .hmapPropose _ => true
  | .hmapRestage _ => true
  | .propose _ h m => hdrOk h && proposeOk m
  | .propMap _ h epoch _ entries => hdrOk h && fits 64 epoch && entries.all (fun e => fits 16 e.1 && entryOk e.2)
  | .epochAck _ h epoch => hdrOk h && fits 64 epoch
  | .refuse _ h epoch cause => hdrOk h && fits 64 epoch && fits 8 cause
  | .epochTimeout => true
  | .commit _ h epoch ftime => hdrOk h && fits 64 epoch && fits 64 ftime
  | .epochActivation => true
  | .mapFetch _ h epoch => hdrOk h && fits 64 epoch
  | .mapState _ h epoch members _ _ => hdrOk h && fits 64 epoch && members.all (fits 7)
  | .mapData _ h epoch _ entries => hdrOk h && fits 64 epoch && entries.all entryOk
  | .fence _ h _ ftime => hdrOk h && fits 64 ftime
  | .unfence _ h _ ftime => hdrOk h && fits 64 ftime
  | .fenceGraceExpiry _ => true
  | .timeReq _ h t1 => hdrOk h && fits 64 t1
  | .timeRsp _ h t1 t2 t3 => hdrOk h && fits 64 t1 && fits 64 t2 && fits 64 t3
  | .heartbeat _ h m => hdrOk h && heartOk m
  | .heartbeatTimeout _ => true
  | .flitCreditBlock _ _ _ => true
  | .creditFlitTimer _ => true
  | .egressGrant _ => true
  | .hoOffer _ h gran loc => hdrOk h && fits 16 gran && fits 13 loc
  | .hoAccept _ h gran loc => hdrOk h && fits 16 gran && fits 13 loc
  | .hoRefuse _ h gran loc => hdrOk h && fits 16 gran && fits 13 loc
  | .hoSent _ h gran loc _ owners => hdrOk h && fits 16 gran && fits 13 loc && fits 32 owners
  | .hoReceived _ h gran loc => hdrOk h && fits 16 gran && fits 13 loc
  | .hoAbort _ h gran loc => hdrOk h && fits 16 gran && fits 13 loc
  | .hoCopy _ h item => hdrOk h && copyOk item
  | .psnXfer _ h gran _ _ es => hdrOk h && fits 16 gran && es.all psnOk
  | .handoffStart _ maxUs => fits 12 maxUs
  | .handoffCopyDone => true
  | .handoffChainsEmpty => true
  | .freezeTimeout => true
  | .rdShared r => reqOk r
  | .rdAny r => reqOk r
  | .rdOwn r => reqOk r
  | .rdCur r => reqOk r
  | .upgrade r => reqOk r
  | .wrFull r _ => reqOk r
  | .atomic r _ => reqOk r
  | .stash r _ consumer => reqOk r && agentOk consumer
  | .snpInv _ h => hdrOk h
  | .snpData _ h => hdrOk h
  | .snpFwd _ h => hdrOk h
  | .rspI _ h => hdrOk h
  | .rspS _ h => hdrOk h
  | .rspFwd _ h => hdrOk h
  | .snpWb _ h _ => hdrOk h
  | .ack _ h => hdrOk h
  | .stashAck _ h => hdrOk h
  | .data _ h _ => hdrOk h
  | .dataFwd _ h _ => hdrOk h
  | .cmp _ h => hdrOk h
  | .dataAtm _ h _ _ => hdrOk h
  | .stashPush _ h _ => hdrOk h
  | .wbDirty _ h _ => hdrOk h
  | .memrd _ hpa _ => fits 46 hpa
  | .memrddata _ hpa => fits 46 hpa
  | .meminv _ hpa _ => fits 46 hpa
  | .memclnevct _ hpa => fits 46 hpa
  | .memspecrd _ hpa => fits 46 hpa
  | .memwr _ hpa _ _ _ _ => fits 46 hpa
  | .birsp _ line _ => lineOk line
  | .biconflict _ line => lineOk line
  | .d2hRead _ _ tpa => lineOk tpa
  | .d2hWrite _ _ tpa _ => lineOk tpa
  | .clflush _ tpa => lineOk tpa
  | .dirtyevict _ tpa => lineOk tpa
  | .cleanevict _ tpa _ => lineOk tpa
  | .cacheflushed _ => true
  | .d2hRsp _ _ line _ _ => lineOk line
  | .gpfPhase2Request _ => true
  | .gpfComplete _ => true
  | .getPoisonList _ => true
  | .ingressGrant _ => true
  | .wayStallResume _ => true
  | .writeStagingDequeue _ => true
  | .directoryReadReturn line _ => lineOk line
  | .mediaReadData line _ => lineOk line
  | .mediaWriteComplete line _ => lineOk line
  | .mediaCompletionTimeout way => fits 4 way
  | .dirWritebackComplete _ _ => true
  | .starvationTimeout _ _ => true
  | .auditTimeout q _ => fits 14 q
  | .deadLinkTimeout _ => true
  | .deadSnoopTimeout _ => true
  | .cacheSweepEnd rec => fits 8 rec
  | .reclaimWalkStep => true
  | .deadAlertExpiry => true
  | .txnTimeout line => lineOk line
  | .qassign _ _ => true
  | .sqTailDoorbell _ q u => fits 14 q && unitOk u
  | .cqHeadDoorbell _ q u => fits 14 q && unitOk u
  | .setupDoorbell _ q u => fits 14 q && unitOk u
  | .descriptorPush _ q _ => fits 14 q
  | .entryAccept q _ => fits 14 q
  | .copy t => opOk t
  | .fill t => opOk t
  | .compare t => opOk t
  | .crc32c t => opOk t
  | .moverStash t => opOk t
  | .atomicBatch t => opOk t
  | .adviseWillneed tok => fits 10 tok
  | .adviseDontneed tok => fits 10 tok
  | .adviseHot tok => fits 10 tok
  | .adviseCold tok => fits 10 tok
  | .migrate t => opOk t
  | .nop tok => fits 10 tok
  | .reachCreate tok => fits 10 tok
  | .reachRevoke tok => fits 10 tok
  | .queueCreate tok => fits 10 tok
  | .queueDestroy tok => fits 10 tok
  | .queueSetPrio tok => fits 10 tok
  | .xltBind tok => fits 10 tok
  | .xltInval tok => fits 10 tok
  | .xltResume tok => fits 10 tok
  | .xltFring tok => fits 10 tok
  | .xltUnbind tok => fits 10 tok
  | .opDispatch _ => true
  | .tileComplete tok _ => fits 10 tok
  | .opCompletion tok _ => fits 10 tok
  | .moverEnable _ _ _ => true
  | .atsTranslationCompletion _ r => atsOk r
  | .mirrorWalkRead _ => true
  | .prgResponse _ _ _ => true
  | .faultTimeout _ => true
  | .atsInvalidateRequest _ _ pasid va _ tag => fits 20 pasid && fits 64 va && fits 5 tag
  | .invalidationStart => true
  | .invalidationSweepEnd => true
  | .invalidationComplete => true
  | .migHoldExpiry _ => true
  | .acnDecaySweep => true
  | .cmpWrite _ _ _ _ => true
  | .channelStart _ _ _ => true
  | .compareFire _ => true
  | .periodWrap _ => true
  | .taskEnd _ => true
  | .taskIrqClear _ _ _ => true
  | .swfire _ _ => true
  | .taskWrite _ _ _ => true
  | .captureEdge _ => true
  | .syncInPulse => true
  | .syncOutPulseEnd => true
  | .counterClear _ page => pageOk page
  | .overflowReport => true
  | .dumpTick => true
  | .samplingEnable _ _ => true
  | .mbNop => true
  | .healthDeclare => true
  | .healthTimer => true
  | .wdogKick => true
  | .wdogHalf => true
  | .watchdogExpiry => true
  | .relay _ => true
  | .fwStage _ _ _ _ img => imageOk img
  | .fwActivate _ _ => true
  | .policyInstall p => policyOk p
  | .profileInstall p => profileWf p
  | .svnCommit => true
  | .overlayRead _ => true
  | .mcRead _ => true
  | .mcIncr _ => true
  | .resetRequest => true
  | .ldgInfo _ => true
  | .ldgRead _ lseq _ => fits 64 lseq
  | .ldgCerts _ => true
  | .ldgNonce _ => true
  | .ldgAck _ sig lseq => sigOk sig && fits 64 lseq
  | .benchRelease _ sig => sigOk sig
  | .ownerClaim _ keyHash => fits 384 keyHash
  | .ownerRevoke _ sig _ => sigOk sig
  | .imageUpdate _ _ img => imageOk img
  | .benchStatus _ => true
  | .spdmGetVersion _ => true
  | .spdmGetCapabilities _ => true
  | .spdmNegotiateAlgorithms _ => true
  | .spdmGetDigests _ => true
  | .spdmGetCertificate _ slot off len => fits 4 slot && fits 16 off && fits 16 len
  | .spdmChallenge _ _ => true
  | .spdmGetMeasurements _ _ _ => true
  | .spdmKeyExchange _ _ reqId => fits 16 reqId
  | .spdmFinish _ _ => true
  | .spdmHeartbeat _ => true
  | .spdmKeyUpdate _ op => fits 8 op
  | .spdmEndSession _ => true
  | .spdmVendorDefined _ q => qcmdOk q
  | .batchStart => true
  | .phase1Complete _ => true
  | .batchCommitted _ => true
  | .sectorEraseComplete _ part _ => fits 3 part
  | .deviceProbe _ _ => true
  | .kepProbe _ _ => true
  | .rebuildSectorCopy _ => true
  | .dailyReadTimer _ => true
  | .rdSeqWrite _ v => fits 64 v
  | .durableFetch _ => true
  | .durableFetchDone => true
  | .modeReqServe _ => true
  | .modeReqDrain _ => true
  | .modeReqMaintain _ => true
  | .serveOkWrite _ _ => true
  | .enterServe => true
  | .enterMaintain => true
  | .domainReqOn _ _ => true
  | .domainReqDrained _ _ => true
  | .domainReqOff _ _ => true
  | .domainDrained _ => true
  | .domainOff _ => true
  | .domainPowerUp _ => true
  | .sealPhaseEnd => true
  | .sealPhaseDeadline => true
  | .refclkCountDone _ => true
  | .recoveryEntry _ => true
  | .flitReplay r => fits 32 r.corrected
  | .d2hData _ line _ _ => lineOk line
  | .dynamicAddressAssignment _ => true
  | .testLogicReset => true
  | .spdmChunkSend _ handle _ _ _ => fits 8 handle
  | .spdmChunkGet _ handle _ => fits 8 handle
  | .spdmGetEncapsulatedRequest _ => true
  | .spdmDeliverEncapsulatedResponse _ _ => true

end Sys2Proof
end

