-- ==== Sys2Proof/Tests/Slice0.lean ====
section
/-! SUPPORT. The model's own tests: ill-formed commands refused, small facts with results taken from the spec, and for every
statement with hypotheses a state and operands that meet them. -/

open Sys2Proof Sys2Proof.Machine

namespace Sys2Proof.Tests

set_option Elab.async false

/-! ### States for tests -/

/-- A state of a hub and nothing else. -/
def at0 (h : Hub) : State := { hub := h, ram := [], pending := [] }

/-- Store fields. -/
def put (h : Hub) (l : List (Nat × FieldDef × Nat)) : Hub := l.foldl (fun h x => setFld h x.1 x.2.1 x.2.2) h

/-- Change the mode. -/
def inMode (h : Hub) (m : Mode) : Hub := { h with mode := { h.mode with mode := m } }

/-- The Zhozha tier of BENCH. -/
def benched (h : Hub) : Hub := { h with mode := { h.mode with mode := .bench, tier := true } }

/-- Change the boot state of a hub at reset. -/
def booting (b : Boot) : Hub := { Hub.reset with boot := b }

/-- A profile of nodes 5, 6 and 7. -/
def prof : Profile :=
  { key := 7, ecdsaOk := true, mldsaOk := true, fabricId := 1, serial := 1, members := [(5, 50), (6, 60), (7, 70)], roots := [5],
    levelMin := 1, levelMax := 1, svnFloor := 0, grace := 100, ranges := [], rsvdZero := true, lenOk := true, stored := true }

/-- An owner policy. -/
def pol : Policy :=
  { ecdsaOk := true, mldsaOk := true, rootHash := 1, serial := 1, roles := [], qbonds := [], ways := 0, gran := 0,
    wayBays := [], prov := 4, bootLimit := 3, wdogMs := 1000, strict := false, autoSvn := false, digest := 3, opsKey := 7,
    i3cStatic := none, subsystem := none, stored := true }

/-- A home map entry. -/
def homed (n l : Nat) : HEntry := { home := n, valid := true, memo := false, atomic := 0, frozen := false, loc := l }

/-- Node 5 in SERVE: an H group at bay 0, a D bay with a CXL.cache device at bay 4, an admitted link to node 6 at bay 8;
granule 0 is homed here and granule 1 on node 6. -/
def live : Hub :=
  put { Hub.reset with
    htime := 1000
    boot := { Boot.reset with seq := .done, point := .running, coreOn := true, hclk := true, eccOk := true, vauxLost := false }
    mode := { ModeSt.reset with mode := .serve }
    bays := [(0, { BayRt.reset with
        memSpaceEn := true, 
        hdm := [some { hpa := 0, lines := 2 ^ 24, tpa := 0, ways := 1, gran := 4, pos := 0 }, none, none, none] }),
      (4, { BayRt.reset with cacheDev := true })]
    tulle := { Tulle.reset with
      profile := some prof, digest := 9, homeMap := [(0, homed 5 0), (1, homed 6 0)], epoch := 1, members := [5, 6, 7], joined := true
      links := [(8, { TLink.reset with up := true, admitted := true, level := 1, cost := 1, peer := 6 })]
      nodes := [(6, { NodeRt.reset with present := true })] }
    trust := { Trust.reset with policy := some pol } }
  [(pTUL, Fld.TUL.NODE_ID, 5), (pBAY 0, Fld.BAY.ROLECFG_ROLE, 1), (pBAY 0, Fld.BAY.LSTAT_LSTATE, 4),
   (pBAY 0, Fld.BAY.LSTAT_CXL, 1), (pBAY 4, Fld.BAY.ROLECFG_ROLE, 2), (pBAY 4, Fld.BAY.LSTAT_LSTATE, 4),
   (pBAY 4, Fld.BAY.LSTAT_CXL, 1), (pBAY 8, Fld.BAY.ROLECFG_ROLE, 3), (pBAY 8, Fld.BAY.LSTAT_LSTATE, 4),
   (pBAY 8, Fld.BAY.LSTAT_TULLE, 1), (pPRK, Fld.PRK.LOCAL_PROV, 4), (pPRK, Fld.PRK.BGEN, 1), (pMOD, Fld.MOD.CTL_SERVE_OK, 1)]

/-- A header of a message from node 6's RLC to node 5 about line 0. -/
def hdr (opc : Nat) : Hdr :=
  { opc := opc, src := 446, dstn := 5, tag := 0, addr := 0, seq := 0, hops := 3, prio := 0, poison := false, attr := 0 }

/-- The same about a line of granule 1, with an ATTR. -/
def hdr1 (opc attr : Nat) : Hdr := { hdr opc with addr := 2 ^ 24, attr := attr }

/-- A request for line 0 by an agent. -/
def req (a : AgentId) (op : ReqOp) : Req :=
  { who := .hub, agent := a, op := op, line := 0, poison := false, prio := 0, ctx := 0, bob := 0, t0 := 0, hops := 0, tag := none }

/-- A transaction. -/
def txn (st : HSt) (op : ReqOp) (a : AgentId) (aw : List AgentId) : Txn :=
  { req := req a op, st := st, awaited := aw, dirty := none, hostWb := [], grant := 1, needAck := true, ackIn := false,
    fwdWait := true, wdata := none, contended := false, rebuild := false, since := 7 }

/-- The transaction heads the chain of line 0. -/
def headed (t : Txn) : Hub :=
  { live with coh := { live.coh with
      chains := [(0, { Chain.empty with head := some t })], bobs := [(0, { line := 0, prio := 0, remote := false })] } }

/-- The RLC tracks a miss of line 2^24. -/
def missing (st : RSt) : Hub := { live with coh := { live.coh with rlc := [(2 ^ 24, { RLine.none with st := st })] } }

/-- A mover's request is out at line 2^24. -/
def outFor (op : ReqOp) : Hub := { live with coh := { live.coh with outs := [(2 ^ 24, req 383 op)] } }

/-- An atomic. -/
def atom : AtomicArg := { operand := 1, compare := 0, op := 0, word := 0, size8 := true, upper := false }

/-- A firmware image. -/
def img : Image :=
  { typ := 1, svn := 1, length := 100, loadLen := 0, digest := 4, keyHash := 0, ecdsaOk := true, mldsaOk := true, digestOk := true,
    stored := true }

/-- What Zhozha meets at a start. -/
def zin : ZhIn := { media := [], torn := false, writable := true }

/-- What a training attempt meets. -/
def tin : TrainIn :=
  { lanes := [0, 1, 2, 3].map (fun n => .locked n false .cxl), proposes := true, flitOk := true, cxl := true, cacheDev := true }

/-- The offer that lane n of node 6's bay B00 sends (Table BAY-3). -/
def ts (n : Nat) : Offer := .vendor 0x1F4C (tulleWord 6 0 n)

/-- A trained result. -/
def trainedTo : Trained :=
  { width := 2, rate := 5, reversed := false, polInv := 0, map := [0, 1, 2, 3], cxl := true, cacheDev := false,
    peerNode := 0, peerBay := 0, cause := 0 }

/-- Bay 0 trains. -/
def trainingHub (r : BayRt) : Hub := { put live [(pBAY 0, Fld.BAY.LSTAT_LSTATE, 2)] with bays := [(0, r)] }

/-- A HELLO. -/
def helloM : HelloMsg :=
  { serial := 60, fabricId := 1, digest := 9, epoch := 1, profSer := 1, zhSvn := 0, mode := 2, present := true,
    fenced := false, quorum := true, levelLo := 1, levelHi := 1 }

/-- A proposal of epoch 2. -/
def propM : ProposeMsg := { epoch := 2, members := [5, 6], digest := 9, count := 0, root := none }

/-- An own proposal of epoch 2. -/
def ownProp : OwnProp := { epoch := 2, awaiting := [6], chakacon := false, handoff := false, committed := false, at_ := 0 }

/-- Change what Tulle holds. -/
def withTulle (f : Tulle → Tulle) : Hub := { live with tulle := f live.tulle }

/-- A fetch from node 6. -/
def fetch6 : Fetch := { peer := 6, epoch := 1, members := [5, 6], root := none, left := 0, entries := [] }

/-- A handoff of granule 0 to node 6. -/
def handTo (st : HoSt) (fl : Bool) : HandA :=
  { gran := 0, target := 6, loc := 0, oldLoc := 0, st := st, dirty := [], sent := 0, froze := 0, flushed := fl, acked := false }

/-- A granule that node 6 hands over. -/
def handFrom : HandB := { gran := 0, from_ := 6, loc := 0, got := 0, want := none, owners := 0 }

/-- A queue of bay 0, or of Chakacon. -/
def queueOf (st : QSt) (int : Bool) : Queue := { Queue.reset with st := st, int := int, sqLog2 := 4, cqLog2 := 4 }

/-- Queues, tokens. -/
def moving (qs : List (Nat × Queue)) (ts : List (Nat × Op)) : Hub :=
  { live with mov := { live.mov with queues := qs, toks := ts }, scb := { live.scb with boot := 2 } }

/-- A doorbell unit. -/
def dbu (setup : Bool) : DbUnit :=
  { sqTail := 1, cqHead := 0, sqValid := true, cqValid := true, setup := setup, sqBase := 0, cqBase := 0, sqLog2 := 4,
    cqLog2 := 4, vector := 2047, zeroOk := true, first4 := 0 }

/-- An op of queue 0. -/
def opIn (st : OpSt) (entry : BitVec 512) : Op :=
  { q := 0, sqIdx := 0, seq := 1, entry := entry, durable := false, st := st, status := 0, result := 0, detail := 0, next := 0,
    total := 0, flight := [], tilesDone := 0, pfNext := 0, fail := none, poisonAt := none, diffAt := none, crc := 0,
    crcNext := 0, kept := [], items := 0, itemErr := false, aborted := false, inval := false, begun := false }

/-- An op on a stream, of an entry. -/
def streaming (entry : BitVec 512) : Hub := moving [(0, queueOf .enabled false)] [(0, opIn (.stream 0 0) entry)]

/-- A management command of bay 0's queue 0, with another queue 64 of the same owner. -/
def managing (st64 : QSt) (entry : BitVec 512) : Hub :=
  moving [(0, queueOf .enabled false), (64, queueOf st64 false)] [(0, opIn .mgmt entry)]

/-- The reach entry of index 0, owned by bay 0. -/
def reach0 : Reach := { base := 0, lines := 16, perm := 7, gen := 0, valid := true, bay := 0, ctx := 1, retired := false }

/-- A handle of node 5, index 0 and generation 0. -/
def handle0 : Nat := 5 * 2 ^ 25

/-- A translation of bay 0. -/
def xlat (mirror : Bool) : Xlat :=
  { bay := 0, pasid := 0, page := 0, write := true, demand := true, who := .sq 0, mover := none, epoch := 0, mirror := mirror,
    level := 1, off := 0, cancelled := false }

/-- A fault of bay 0. -/
def faultOf (mirror : Bool) : FaultE :=
  { mirror := mirror, bay := 0, pasid := 0, va := 0, write := true, time := 0, waiters := [] }

/-- An invalidation. -/
def inval (src : InvSrc) : Inv := { src := src, bay := 0, pasid := none, va := 0, len := 4096 }

/-- Change the translation unit. -/
def withXlt (f : Xlt → Xlt) : Hub := { live with xlt := f live.xlt }

/-- A staged low half of Zhozha's. -/
def stagedAt (pg off : Nat) : Hub := { live with port := { live.port with stages := [⟨.zhozha, pg, off, 0, 1000⟩] } }

/-- A latched high half of Zhozha's. -/
def latched : Hub := { live with port := { live.port with latches := [⟨.zhozha, 0, 0x030, 0, 1000, false⟩] } }

/-- A mailbox call of a code runs. -/
def calling (code : Nat) : Hub :=
  { put live [(pTRU, Fld.TRU.MB_STAT_BUSY, 1)] with trust := { live.trust with call := code } }

/-- An SPDM connection at the MCTP port. -/
def spdmAt (c : SpdmConn) : Hub := { live with trust := { live.trust with spdm := [(48, c)] } }

/-- A connection whose algorithms are settled, in a session state. -/
def connIn (session : Nat) : SpdmConn := { SpdmConn.reset with stage := 3, session := session }

/-- A valid owner signature with the current nonce. -/
def sigBy (key : Nat) : OwnerSig := { ecdsaOk := true, mldsaOk := true, nonce := 1, key := key }

/-- A hub whose nonce is 1, with owner keys 1 and 2 fused. -/
def asked (h : Hub) : Hub :=
  { h with trust := { h.trust with nonce := some 1 }, fuses := { h.fuses with owners := [some 1, some 2, none, none] } }

/-- A heartbeat. -/
def heartM : HeartMsg := { seq := 1, mode := 2, suspect := false, fenced := false, last := false, epoch := 1, present := 0x60 }

/-- A step of the op of token 0. -/
def step0 : OpStep := { tok := 0, tile := 0, host := [], poison := false }

/-- An entry of an opcode and a byte 48. -/
def entryOf (opc code : Nat) : BitVec 512 := BitVec.ofNat 512 (opc + code * 2 ^ 384)

/-- A migration hold whose command is posted. -/
def hold0 : Hold := { tok := 0, bay := 0, pasid := 0, va := 0, len := 4096, posted := some 5 }

/-- A request in an ingress queue of slice 0. -/
def ing0 : Ing := { slice := 0, src := 0, pool := 0, req := req 320 .rdShared, since := 0, lane := none, link := none }

/-- A dead agent's record. -/
def dead0 : DeadRec := { agent := 446, cause := 1, epoch := 1, time := 0, walkFrom := 0, sweeping := false, walked := 0 }

/-- A queue of bay 0 with one entry waiting in host memory. -/
def ringing : Hub := moving [(0, { queueOf .enabled false with tail := 1 })] []

/-- A device write that waits for its link. -/
def bout0 : BOut := { out := .go 0 0 1, ack := some 7, src := 0, prio := 0, since := 0 }

/-- A mover group with an op to dispatch. -/
def dispatching : Hub :=
  let h := put (moving [(0, queueOf .enabled false)] [(0, opIn .queued 1)]) [(pMOV 0, Fld.MOV.CTL_EN, 1)]
  { h with mov := { h.mov with dq := [0] } }

/-- A management command with the reach entry of index 0. -/
def reaching0 (entry : BitVec 512) : Hub :=
  let h := managing .idle entry
  { h with mov := { h.mov with reach := [(0, reach0)] } }

/-- The directory's and media's side of the live hub changed. -/
def pricking (h : Hub) (f : Prk → Prk) : Hub := { h with prk := f h.prk }

/-- A DIRTY entry in the write-back buffer. -/
def way0 : Way := { line := 0, word := 1, dirty := true }

/-- A write of the head of line 0 is out to media. -/
def writing (op : ReqOp) : Txn := { txn .mwr op 320 [] with wdata := some (0, false) }

/-- The entry of line 0 as the directory in memory gives it. -/
def word0 : Nat := entWord live (regionRead live 0).1

/-- The head of line 0 awaits its directory entry. -/
def looking : Hub := headed (txn .look .rdShared 320 [])

/-- The same, with every way of the set LOCKED. -/
def stuck : Hub :=
  let ways := (List.range 16).map (fun i => (i, { line := i + 1, word := 1, dirty := false }))
  let h := pricking looking (fun p => { p with sets := [(setKey 0, { PrkSet.empty with ways := ways })] })
  { h with coh := { h.coh with chains := h.coh.chains ++ (List.range 16).map (fun i => (i + 1, Chain.empty)) } }

/-- What an option holds, or the live hub. -/
def hubOf (o : Option Hub) : Hub := o.getD live

/-- The hub once the entry of line 0 has proven unreadable. -/
def unread : Hub := hubOf (fillWay looking 0 (entWord looking .uncached) false)

/-- Its rebuild's bobbin. -/
def rebuilding : Option (Nat × Hub) := mgmtTake (noteRebuild (specDiscard unread 0) 0 1) 0

/-- A staged message of slice 5, that of line 0. -/
def staged0 (a : AgentId) (op : ReqOp) : Staged := { slice := 5, src := 0, req := req a op, link := none, since := 0 }

/-- A hub with one staged message. -/
def staging (h : Hub) (x : Staged) : Hub := { h with coh := { h.coh with staging := [x] } }

/-- A transaction that waits for a way. -/
def stalling : Txn := txn .stall .rdShared 320 []

/-- It heads the chain of line 0, whose entry another has fetched meanwhile. -/
def cached0 : Hub :=
  pricking (headed stalling) (fun p => { p with
    sets := [(setKey 0, { PrkSet.empty with ways := [(0, { line := 0, word := word0, dirty := false })] })] })

/-- A request waits at an ingress arbiter. -/
def queued0 : Hub := { live with coh := { live.coh with ingress := [ing0] } }

/-- Its bobbin. -/
def granted0 : Option (Req × Hub) :=
  equip (ingressReady queued0 0) 0 ing0.pool { ing0.req with prio := basePrio (ingressReady queued0 0) ing0 }
    ing0.lane.isSome (ageLevel (ingressReady queued0 0) ing0.since)

/-- The bobbin of a staged write-back. -/
def unstaged0 : Option (Req × Hub) :=
  let x := staged0 446 (.wbDirty 0)
  let h := unstage (staging live x) x
  equip h 5 1 { x.req with prio := poolPrio h 1 x.req, late := false } x.lane.isSome (ageLevel h x.since)

/-- An entry change of line 0 waits for a way. -/
def waiting0 : Hub := pricking live (fun p => { p with waits := [(0, .put .uncached)] })

/-- A full sector of the Scorebook's log. -/
def sec0 : KSec := { idx := 744, erases := 3, seq := 1, used := 1024, units := [], retire := false }

/-- A batch of one record of the Scorebook. -/
def batch0 (phase2 : Bool) : KBatch :=
  { part := 2, recs := [{ seq := 1, body := .boot 1 1 0 }], phase2 := phase2, passed := [], tries := [0, 0] }

/-- The live hub with a batch. -/
def batching (phase2 : Bool) (l : List (Nat × FieldDef × Nat)) : Hub :=
  { put live l with kep := { live.kep with batch := some (batch0 phase2) } }

/-- Both devices hold one log of the Scorebook. -/
def scbLogs (l : KLog) (h : Hub) : Hub := putLog (putLog h 0 2 l) 1 2 l

/-- A log with one committed record. -/
def logOne : KLog :=
  { full := [], ahead := [], other := [],
    cur := { sec0 with used := 3, units := [.data { seq := 1, body := .boot 1 1 0 }, .commit 1 1] } }

/-- A log whose oldest sector is due for erasure. -/
def logFull (x : KSec) : KLog := { full := [x], cur := sec0, ahead := [], other := [] }

/-- A record of the ledger. -/
def recd : LdgRec := { lseq := 1, checkpoint := false, torn := false, unit := 0, bytes := [] }

/-- The state a command leads to. -/
def after (c : Instr) (s : State) : Option State :=
  match exec c s with
  | .next t => some t
  | _ => none

/-! ### Witnesses -/

/-- Every clause of StartCommandsComplete is met somewhere. -/
theorem test_start_commands_complete :
    (∃ (s : State), outsideHold s ∧
      canStart { s.hub with pins := { s.hub.pins with railReset := clearBit s.hub.pins.railReset 5 } } =
      true) ∧
    (∃ (s : State) (n : Nat), outsideHold s ∧ s.hub.boot.seq = .counting ∧ 95 ≤ n ∧ n ≤ 105) ∧
    (∃ (s : State), outsideHold s ∧ s.hub.boot.seq = .sensing ∧ s.hub.fuses.grade ≠ 1) ∧
    (∃ (s : State), outsideHold s ∧ s.hub.boot.seq = .sensing ∧ s.hub.fuses.grade = 1) ∧
    (∃ (s : State), outsideHold s ∧ s.hub.boot.seq = .pll) ∧
    (∃ (s : State), outsideHold s ∧ s.hub.boot.seq = .locked ∧ mayStep s.hub = true ∧ s.hub.pins.refclk = true) ∧
    (∃ (s : State) (k : Nat) (i : Image), outsideHold s ∧
      s.hub.boot.point = .rom ∧ mayStep s.hub = true ∧ s.hub.boot.eccOk = true ∧
      s.hub.fuses.grade < 2 ∧ (activeDevs s.hub).isEmpty = false ∧ zhItem s.hub 1 0 = none ∧ (pickSlot (imgValid s.hub
      0) 0 0 0).slot = some k ∧ imgAt s.hub 0 k = some i) ∧
    (∃ (s : State), outsideHold s ∧ s.hub.boot.point = .zhozha ∧ mayStep s.hub = true) ∧
    (∃ (s : State), outsideHold s ∧
      s.hub.boot.hclk = true ∧ s.hub.boot.coreOn = false ∧ s.hub.pins.railWarn % 32 = 0 ∧ s.hub.boot.zin
      = none) ∧
    (∃ (s : State) (z : ZhIn), outsideHold s ∧
      s.hub.boot.hclk = true ∧ s.hub.boot.coreOn = false ∧ s.hub.pins.railWarn % 32 = 0 ∧
      s.hub.boot.zin = some z ∧ s.hub.boot.point = .waitCore ∧ mayStep s.hub = true) ∧
    (∃ (s : State), outsideHold s ∧
      s.hub.boot.zin = none ∧ s.hub.boot.point = .ready ∧ s.hub.boot.coreOn = true ∧ mayStep s.hub =
      true) ∧
    (∃ (s : State), outsideHold s ∧ flag s.hub pPRK Fld.PRK.STAT_FORMAT_BUSY = true ∧ bgen (formatEnd s.hub) ≠ 0) ∧
    (∃ (s : State), outsideHold s ∧
      flag s.hub pPRK Fld.PRK.STAT_FORMAT_BUSY = true ∧ bgen (formatEnd s.hub) = 0 ∧ zhItem (formatEnd
      s.hub) 4 0 = some 4095) :=
  ⟨⟨at0 Hub.reset, by decide +kernel⟩,
   ⟨at0 (booting { Boot.reset with seq := .counting }), 95, by decide +kernel⟩,
   ⟨at0 (booting { Boot.reset with seq := .sensing }), by decide +kernel⟩,
   ⟨at0 { booting { Boot.reset with seq := .sensing } with fuses := { Fuses.reset with grade := 1 } }, by decide +kernel⟩,
   ⟨at0 (booting { Boot.reset with seq := .pll }), by decide +kernel⟩,
   ⟨at0 (booting { Boot.reset with seq := .locked }), by decide +kernel⟩,
   ⟨at0
     ({ booting { Boot.reset with point := .rom, eccOk := true } with keep := { Keep.reset with images := [(0, img)] } }),
     0, img, by decide +kernel⟩,
   ⟨at0 (booting { Boot.reset with point := .zhozha }), by decide +kernel⟩,
   ⟨at0 (booting { Boot.reset with hclk := true }), by decide +kernel⟩,
   ⟨at0 (booting { Boot.reset with hclk := true, zin := some zin, point := .waitCore }), zin, by decide +kernel⟩,
   ⟨at0 (booting { Boot.reset with point := .ready, coreOn := true }), by decide +kernel⟩,
   ⟨at0 (put Hub.reset [(pPRK, Fld.PRK.STAT_FORMAT_BUSY, 1), (pPRK, Fld.PRK.BGEN, 1)]), by decide +kernel⟩,
   ⟨at0 (put (zhPut Hub.reset [(4, 0, 4095)]) [(pPRK, Fld.PRK.STAT_FORMAT_BUSY, 1)]), by decide +kernel⟩⟩

/-- Every clause of SupplyCommandsComplete is met somewhere. -/
theorem test_supply_commands_complete :
    (∃ (s : State), outsideHold s ∧ s.hub.pins.hubReset = false) ∧
    (∃ (s : State), outsideHold s ∧ s.hub.pins.hubReset = true ∧
      canStart { s.hub with pins := { s.hub.pins with hubReset := false } } = true) ∧
    (∃ (s : State) (r : Rail), outsideHold s ∧ bit s.hub.pins.railWarn (railNum r) = false) ∧
    (∃ (s : State) (r : Rail), outsideHold s ∧
      bit s.hub.pins.railWarn (railNum r) = true ∧ ((r = .vcore ∨ r = .vsram ∨ r = .vaux))) ∧
    (∃ (s : State), outsideHold s ∧
      s.hub.pins.refclk = true ∧ s.hub.mode.sealPhase ≠ 8 ∧ flag s.hub pCLK Fld.CLK.STAT_LOCKED = false) ∧
    (∃ (s : State), outsideHold s ∧
      s.hub.pins.refclk = true ∧ s.hub.mode.sealPhase ≠ 8 ∧ flag s.hub pCLK Fld.CLK.STAT_LOCKED = true) ∧
    (∃ (s : State), outsideHold s ∧ flag s.hub pCLK Fld.CLK.STAT_HOLDOVER = true) ∧
    (∃ (s : State), outsideHold s ∧
      s.hub.pins.refclk = false ∧ canStart { s.hub with pins := { s.hub.pins with refclk := true } } =
      true) ∧
    (∃ (s : State), outsideHold s ∧ s.hub.pins.thermtrip = false) ∧
    (∃ (s : State), outsideHold s ∧ s.hub.pins.thermtrip = true ∧ s.hub.pins.railReset % 32 = 31) :=
  ⟨⟨at0 Hub.reset, by decide +kernel⟩,
   ⟨at0 ({ Hub.reset with pins := { Pins.reset with hubReset := true } }), by decide +kernel⟩,
   ⟨at0 Hub.reset, .vcore, by decide +kernel⟩,
   ⟨at0 ({ Hub.reset with pins := { Pins.reset with railWarn := 1 } }), .vcore, by decide +kernel⟩,
   ⟨at0 Hub.reset, by decide +kernel⟩,
   ⟨at0 (put Hub.reset [(pCLK, Fld.CLK.STAT_LOCKED, 1)]), by decide +kernel⟩,
   ⟨at0 (put Hub.reset [(pCLK, Fld.CLK.STAT_HOLDOVER, 1)]), by decide +kernel⟩,
   ⟨at0 ({ Hub.reset with pins := { Pins.reset with refclk := false } }), by decide +kernel⟩,
   ⟨at0 Hub.reset, by decide +kernel⟩,
   ⟨at0 ({ Hub.reset with pins := { Pins.reset with thermtrip := true, railReset := 31 } }), by decide +kernel⟩⟩

/-- Every clause of PowerFailCommandsComplete is met somewhere. -/
theorem test_power_fail_commands_complete :
    (∃ (s : State) (c : PfCh), outsideHold s ∧
      pfLevel s.hub c = false ∧ running s.hub = true ∧ pfExcl s.hub c = false ∧ pfExcl s.hub
      (pfOther c) = false ∧ pfLevel s.hub (pfOther c) = false) ∧
    (∃ (s : State) (c : PfCh), outsideHold s ∧
      pfLevel s.hub c = false ∧ running s.hub = true ∧ pfExcl s.hub c = false ∧ pfExcl s.hub
      (pfOther c) = true) ∧
    (∃ (s : State) (c : PfCh), outsideHold s ∧
      pfLevel s.hub c = false ∧ running s.hub = true ∧ pfExcl s.hub c = false ∧ pfExcl s.hub
      (pfOther c) = false ∧ pfLevel s.hub (pfOther c) = true ∧ s.hub.htime - pfAt (pfDrive s.hub c true) (pfOther c) ≤
      discHc (pfDrive s.hub c true)) ∧
    (∃ (s : State) (c : PfCh), outsideHold s ∧
      pfLevel s.hub c = true ∧ running s.hub = true ∧ pfExcl s.hub c = false ∧ pfLevel s.hub
      (pfOther c) = false) ∧
    (∃ (s : State) (c : PfCh), outsideHold s ∧ running s.hub = true ∧ pfAlone s.hub c = true) ∧
    (∃ (s : State) (c : PfCh), outsideHold s ∧ startSpan s.hub = true ∧ pfAlone s.hub c = true) ∧
    (∃ (s : State) (c : PfCh), outsideHold s ∧ pfLevel s.hub c = true ∧ running s.hub = false) ∧
    (∃ (s : State) (o : Origin) (c : PfCh), outsideHold s ∧
      served s.hub o pPWR 0x104 (fld s.hub pPWR Fld.PWR.PFAIL_CFG_DISC_US + 2 ^
      (13 + pfNum c)) ∧ pfExcl s.hub c = true ∧ pfLevel s.hub c = false) ∧
    (∃ (s : State), outsideHold s ∧
      s.hub.mode.brace = true ∧ braceTrigger s.hub = 0 ∧ (advanceTo s.hub (s.hub.mode.quietAt +
      2000000)).mode.mode ≠ .serve) ∧
    (∃ (s : State), outsideHold s ∧ s.hub.pins.benchReq = false) :=
  ⟨⟨at0 live, .a, by decide +kernel⟩,
   ⟨at0 ({ live with mode := { live.mode with exclB := true } }), .a, by decide +kernel⟩,
   ⟨at0 ({ live with mode := { live.mode with pfAtB := 1000 }, pins := { live.pins with pfailB := true } }), .a,
     by decide +kernel⟩,
   ⟨at0 ({ live with pins := { live.pins with pfailA := true } }), .a, by decide +kernel⟩,
   ⟨at0 ({ live with pins := { live.pins with pfailA := true } }), .a, by decide +kernel⟩,
   ⟨at0 ({ booting { Boot.reset with seq := .done } with pins := { Pins.reset with pfailA := true } }), .a,
     by decide +kernel⟩,
   ⟨at0 ({ booting { Boot.reset with seq := .counted } with pins := { Pins.reset with pfailA := true } }), .a,
     by decide +kernel⟩,
   ⟨at0 ({ live with mode := { live.mode with exclA := true } }), .zhozha, .a, by decide +kernel⟩,
   ⟨at0 ({ live with mode := { live.mode with mode := .drain, brace := true } }), by decide +kernel⟩,
   ⟨at0 Hub.reset, by decide +kernel⟩⟩

/-- Every clause of HostResetCommandsComplete is met somewhere. -/
theorem test_host_reset_commands_complete :
    (∃ (s : State), outsideHold s ∧ s.hub.mode.mode ≠ .seal) ∧
    (∃ (s : State) (q : Quad), outsideHold s ∧ bit s.hub.pins.qrst q.val = true) ∧
    (∃ (s : State) (b : Bay), outsideHold s ∧ hBay s.hub b.val = true) ∧
    (∃ (s : State) (b : Bay), outsideHold s ∧
      (bayRt s.hub b.val).hostDisabled = true ∧ lstate (modBay s.hub b.val (fun r =>
      { r with hostDisabled := false })) b.val = 7) ∧
    (∃ (s : State) (b : Bay) (lines : Nat), outsideHold s ∧ hBay s.hub b.val = true ∧ lines ≠ 0) :=
  ⟨⟨at0 live, by decide +kernel⟩,
   ⟨at0 ({ live with pins := { live.pins with qrst := 1 } }), 0, by decide +kernel⟩,
   ⟨at0 live, 0, by decide +kernel⟩,
   ⟨at0 (modBay (put live [(pBAY 0, Fld.BAY.LSTAT_LSTATE, 7)]) 0 (fun r => { r with hostDisabled := true })), 0,
     by decide +kernel⟩,
   ⟨at0 live, 0, 1, by decide +kernel⟩⟩

/-- Every clause of BayCommandsComplete is met somewhere. -/
theorem test_bay_commands_complete :
    (∃ (s : State) (b : Bay), outsideHold s ∧
      leadOf s.hub b.val = b.val ∧ fld s.hub (pBAY b.val) Fld.BAY.LSTAT_LSTATE = 5 ∧ restState
      s.hub b.val = none) ∧
    (∃ (s : State) (b : Bay) (t : TrainIn) (c : Nat), outsideHold s ∧
      training s.hub b.val = true ∧ (bayRt s.hub b.val).trained = none
      ∧ earlyRefusal s.hub b.val t = some c) ∧
    (∃ (s : State) (b : Bay) (t : TrainIn), outsideHold s ∧
      training s.hub b.val = true ∧ (bayRt s.hub b.val).trained = none ∧
      earlyRefusal s.hub b.val t = none) ∧
    (∃ (s : State) (b : Bay), outsideHold s ∧ training s.hub b.val = true ∧ (bayRt s.hub b.val).trained = none) ∧
    (∃ (s : State) (b : Bay) (r : Nat), outsideHold s ∧
      training s.hub b.val = true ∧ rateNow s.hub b.val (bayRt s.hub b.val).tryRate = r ∧
      2 ≤ r ∧ fld s.hub (pBAY b.val) Fld.BAY.LINKCFG_MIN_RATE < r ∧ (bayRt s.hub b.val).trained = none) ∧
    (∃ (s : State) (b : Bay) (r : Nat), outsideHold s ∧
      training s.hub b.val = true ∧ rateNow s.hub b.val (bayRt s.hub b.val).tryRate = r ∧
      2 ≤ r ∧ r ≤ fld s.hub (pBAY b.val) Fld.BAY.LINKCFG_MIN_RATE) ∧
    (∃ (s : State) (b : Bay) (r : Nat), outsideHold s ∧ leadOf s.hub b.val = b.val ∧ bayUp s.hub b.val = true ∧
      fld s.hub (pBAY b.val) Fld.BAY.LSTAT_RATE = r ∧ 2 ≤ r ∧ fld s.hub (pBAY b.val) Fld.BAY.LINKCFG_MIN_RATE < r ∧
      fld s.hub (pBAY b.val) Fld.BAY.CAUSE_CODE = 0) ∧
    (∃ (s : State) (b : Bay) (t : Trained), outsideHold s ∧
      training s.hub b.val = true ∧ restState s.hub b.val = none ∧ (bayRt s.hub
      b.val).trained = some t) ∧
    (∃ (s : State) (b : Bay), outsideHold s ∧ leadOf s.hub b.val = b.val ∧ bayUp s.hub b.val = true) ∧
    (∃ (s : State) (b : Bay), outsideHold s ∧
      leadOf s.hub b.val = b.val ∧ fld s.hub (pBAY b.val) Fld.BAY.LSTAT_LSTATE = 6) ∧
    (∃ (s : State) (o : Origin) (b : Bay) (v : Word), outsideHold s ∧
      served s.hub o (pBAY b.val) 0x100 v.toNat ∧ (roleAffects s.hub
      b.val v.toNat).all (atRest s.hub) = true ∧ bits v.toNat 2 3 ≤ 4) ∧
    (∃ (s : State) (o : Origin) (b : Bay) (v : Word), outsideHold s ∧
      served s.hub o (pBAY b.val) 0x104 v.toNat ∧ encodable s.hub o
      (pBAY b.val) 0x104 v.toNat) :=
  ⟨⟨at0 (put live [(pBAY 0, Fld.BAY.LSTAT_LSTATE, 5)]), 0, by decide +kernel⟩,
   ⟨at0 (trainingHub .reset), 0, { tin with lanes := [] }, 1, by decide +kernel⟩,
   ⟨at0 (trainingHub .reset), 0, tin, by decide +kernel⟩,
   ⟨at0 (trainingHub .reset), 0, by decide +kernel⟩,
   ⟨at0 (trainingHub { BayRt.reset with tryRate := 2 }), 0, 2, by decide +kernel⟩,
   ⟨at0 (put (trainingHub { BayRt.reset with tryRate := 2 }) [(pBAY 0, Fld.BAY.LINKCFG_MIN_RATE, 2)]), 0, 2,
     by decide +kernel⟩,
   ⟨at0 (put live [(pBAY 0, Fld.BAY.LSTAT_RATE, 5)]), 0, 5, by decide +kernel⟩,
   ⟨at0 (trainingHub { BayRt.reset with trained := some trainedTo }), 0, trainedTo, by decide +kernel⟩,
   ⟨at0 live, 0, by decide +kernel⟩,
   ⟨at0 (put live [(pBAY 0, Fld.BAY.LSTAT_LSTATE, 6)]), 0, by decide +kernel⟩,
   ⟨at0 Hub.reset, .zhozha, 0, 0x10, by decide +kernel⟩,
   ⟨at0 live, .zhozha, 0, 0x00085001, by decide +kernel⟩⟩

/-- Every clause of SidebandCommandsComplete is met somewhere. -/
theorem test_sideband_commands_complete :
    (∃ (s : State) (scl : Bool) (sda : Bool), outsideHold s ∧
      mgmtRuns s.hub = true ∧ (scl || sda) = true ∧ fld s.hub pPIN
      Fld.PIN.MGMT_STATE < 2) ∧
    (∃ (s : State), outsideHold s ∧ mgmtRuns s.hub = true ∧ 2 ≤ fld s.hub pPIN Fld.PIN.MGMT_STATE) ∧
    (∃ (s : State), outsideHold s ∧ mgmtRuns s.hub = true ∧ fld s.hub pPIN Fld.PIN.MGMT_STATE ≤ 1) ∧
    (∃ (t : BusTry), t.sda = true ∧ t.scl = false) ∧
    (∃ (s : State) (d : KsDev), outsideHold s ∧ devState s.hub d.val ≠ 2) ∧
    (∃ (s : State), outsideHold s ∧ s.hub.tap.ir = .sample) :=
  ⟨⟨at0 live, true, false, by decide +kernel⟩,
   ⟨at0 (put live [(pPIN, Fld.PIN.MGMT_STATE, 2)]), by decide +kernel⟩,
   ⟨at0 (put live [(pPIN, Fld.PIN.MGMT_STATE, 1)]), by decide +kernel⟩,
   ⟨⟨false, true, false, false⟩, by decide +kernel⟩,
   ⟨at0 live, 0, by decide +kernel⟩,
   ⟨at0 { live with tap := { Tap.reset with ir := .sample } }, by decide +kernel⟩⟩

/-- Every clause of RegisterAccessesComplete is met somewhere. -/
theorem test_register_accesses_complete :
    (∃ (s : State) (o : Origin) (pg : Nat) (off : Nat) (v : Nat), outsideHold s ∧
      off % 4 = 0 ∧ off < 4096 ∧ v < 2 ^ 32 ∧ decodes
      s.hub o = true ∧ pageExists pg = true) ∧
    (∃ (s : State) (o : Origin) (pg : Nat) (off : Nat), outsideHold s ∧
      off % 4 = 0 ∧ off < 4096 ∧ decodes s.hub o = true ∧ pageExists
      pg = true ∧ readRefused s.hub o pg = false ∧ allHidden (clsOf o) pg off = false ∧ isRc pg off = true ∧ lowHalf
      pg off = false ∧ highHalf pg off = false) ∧
    (∃ (s : State) (o : Origin) (pg : Nat) (off : Nat), outsideHold s ∧
      off % 4 = 0 ∧ off < 4096 ∧ decodes s.hub o = true ∧ pageExists
      pg = true ∧ readRefused s.hub o pg = false ∧ allHidden (clsOf o) pg off = false ∧ isRc pg off = false ∧ lowHalf
      pg off = true) ∧
    (∃ (s : State) (o : Origin) (pg : Nat) (off : Nat), outsideHold s ∧
      off % 4 = 0 ∧ off < 4096 ∧ decodes s.hub o = true ∧ pageExists
      pg = true ∧ readRefused s.hub o pg = false ∧ allHidden (clsOf o) pg off = false ∧ isRc pg off = true ∧ lowHalf
      pg off = true) ∧
    (∃ (s : State) (o : Origin) (pg : Nat) (off : Nat) (l : Latch), outsideHold s ∧
      off % 4 = 0 ∧ off < 4096 ∧ decodes s.hub o = true
      ∧ pageExists pg = true ∧ readRefused s.hub o pg = false ∧ allHidden (clsOf o) pg off = false ∧ lowHalf pg off =
      false ∧ highHalf pg off = true ∧ latchOf s.hub o = some l ∧ l.page = pg ∧ l.off = off - 4 ∧ s.hub.htime - l.time
      < 1024) ∧
    (∃ (s : State) (o : Origin) (l : Latch), outsideHold s ∧ latchOf s.hub o = some l) ∧
    (∃ (s : State) (o : Origin) (v : Word) (x : Nat × Nat), outsideHold s ∧
      x ∈ [(pACN, 0x104), (pCNT, 0x108), (pSMP, 0x108), (pSCB,
      0x11C)] ∧ served s.hub o x.1 x.2 v.toNat) ∧
    (∃ (s : State) (o : Origin) (v : Word) (x : Nat × Nat × FieldDef × FieldDef) (t : Stage), outsideHold s ∧
      x ∈ [(pACN, 0x108,
      Fld.ACN.RING_BASE_LO, Fld.ACN.RING_BASE_HI), (pCNT, 0x10C, Fld.CNT.DUMP_BASE_LO, Fld.CNT.DUMP_BASE_HI), (pSMP,
      0x10C, Fld.SMP.RING_BASE_LO, Fld.SMP.RING_BASE_HI), (pSCB, 0x120, Fld.SCB.RD_SEQ_LO, Fld.SCB.RD_SEQ_HI)] ∧
      served s.hub o x.1 x.2.1 v.toNat ∧ stageFor s.hub o x.1 x.2.1 = some t ∧ s.hub.htime - t.time < 1024) ∧
    (∃ (s : State) (o : Origin) (t : Stage), outsideHold s ∧ stageOf s.hub o = some t) ∧
    (∃ (s : State) (o : Origin) (pg : Nat) (off : Nat) (n : Nat), outsideHold s ∧
      decodes s.hub o = true ∧ pageExists pg = true ∧ off
      % 4 = 0 ∧ n = 4 ∧ perfServed s.hub o pg = true) :=
  ⟨⟨at0 live, .zhozha, 0, 0x024, 1, by decide +kernel⟩,
   ⟨at0 live, .zhozha, pTUL, 0x154, by decide +kernel⟩,
   ⟨at0 live, .zhozha, 0, 0x030, by decide +kernel⟩,
   ⟨at0 live, .zhozha, pPAG, 0x110, by decide +kernel⟩,
   ⟨at0 latched, .zhozha, 0, 0x034, ⟨.zhozha, 0, 0x030, 0, 1000, false⟩, by decide +kernel⟩,
   ⟨at0 latched, .zhozha, ⟨.zhozha, 0, 0x030, 0, 1000, false⟩, by decide +kernel⟩,
   ⟨at0 live, .zhozha, 1, (pACN, 0x104), by decide +kernel⟩,
   ⟨at0 (stagedAt pACN 0x104), .zhozha, 1, (pACN, 0x108, Fld.ACN.RING_BASE_LO, Fld.ACN.RING_BASE_HI), ⟨.zhozha, pACN,
     0x104, 0, 1000⟩, by decide +kernel⟩,
   ⟨at0 (stagedAt pACN 0x104), .zhozha, ⟨.zhozha, pACN, 0x104, 0, 1000⟩, by decide +kernel⟩,
   ⟨at0 live, .zhozha, 0, 0x0E0, 4, by decide +kernel⟩⟩

/-- Every clause of HeaderCommandsComplete is met somewhere. -/
theorem test_header_commands_complete :
    (∃ (s : State) (o : Origin) (pg : Nat) (v : Word), outsideHold s ∧ served s.hub o pg 0x020 v.toNat) ∧
    (∃ (s : State) (o : Origin) (pg : Nat) (v : Word), outsideHold s ∧
      served s.hub o pg 0x018 v.toNat ∧ encodable s.hub o pg 0x018
      v.toNat) ∧
    (∃ (s : State) (o : Origin) (pg : Nat) (v : Word), outsideHold s ∧
      served s.hub o pg 0x01C v.toNat ∧ encodable s.hub o pg 0x01C
      v.toNat) ∧
    (∃ (s : State) (o : Origin) (pg : Nat), outsideHold s ∧ served s.hub o pg 0x024 1 ∧ encodable s.hub o pg 0x024 1) ∧
    (∃ (s : State) (o : Origin), outsideHold s ∧
      served s.hub o pPAG 0x104 (2 ^ 20) ∧ encodable s.hub o pPAG 0x104 (2 ^ 20)) ∧
    (∃ (s : State) (o : Origin) (pg : Nat) (v : Word), outsideHold s ∧ served s.hub o pg 0x040 v.toNat ∧ ((flag s.hub pg
      Fld.HDR.LOCK_STICKY = false ∨ fld s.hub pg Fld.HDR.LOCK_LEVEL ≤ bits v.toNat 0 2)) ∧ ((bits v.toNat 0 2 < 2 ∨
      bits v.toNat 0 2 = 2 ∧ clsOf o ≠ .f))) ∧
    (∃ (s : State) (o : Origin) (pg : Nat) (v : Word), outsideHold s ∧ served s.hub o pg 0x044 v.toNat) ∧
    (∃ (s : State) (b : Bay), outsideHold s ∧ (bayRt s.hub b.val).memSpaceEn = true) ∧
    (∃ (s : State) (o : Origin) (pg : Nat), outsideHold s ∧ served s.hub o pg 0x0E0 (wordAs s.hub .z pg 0x0E0 ||| 2)) :=
  ⟨⟨at0 live, .zhozha, pTUL, 1, by decide +kernel⟩,
   ⟨at0 live, .zhozha, pTUL, 0, by decide +kernel⟩,
   ⟨at0 live, .zhozha, pTUL, 1, by decide +kernel⟩,
   ⟨at0 live, .zhozha, pTUL, by decide +kernel⟩,
   ⟨at0 live, .zhozha, by decide +kernel⟩,
   ⟨at0 live, .zhozha, pTUL, 2, by decide +kernel⟩,
   ⟨at0 live, .zhozha, pTUL, 0x80, by decide +kernel⟩,
   ⟨at0 live, 0, by decide +kernel⟩,
   ⟨at0 live, .zhozha, pTUL, by decide +kernel⟩⟩

/-- Every clause of PrickingCommandsComplete is met somewhere. -/
theorem test_pricking_commands_complete :
    (∃ (s : State) (o : Origin), outsideHold s ∧
      served s.hub o pPRK 0x104 1 ∧ s.hub.mode.mode = .assemble ∧ flag s.hub pPRK
      Fld.PRK.STAT_FORMAT_BUSY = false) ∧
    (∃ (s : State) (o : Origin), outsideHold s ∧ served s.hub o pPRK 0x104 2) ∧
    (∃ (s : State), outsideHold s ∧ flag s.hub pPRK Fld.PRK.STAT_FLUSH_BUSY = true ∧ s.hub.prk.wbBuf = []) ∧
    (∃ (s : State) (line : LineAddr) (t : Txn) (h : Hub), outsideHold s ∧ headOf s.hub line = some t ∧ t.st = .look ∧
      (regionRead s.hub line).2 = 0 ∧ fillWay s.hub line (entWord s.hub (regionRead s.hub line).1) false = some h) ∧
    (∃ (s : State) (line : LineAddr) (t : Txn), outsideHold s ∧ headOf s.hub line = some t ∧ t.st = .look ∧
      (regionRead s.hub line).2 = 0 ∧ fillWay s.hub line (entWord s.hub (regionRead s.hub line).1) false = none) ∧
    (∃ (s : State) (line : LineAddr) (t : Txn) (h g : Hub) (b : Nat), outsideHold s ∧
      headOf s.hub line = some t ∧ t.st = .look ∧
      cancelledRead s.hub t.req = false ∧ fillWay s.hub line (entWord s.hub .uncached) false = some h ∧
      mgmtTake (noteRebuild (specDiscard h line) line 1) line = some (b, g)) ∧
    (∃ (s : State) (line : LineAddr) (t : Txn), outsideHold s ∧ headOf s.hub line = some t ∧ t.st = .mrd ∧
      s.hub.prk.spec.find? (fun x => x.line == line && !x.back) = none ∧
      (mediaLine s.hub (localKey s.hub line)).poison = false ∧
      wayDown s.hub (wayOfData s.hub (localKey s.hub line)) = false) ∧
    (∃ (s : State) (line : LineAddr) (x : Spec),
      s.hub.prk.spec.find? (fun y => y.line == line && !y.back) = some x ∧ x.discarded = true) ∧
    (∃ (s : State) (line : LineAddr) (t : Txn) (d : LineData) (p : Bool) (x : LineData) (h : Hub),
      headOf s.hub line = some t ∧ t.wdata = some (d, p) ∧ t.st = .mwr ∧ t.rebuild = false ∧ t.req.op = .wrFull x ∧
      writeMedia s.hub line d p true = (h, false)) ∧
    (∃ (s : State) (line : LineAddr) (t : Txn) (d : LineData) (p : Bool) (h : Hub), outsideHold s ∧
      headOf s.hub line = some t ∧
      t.wdata = some (d, p) ∧ t.st = .mwr ∧ t.rebuild = false ∧ t.req.op = .evict ∧
      writeMedia s.hub line d p true = (h, false)) ∧
    (∃ (s : State) (w : Nat), outsideHold s ∧ w ∉ s.hub.prk.timedOut) ∧
    (∃ (s : State) (i : Nat) (k : Nat) (w : Way), outsideHold s ∧ s.hub.prk.wbBuf[i]? = some (k, w) ∧
      wayDown s.hub (wayOfLma s.hub (entryLma s.hub k)) = false ∧ k ∉ s.hub.prk.bad) :=
  let wb := pricking live (fun p => { p with wbBuf := [(0, way0)] })
  let late := pricking live (fun p => { p with spec := [{ line := 0, back := false, discarded := true, bad := false }] })
  ⟨⟨at0 Hub.reset, .zhozha, by decide +kernel⟩,
   ⟨at0 live, .zhozha, by decide +kernel⟩,
   ⟨at0 (put live [(pPRK, Fld.PRK.STAT_FLUSH_BUSY, 1)]), by decide +kernel⟩,
   ⟨at0 looking, 0, txn .look .rdShared 320 [], hubOf (fillWay looking 0 word0 false), by decide +kernel⟩,
   ⟨at0 stuck, 0, txn .look .rdShared 320 [], by decide +kernel⟩,
   ⟨at0 looking, 0, txn .look .rdShared 320 [], unread, (rebuilding.map (·.2)).getD live, (rebuilding.map (·.1)).getD 0,
    by decide +kernel⟩,
   ⟨at0 (headed (txn .mrd .rdShared 320 [])), 0, txn .mrd .rdShared 320 [], by decide +kernel⟩,
   ⟨at0 late, 0, { line := 0, back := false, discarded := true, bad := false }, by decide +kernel⟩,
   ⟨at0 (headed (writing (.wrFull 0))), 0, writing (.wrFull 0), 0, false, 0,
    (writeMedia (headed (writing (.wrFull 0))) 0 0 false true).1, by decide +kernel⟩,
   ⟨at0 (headed (writing .evict)), 0, writing .evict, 0, false, (writeMedia (headed (writing .evict)) 0 0 false true).1,
    by decide +kernel⟩,
   ⟨at0 live, 0, by decide +kernel⟩,
   ⟨at0 wb, 0, 0, way0, by decide +kernel⟩⟩

/-- Every clause of EpochCommandsComplete is met somewhere. -/
theorem test_epoch_commands_complete :
    (∃ (s : State) (b : Bay) (hd : Hdr) (m : HelloMsg), outsideHold s ∧
      reaching s.hub b hd (.hello m) 0x60 ∧ (tlink (received s.hub b
      hd (.hello m)) b.val).hello ≠ some m) ∧
    (∃ (s : State) (b : Bay), outsideHold s ∧ tulleRuns s.hub = true ∧ (tlink s.hub b.val).up = true) ∧
    (∃ (s : State) (b : Bay) (hd : Hdr) (m : SpdmIn), outsideHold s ∧
      reaching s.hub b hd (.spdm m.packet) 0x61 ∧ 5 ≤ m.packet.length ∧
      m.packet.length ≤ 68) ∧
    (∃ (s : State) (b : Bay) (hd : Hdr) (seq : Nat) (links : List LsaLink), outsideHold s ∧
      reaching s.hub b hd (.lsa seq links) 0x62
      ∧ fromNode hd ≠ ownNode (received s.hub b hd (.lsa seq links)) ∧ seqNewer seq (nodeRt (received s.hub b hd (.lsa
      seq links)) (fromNode hd)).lsaSeq = true) ∧
    (∃ (s : State), outsideHold s ∧ tulleRuns s.hub = true ∧ s.hub.tulle.profile.isSome = true) ∧
    (∃ (s : State), outsideHold s ∧
      tulleRuns s.hub = true ∧ s.hub.tulle.changed = true ∧ quorumHeld s.hub = true ∧ (presentNodes
      s.hub).foldl min 128 = ownNode s.hub ∧ s.hub.tulle.own = none) ∧
    (∃ (s : State) (o : Origin), outsideHold s ∧ served s.hub o pHMAP 0x118 2 ∧ (stageDiffs s.hub).length ≤ 1024) ∧
    (∃ (s : State) (o : Origin), outsideHold s ∧ served s.hub o pHMAP 0x118 1) ∧
    (∃ (s : State) (b : Bay) (hd : Hdr) (m : ProposeMsg), outsideHold s ∧
      reaching s.hub b hd (.propose m) 0x63 ∧ (floodNew (received
      s.hub b hd (.propose m)) 0x63 (fromNode hd) m.epoch).2 = true) ∧
    (∃ (s : State) (b : Bay) (hd : Hdr) (epoch : Nat) (first : Nat) (es : List (Nat × HEntry)), outsideHold s ∧
      reaching s.hub b hd
      (.propMap epoch first es) 0x64 ∧ (floodNew (received s.hub b hd (.propMap epoch first es)) 0x64 (fromNode hd)
      (epoch * 1024 + first)).2 = true) ∧
    (∃ (s : State) (b : Bay) (hd : Hdr) (epoch : Nat) (o : OwnProp), outsideHold s ∧
      reaching s.hub b hd (.epoch epoch) 0x65 ∧
      (received s.hub b hd (.epoch epoch)).tulle.own = some o ∧ o.epoch = epoch ∧ o.committed = false) ∧
    (∃ (s : State) (b : Bay) (hd : Hdr) (epoch : Nat) (cause : Nat) (o : OwnProp), outsideHold s ∧
      reaching s.hub b hd (.refuse epoch
      cause) 0x66 ∧ (received s.hub b hd (.refuse epoch cause)).tulle.own = some o ∧ o.epoch = epoch ∧ o.committed =
      false) ∧
    (∃ (s : State) (o : OwnProp), outsideHold s ∧
      tulleRuns s.hub = true ∧ s.hub.tulle.own = some o ∧ o.committed = false) ∧
    (∃ (s : State) (b : Bay) (hd : Hdr) (epoch : Nat) (t : Nat), outsideHold s ∧
      reaching s.hub b hd (.commit epoch t) 0x67 ∧
      (floodNew (received s.hub b hd (.commit epoch t)) 0x67 (fromNode hd) epoch).2 = true) ∧
    (∃ (s : State) (ep : Nat) (t : Nat), outsideHold s ∧ s.hub.tulle.commitAt = some (ep, t)) :=
  ⟨⟨at0 live, 8, hdr 0x60, helloM, by decide +kernel⟩,
   ⟨at0 live, 8, by decide +kernel⟩,
   ⟨at0 live, 8, hdr 0x61, { packet := [1, 0, 0, 0, 0], final := false, authOk := false, serial := 0 }, by decide +kernel⟩,
   ⟨at0 live, 8, hdr 0x62, 1, [], by decide +kernel⟩,
   ⟨at0 live, by decide +kernel⟩,
   ⟨at0 (withTulle (fun t => { t with changed := true })), by decide +kernel⟩,
   ⟨at0 live, .zhozha, by decide +kernel⟩,
   ⟨at0 live, .zhozha, by decide +kernel⟩,
   ⟨at0 live, 8, hdr 0x63, propM, by decide +kernel⟩,
   ⟨at0 live, 8, hdr 0x64, 2, 0, [], by decide +kernel⟩,
   ⟨at0 (withTulle (fun t => { t with own := some ownProp })), 8, hdr 0x65, 2, ownProp, by decide +kernel⟩,
   ⟨at0 (withTulle (fun t => { t with own := some ownProp })), 8, hdr 0x66, 2, 1, ownProp, by decide +kernel⟩,
   ⟨at0 (withTulle (fun t => { t with own := some ownProp })), ownProp, by decide +kernel⟩,
   ⟨at0 live, 8, hdr 0x67, 2, 5000, by decide +kernel⟩,
   ⟨at0 (withTulle (fun t => { t with commitAt := some (2, 5000) })), 2, 5000, by decide +kernel⟩⟩

/-- Every clause of MembershipCommandsComplete is met somewhere. -/
theorem test_membership_commands_complete :
    (∃ (s : State) (b : Bay) (hd : Hdr) (epoch : Nat), outsideHold s ∧ reaching s.hub b hd (.epoch epoch) 0x68) ∧
    (∃ (s : State) (b : Bay) (hd : Hdr) (epoch : Nat) (ms : List Nat) (root : Option Nat) (count : Nat) (f : Fetch),
      reaching s.hub b hd (.mapState epoch ms root count) 0x6A ∧ (received s.hub b hd (.mapState epoch ms root
      count)).tulle.fetch = some f ∧ f.peer = fromNode hd) ∧
    (∃ (s : State) (b : Bay) (hd : Hdr) (epoch : Nat) (first : Nat) (es : List HEntry), outsideHold s ∧
      reaching s.hub b hd (.mapData
      epoch first es) 0x69) ∧
    (∃ (s : State) (b : Bay) (hd : Hdr) (n : Node) (t : Nat), outsideHold s ∧
      reaching s.hub b hd (.fence n.val t false) 0x6C ∧
      (floodNew (received s.hub b hd (.fence n.val t false)) 0x6C (fromNode hd) (n.val + 256 * t)).2 = true) ∧
    (∃ (s : State) (b : Bay) (hd : Hdr) (n : Node) (t : Nat), outsideHold s ∧
      reaching s.hub b hd (.fence n.val t true) 0x6C ∧
      (floodNew (received s.hub b hd (.fence n.val t true)) 0x6C (fromNode hd) (n.val + 128 + 256 * t)).2 = true) ∧
    (∃ (s : State) (n : Node), outsideHold s ∧
      tulleRuns s.hub = true ∧ (nodeRt s.hub n.val).fenced = true ∧ n.val = ownNode
      (unfenceNode (advanceTo s.hub ((nodeRt s.hub n.val).fencedAt + graceHc s.hub)) n.val) ∧ (unfenceNode (advanceTo s.hub
      ((nodeRt s.hub n.val).fencedAt + graceHc s.hub)) n.val).mode.mode ≠ .seal) ∧
    (∃ (s : State) (n : Node), outsideHold s ∧
      tulleRuns s.hub = true ∧ (nodeRt s.hub n.val).fenced = true ∧ n.val ≠ ownNode
      (unfenceNode (advanceTo s.hub ((nodeRt s.hub n.val).fencedAt + graceHc s.hub)) n.val) ∧ (nodeRt s.hub
      n.val).present = true) ∧
    (∃ (s : State) (b : Bay) (hd : Hdr) (t1 : Nat), outsideHold s ∧
      reaching s.hub b hd (.time t1 0 0) 0x70 ∧ flag (received s.hub b
      hd (.time t1 0 0)) pTIME Fld.TIME.STAT_NO_ROOT = false) ∧
    (∃ (s : State) (b : Bay) (hd : Hdr) (t1 : Nat) (t2 : Nat) (t3 : Nat) (root : Nat), outsideHold s ∧
      reaching s.hub b hd (.time t1
      t2 t3) 0x71 ∧ (received s.hub b hd (.time t1 t2 t3)).tulle.root = some root ∧ root ≠ ownNode (received s.hub b
      hd (.time t1 t2 t3)) ∧ fld (received s.hub b hd (.time t1 t2 t3)) pTIME Fld.TIME.ROOT_PARENT = fromNode hd) ∧
    (∃ (s : State) (b : Bay) (hd : Hdr) (m : HeartMsg), outsideHold s ∧
      reaching s.hub b hd (.heart m) 0x72 ∧ fromNode hd ≠ ownNode
      (received s.hub b hd (.heart m)) ∧ (profileNodes (received s.hub b hd (.heart m))).contains (fromNode hd) = true
      ∧ (nodeRt (received s.hub b hd (.heart m)) (fromNode hd)).dead = false ∧ seqNewer m.seq (nodeRt (received s.hub
      b hd (.heart m)) (fromNode hd)).hbSeq = true) ∧
    (∃ (s : State) (n : Node), outsideHold s ∧
      tulleRuns s.hub = true ∧ (nodeRt s.hub n.val).present = true ∧ n.val ≠ ownNode s.hub) :=
  ⟨⟨at0 live, 8, hdr 0x68, 1, by decide +kernel⟩,
   ⟨at0 (withTulle (fun t => { t with fetch := some fetch6 })), 8, hdr 0x6A, 1, [5, 6], none, 0, fetch6,
     by decide +kernel⟩,
   ⟨at0 live, 8, hdr 0x69, 1, 0, [], by decide +kernel⟩,
   ⟨at0 live, 8, hdr 0x6C, 7, 5000, by decide +kernel⟩,
   ⟨at0 live, 8, hdr 0x6C, 7, 5000, by decide +kernel⟩,
   ⟨at0 (withTulle (fun t => { t with nodes := [(5, { NodeRt.reset with fenced := true })] })), 5, by decide +kernel⟩,
   ⟨at0 (withTulle (fun t => { t with nodes := [(6, { NodeRt.reset with present := true, fenced := true })] })), 6,
     by decide +kernel⟩,
   ⟨at0 live, 8, hdr 0x70, 1, by decide +kernel⟩,
   ⟨at0 (put (withTulle (fun t => { t with root := some 6 })) [(pTIME, Fld.TIME.ROOT_PARENT, 6)]), 8, hdr 0x71, 1, 2,
     3, 6, by decide +kernel⟩,
   ⟨at0 live, 8, hdr 0x72, heartM, by decide +kernel⟩,
   ⟨at0 live, 6, by decide +kernel⟩⟩

/-- Every clause of CreditAndEgressCommandsComplete is met somewhere. -/
theorem test_credit_and_egress_commands_complete :
    (∃ (s : State) (b : Bay), outsideHold s ∧ (tlink s.hub b.val).up = true) ∧
    (∃ (s : State) (b : Bay), outsideHold s ∧
      (tlink s.hub b.val).up = true ∧ (tlink s.hub b.val).echoSent ≠ (tlink s.hub
      b.val).retSeen ∧ egressPick s.hub (tlink s.hub b.val) = none) ∧
    (∃ (s : State) (b : Bay) (line : LineAddr), outsideHold s ∧ (egressBay s.hub b.val).2 = some line) ∧
    (∃ (s : State) (b : Bay), outsideHold s ∧ (egressBay s.hub b.val).2 = none) :=
  ⟨⟨at0 live, 8, by decide +kernel⟩,
   ⟨at0 (modLink live 8 (fun l => { l with retSeen := [1, 0, 0, 0, 0, 0, 0, 0] })), 8, by decide +kernel⟩,
   ⟨at0 ({ live with bayOut := [(0, [bout0])] }), 0, 7, by decide +kernel⟩,
   ⟨at0 live, 0, by decide +kernel⟩⟩

/-- Every clause of HandoffCommandsComplete is met somewhere. -/
theorem test_handoff_commands_complete :
    (∃ (s : State) (b : Bay) (hd : Hdr) (g : Nat) (l : Nat), outsideHold s ∧
      reaching s.hub b hd (.handoff g 0 l 0 0) 0x6D) ∧
    (∃ (s : State) (b : Bay) (hd : Hdr) (g : Nat) (l : Nat), outsideHold s ∧
      reaching s.hub b hd (.handoff g 1 l 0 0) 0x6D ∧ handWith
      (received s.hub b hd (.handoff g 1 l 0 0)) (fromNode hd) g (fun a => a.st == .offer) = true) ∧
    (∃ (s : State) (b : Bay) (hd : Hdr) (g : Nat) (l : Nat), outsideHold s ∧
      reaching s.hub b hd (.handoff g 2 l 0 0) 0x6D ∧ handWith
      (received s.hub b hd (.handoff g 2 l 0 0)) (fromNode hd) g (fun a => a.st == .offer) = true) ∧
    (∃ (s : State) (b : Bay) (hd : Hdr) (g : Nat) (l : Nat) (n : Nat) (k : Nat), outsideHold s ∧
      reaching s.hub b hd (.handoff g 3 l n
      k) 0x6D) ∧
    (∃ (s : State) (b : Bay) (hd : Hdr) (g : Nat) (l : Nat), outsideHold s ∧
      reaching s.hub b hd (.handoff g 4 l 0 0) 0x6D ∧ handWith
      (received s.hub b hd (.handoff g 4 l 0 0)) (fromNode hd) g (fun a => a.st == .freeze && a.flushed) = true) ∧
    (∃ (s : State) (b : Bay) (hd : Hdr) (g : Nat) (l : Nat), outsideHold s ∧
      reaching s.hub b hd (.handoff g 5 l 0 0) 0x6D) ∧
    (∃ (s : State) (b : Bay) (hd : Hdr) (item : CopyItem) (x : HandB), outsideHold s ∧
      reaching s.hub b hd (.copy item) 0x6F ∧
      (received s.hub b hd (.copy item)).tulle.handB.find? (fun x => x.from_ == fromNode hd) = some x) ∧
    (∃ (s : State) (b : Bay) (hd : Hdr) (g : Nat) (mark : Bool) (es : List PsnEntry), outsideHold s ∧
      reaching s.hub b hd (.xfer g
      true mark es) 0x6E) ∧
    (∃ (s : State) (b : Bay) (hd : Hdr) (g : Nat) (es : List PsnEntry), outsideHold s ∧
      reaching s.hub b hd (.xfer g false false es)
      0x6E) ∧
    (∃ (s : State) (b : Bay) (hd : Hdr) (g : Nat) (es : List PsnEntry), outsideHold s ∧
      reaching s.hub b hd (.xfer g false true es)
      0x6E ∧ marked (received s.hub b hd (.xfer g false true es)) g = true) ∧
    (∃ (s : State) (b : Bay) (hd : Hdr) (g : Nat) (es : List PsnEntry), outsideHold s ∧
      reaching s.hub b hd (.xfer g false true es)
      0x6E ∧ marked (received s.hub b hd (.xfer g false true es)) g = false) ∧
    (∃ (s : State) (o : Origin) (us : Nat), outsideHold s ∧
      served s.hub o pMOD 0x114 (1 + 2 * us) ∧ 0 < us ∧ us ≤ 4000) ∧
    (∃ (s : State) (a : HandA), outsideHold s ∧ s.hub.tulle.handA = some a ∧ a.st = .copy) ∧
    (∃ (s : State) (a : HandA), outsideHold s ∧
      s.hub.tulle.handA = some a ∧ a.st = .freeze ∧ a.flushed = false ∧ s.hub.coh.chains.any
      (fun c => granuleOf c.1 == a.gran) = false) ∧
    (∃ (s : State) (a : HandA), outsideHold s ∧ s.hub.tulle.handA = some a ∧ a.st = .freeze) :=
  ⟨⟨at0 live, 8, hdr 0x6D, 0, 0, by decide +kernel⟩,
   ⟨at0 (withTulle (fun t => { t with handA := some (handTo .offer false) })), 8, hdr 0x6D, 0, 0, by decide +kernel⟩,
   ⟨at0 (withTulle (fun t => { t with handA := some (handTo .offer false) })), 8, hdr 0x6D, 0, 0, by decide +kernel⟩,
   ⟨at0 live, 8, hdr 0x6D, 0, 0, 0, 0, by decide +kernel⟩,
   ⟨at0 (withTulle (fun t => { t with handA := some (handTo .freeze true) })), 8, hdr 0x6D, 0, 0, by decide +kernel⟩,
   ⟨at0 live, 8, hdr 0x6D, 0, 0, by decide +kernel⟩,
   ⟨at0 (withTulle (fun t => { t with handB := [handFrom] })), 8, hdr 0x6F, .mark, handFrom, by decide +kernel⟩,
   ⟨at0 live, 8, hdr 0x6E, 0, false, [], by decide +kernel⟩,
   ⟨at0 live, 8, hdr 0x6E, 0, [], by decide +kernel⟩,
   ⟨at0 ({ live with psn := { live.psn with marks := [(0, ())] } }), 8, hdr 0x6E, 0, [], by decide +kernel⟩,
   ⟨at0 live, 8, hdr 0x6E, 0, [], by decide +kernel⟩,
   ⟨at0 live, .zhozha, 4000, by decide +kernel⟩,
   ⟨at0 (withTulle (fun t => { t with handA := some (handTo .copy false) })), handTo .copy false, by decide +kernel⟩,
   ⟨at0 (withTulle (fun t => { t with handA := some (handTo .freeze false) })), handTo .freeze false,
     by decide +kernel⟩,
   ⟨at0 (withTulle (fun t => { t with handA := some (handTo .freeze true) })), handTo .freeze true, by decide +kernel⟩⟩

/-- Every clause of PeerRequestsArrive is met somewhere. -/
theorem test_peer_requests_arrive :
    (∃ (s : State) (b : Bay) (hd : Hdr), outsideHold s ∧ requested s.hub b hd .none 1) ∧
    (∃ (s : State) (b : Bay) (hd : Hdr), outsideHold s ∧ requested s.hub b hd .none 2) ∧
    (∃ (s : State) (b : Bay) (hd : Hdr), outsideHold s ∧ requested s.hub b hd .none 3) ∧
    (∃ (s : State) (b : Bay) (hd : Hdr), outsideHold s ∧ requested s.hub b hd .none 4) ∧
    (∃ (s : State) (b : Bay) (hd : Hdr), outsideHold s ∧ requested s.hub b hd .none 5) ∧
    (∃ (s : State) (b : Bay) (hd : Hdr) (d : LineData), outsideHold s ∧ requested s.hub b hd (.line d) 6) ∧
    (∃ (s : State) (b : Bay) (hd : Hdr) (a : AtomicArg), outsideHold s ∧ requested s.hub b hd (.atomic a) 7) ∧
    (∃ (s : State) (b : Bay) (hd : Hdr) (d : LineData) (c c' : AgentId), outsideHold s ∧
      c = rlcAgent (bits hd.attr 16 7) ∧
      requested s.hub b hd (.stash d c) 8 ∧ c' = c') ∧
    (∃ (s : State) (b : Bay) (hd : Hdr) (d : LineData), outsideHold s ∧ requested s.hub b hd (.line d) 0x40) :=
  ⟨⟨at0 live, 8, hdr 1, by decide +kernel⟩,
   ⟨at0 live, 8, hdr 2, by decide +kernel⟩,
   ⟨at0 live, 8, hdr 3, by decide +kernel⟩,
   ⟨at0 live, 8, hdr 4, by decide +kernel⟩,
   ⟨at0 live, 8, hdr 5, by decide +kernel⟩,
   ⟨at0 live, 8, hdr 6, 0, by decide +kernel⟩,
   ⟨at0 live, 8, hdr 7, atom, by decide +kernel⟩,
   ⟨at0 live, 8, { hdr 8 with attr := 6 * 65536 }, 0, 446, 446, by decide +kernel⟩,
   ⟨at0 live, 8, hdr 0x40, 0, by decide +kernel⟩⟩

/-- Every clause of CoherenceRequestsServed is met somewhere. -/
theorem test_coherence_requests_served :
    (∃ (s : State) (line : LineAddr), outsideHold s ∧ headIs s.hub line 1) ∧
    (∃ (s : State) (line : LineAddr), outsideHold s ∧ headIs s.hub line 2) ∧
    (∃ (s : State) (line : LineAddr), outsideHold s ∧ headIs s.hub line 3) ∧
    (∃ (s : State) (line : LineAddr), outsideHold s ∧ headIs s.hub line 4) ∧
    (∃ (s : State) (line : LineAddr), outsideHold s ∧ headIs s.hub line 5) ∧
    (∃ (s : State) (line : LineAddr), outsideHold s ∧ headIs s.hub line 6) ∧
    (∃ (s : State) (line : LineAddr), outsideHold s ∧ headIs s.hub line 7) ∧
    (∃ (s : State) (line : LineAddr), outsideHold s ∧ headIs s.hub line 8) :=
  ⟨⟨at0 (headed (txn .ready .rdShared 446 [])), 0, by decide +kernel, rfl, rfl, rfl⟩,
   ⟨at0 (headed (txn .ready .rdAny 446 [])), 0, by decide +kernel, rfl, rfl, rfl⟩,
   ⟨at0 (headed (txn .ready .rdOwn 446 [])), 0, by decide +kernel, rfl, rfl, rfl⟩,
   ⟨at0 (headed (txn .ready .rdCur 446 [])), 0, by decide +kernel, rfl, rfl, rfl⟩,
   ⟨at0 (headed (txn .ready .upgrade 446 [])), 0, by decide +kernel, rfl, rfl, rfl⟩,
   ⟨at0 (headed (txn .ready (.wrFull 0) 446 [])), 0, by decide +kernel, rfl, rfl, rfl⟩,
   ⟨at0 (headed (txn .ready (.atomic atom) 446 [])), 0, by decide +kernel, rfl, rfl, rfl⟩,
   ⟨at0 (headed (txn .ready (.stash 0 446) 446 [])), 0, by decide +kernel, rfl, rfl, rfl⟩⟩

/-- Every clause of SnoopCommandsComplete is met somewhere. -/
theorem test_snoop_commands_complete :
    (∃ (s : State) (b : Bay) (hd : Hdr), outsideHold s ∧ (receive s.hub b.val hd .none true).2 = true ∧ hd.opc = 0x10 ∧
      reservedSrc hd.src = false ∧ hd.sized = true) ∧
    (∃ (s : State) (b : Bay) (hd : Hdr), outsideHold s ∧ (receive s.hub b.val hd .none true).2 = true ∧ hd.opc = 0x11 ∧
      reservedSrc hd.src = false ∧ hd.sized = true) ∧
    (∃ (s : State) (b : Bay) (hd : Hdr), outsideHold s ∧ (receive s.hub b.val hd .none true).2 = true ∧ hd.opc = 0x12 ∧
      reservedSrc hd.src = false ∧ hd.sized = true) ∧
    (∃ (s : State) (b : Bay) (hd : Hdr) (d : LineData), outsideHold s ∧ meant s.hub b hd (.line d) 0x32) :=
  ⟨⟨at0 live, 8, hdr 0x10, by decide +kernel⟩,
   ⟨at0 live, 8, hdr 0x11, by decide +kernel⟩,
   ⟨at0 live, 8, hdr 0x12, by decide +kernel⟩,
   ⟨at0 live, 8, hdr 0x32, 0, by decide +kernel⟩⟩

/-- Every clause of AnswerCommandsComplete is met somewhere. -/
theorem test_answer_commands_complete :
    (∃ (s : State) (b : Bay) (hd : Hdr), outsideHold s ∧
      meant s.hub b hd .none 0x20 ∧ forOpen (received s.hub b hd .none) hd ∧
      (homeAnswer (received s.hub b hd .none) hd.addr hd.src .rspI).isSome = true) ∧
    (∃ (s : State) (b : Bay) (hd : Hdr), outsideHold s ∧
      meant s.hub b hd .none 0x21 ∧ forOpen (received s.hub b hd .none) hd ∧
      (homeAnswer (received s.hub b hd .none) hd.addr hd.src .rspS).isSome = true) ∧
    (∃ (s : State) (b : Bay) (hd : Hdr), outsideHold s ∧ meant s.hub b hd .none 0x22 ∧ hd.attr % 8 ≤ 1 ∧
      forOpen (received s.hub b hd .none) hd ∧
      (homeAnswer (received s.hub b hd .none) hd.addr hd.src (.fwd (hd.attr % 8 == 1))).isSome = true) ∧
    (∃ (s : State) (b : Bay) (hd : Hdr) (d : LineData), outsideHold s ∧
      (receive s.hub b.val hd (.line d) true).2 = true ∧ hd.opc = 0x41 ∧
      reservedSrc hd.src = false ∧ hd.sized = true ∧
      (receive s.hub b.val hd (.line d) true).1.coh.staging.all (fun x => x.req.line != hd.addr) = true ∧
      forOpen (oweCredits (receive s.hub b.val hd (.line d) true).1 b.val 4 5) hd ∧ hd.attr % 8 ≤ 1 ∧
      (homeAnswer (oweCredits (receive s.hub b.val hd (.line d) true).1 b.val 4 5) hd.addr hd.src
        (if bit hd.attr 3 then .fwdWb (hd.attr % 8 == 1) d hd.poison else .wb (hd.attr % 8 == 1) d hd.poison
        (BitVec.allOnes 64))).isSome = true) ∧
    (∃ (s : State) (b : Bay) (hd : Hdr), outsideHold s ∧
      meant s.hub b hd .none 0x24 ∧ forOpen (received s.hub b hd .none) hd ∧
      (homeAck (received s.hub b hd .none) hd.addr hd.src).isSome = true) ∧
    (∃ (s : State) (b : Bay) (hd : Hdr), outsideHold s ∧
      meant s.hub b hd .none 0x25 ∧ forOpen (received s.hub b hd .none) hd ∧
      (homeStashAck (received s.hub b hd .none) hd.addr hd.src (bit hd.attr 0)).isSome = true) :=
  ⟨⟨at0 (headed (txn .inv .rdOwn 320 [446])), 8, hdr 0x20, by decide +kernel⟩,
   ⟨at0 (headed (txn .sdat .rdOwn 320 [446])), 8, hdr 0x21, by decide +kernel⟩,
   ⟨at0 (headed (txn .fwdw .rdOwn 320 [446])), 8, hdr 0x22, by decide +kernel⟩,
   ⟨at0 (headed (txn .sdat .rdOwn 320 [446])), 8, hdr 0x41, 0, by decide +kernel⟩,
   ⟨at0 (headed (txn .ackw .rdOwn 446 [])), 8, hdr 0x24, by decide +kernel⟩,
   ⟨at0 (headed (txn .push .rdOwn 320 [446])), 8, hdr 0x25, by decide +kernel⟩⟩

/-- Every clause of RequesterCommandsComplete is met somewhere. -/
theorem test_requester_commands_complete :
    (∃ (s : State) (b : Bay) (hd : Hdr) (d : LineData), outsideHold s ∧
      meant s.hub b hd (.line d) 0x30 ∧ mapGet? (received s.hub b hd
      (.line d)).coh.outs hd.addr = none ∧ (rlcData (received s.hub b hd (.line d)) hd.addr (agentNode hd.src) hd.tag
      d hd.poison (hd.attr % 8) (bit hd.attr 3) false).isSome = true) ∧
    (∃ (s : State) (b : Bay) (hd : Hdr) (d : LineData) (r : Req), outsideHold s ∧
      meant s.hub b hd (.line d) 0x30 ∧ mapGet? (received
      s.hub b hd (.line d)).coh.outs hd.addr = some r ∧ readOp r.op = true ∧ hd.attr % 8 = 0) ∧
    (∃ (s : State) (b : Bay) (hd : Hdr) (d : LineData), outsideHold s ∧
      meant s.hub b hd (.line d) 0x50 ∧ mapGet? (received s.hub b hd
      (.line d)).coh.outs hd.addr = none ∧ (rlcData (received s.hub b hd (.line d)) hd.addr (homeNode (received s.hub
      b hd (.line d)) hd.addr) hd.tag d hd.poison (hd.attr % 8) false true).isSome = true) ∧
    (∃ (s : State) (b : Bay) (hd : Hdr), outsideHold s ∧
      meant s.hub b hd .none 0x23 ∧ mapGet? (received s.hub b hd .none).coh.outs
      hd.addr = none ∧ (rlcCmp (received s.hub b hd .none) hd.addr (agentNode hd.src) hd.tag (hd.attr % 8) (bit
      hd.attr 3)).isSome = true) ∧
    (∃ (s : State) (b : Bay) (hd : Hdr) (r : Req) (d : LineData), outsideHold s ∧
      meant s.hub b hd .none 0x23 ∧ mapGet? (received
      s.hub b hd .none).coh.outs hd.addr = some r ∧ r.op = .wrFull d) ∧
    (∃ (s : State) (b : Bay) (hd : Hdr) (r : Req) (d : LineData) (c : AgentId), outsideHold s ∧
      meant s.hub b hd .none 0x23 ∧ mapGet?
      (received s.hub b hd .none).coh.outs hd.addr = some r ∧ r.op = .stash d c) ∧
    (∃ (s : State) (b : Bay) (hd : Hdr) (old : BitVec 64) (st : Nat) (r : Req) (a : AtomicArg), outsideHold s ∧
      meant s.hub b hd
      (.word (old.toNat + 2 ^ 64 * st)) 0x31 ∧ mapGet? (received s.hub b hd (.word (old.toNat + 2 ^ 64 *
      st))).coh.outs hd.addr = some r ∧ r.op = .atomic a) :=
  ⟨⟨at0 (missing .isd), 8, hdr1 0x30 1, 0, by decide +kernel⟩,
   ⟨at0 (outFor .rdShared), 8, hdr1 0x30 0, 0, req 383 .rdShared, by decide +kernel⟩,
   ⟨at0 (missing .isd), 8, hdr1 0x50 1, 0, by decide +kernel⟩,
   ⟨at0 (missing .mia), 8, hdr1 0x23 0, by decide +kernel⟩,
   ⟨at0 (outFor (.wrFull 0)), 8, hdr1 0x23 0, req 383 (.wrFull 0), 0, by decide +kernel⟩,
   ⟨at0 (outFor (.stash 0 446)), 8, hdr1 0x23 0, req 383 (.stash 0 446), 0, 446, by decide +kernel⟩,
   ⟨at0 (outFor (.atomic atom)), 8, hdr1 0x31 0, 1, 0, req 383 (.atomic atom), atom, by decide +kernel⟩⟩

/-- Every clause of HostMemoryCommandsComplete is met somewhere. -/
theorem test_host_memory_commands_complete :
    (∃ (s : State) (b : Bay) (hpa : Nat) (line : LineAddr), outsideHold s ∧ hostTakes s.hub b hpa line) ∧
    (∃ (s : State) (b : Bay), outsideHold s ∧ modeRejects s.hub (bayAgent s.hub b.val) = false) ∧
    (∃ (s : State) (b : Bay) (line : LineAddr) (shared : Bool), outsideHold s ∧
      hostOk s.hub b.val = true ∧ agentDead s.hub (bayAgent
      s.hub b.val) = false ∧ (localAnswer (takeWrites s.hub line (bayAgent s.hub b.val)).1 line (bayAgent s.hub b.val)
      shared (takeWrites s.hub line (bayAgent s.hub b.val)).2).isSome = true) ∧
    (∃ (s : State) (b : Bay) (line : LineAddr), outsideHold s ∧
      hostOk s.hub b.val = true ∧ snoopOut s.hub line (bayAgent s.hub b.val)
      = true) ∧
    (∃ (s : State) (b : Bay), outsideHold s ∧ b.val ∈ memBays s.hub 1 ∧ hostWritesDone s.hub b.val = true) ∧
    (∃ (s : State) (b : Bay), outsideHold s ∧ s.hub.mode.sealPhase = 5 ∧ b.val ∈ memBays s.hub 2) ∧
    (∃ (s : State) (b : Bay), outsideHold s ∧ hostOk s.hub b.val = true) :=
  ⟨⟨at0 live, 0, 0xFFFFFF, 0xFFFFFF, by decide +kernel⟩,
   ⟨at0 live, 0, by decide +kernel⟩,
   ⟨at0 (headed (txn .inv .rdOwn 446 [320])), 0, 0, false, by decide +kernel⟩,
   ⟨at0 (headed (txn .inv .rdOwn 446 [320])), 0, 0, by decide +kernel⟩,
   ⟨at0 live, 0, by decide +kernel⟩,
   ⟨at0 ({ live with mode := { live.mode with sealPhase := 5 } }), 4, by decide +kernel⟩,
   ⟨at0 live, 0, by decide +kernel⟩⟩

/-- Every clause of DeviceCacheCommandsComplete is met somewhere. -/
theorem test_device_cache_commands_complete :
    (∃ (s : State) (b : Bay) (line : LineAddr), outsideHold s ∧ devTakes s.hub b line) ∧
    (∃ (s : State) (b : Bay) (line : LineAddr) (mask : BitVec 64), outsideHold s ∧
      devTakes s.hub b line ∧ mask ≠ BitVec.allOnes 64) ∧
    (∃ (s : State) (b : Bay), outsideHold s ∧
      devOk s.hub b.val = true ∧ modeRejects s.hub (bayAgent s.hub b.val) = false) ∧
    (∃ (s : State) (b : Bay) (line : LineAddr), outsideHold s ∧
      devOk s.hub b.val = true ∧ agentDead s.hub (bayAgent s.hub b.val) =
      false ∧ (localAnswer s.hub line (bayAgent s.hub b.val) false none).isSome = true) ∧
    (∃ (s : State) (b : Bay) (line : LineAddr), outsideHold s ∧
      devOk s.hub b.val = true ∧ agentDead s.hub (bayAgent s.hub b.val) =
      false ∧ (localAnswer s.hub line (bayAgent s.hub b.val) true none).isSome = true) ∧
    (∃ (s : State) (b : Bay) (line : LineAddr) (d : LineData) (poison : Bool), outsideHold s ∧
      devOk s.hub b.val = true ∧ agentDead
      s.hub (bayAgent s.hub b.val) = false ∧ (localAnswer s.hub line (bayAgent s.hub b.val) false (some (d,
      BitVec.allOnes 64, poison))).isSome = true) ∧
    (∃ (s : State) (b : Bay) (line : LineAddr) (d : LineData) (poison : Bool), outsideHold s ∧
      devOk s.hub b.val = true ∧ agentDead
      s.hub (bayAgent s.hub b.val) = false ∧ (localAnswer s.hub line (bayAgent s.hub b.val) true (some (d,
      BitVec.allOnes 64, poison))).isSome = true) ∧
    (∃ (s : State) (b : Bay) (line : LineAddr) (d : LineData) (poison : Bool), outsideHold s ∧
      devOk s.hub b.val = true ∧ agentDead
      s.hub (bayAgent s.hub b.val) = false ∧ (homePulled s.hub line (bayAgent s.hub b.val) d poison).isSome = true) :=
  ⟨⟨at0 live, 4, 0, by decide +kernel⟩,
   ⟨at0 live, 4, 0, 0, by decide +kernel⟩,
   ⟨at0 live, 4, by decide +kernel⟩,
   ⟨at0 (headed (txn .inv .rdOwn 446 [324])), 4, 0, by decide +kernel⟩,
   ⟨at0 (headed (txn .sdat .rdOwn 446 [324])), 4, 0, by decide +kernel⟩,
   ⟨at0 (headed (txn .inv .rdOwn 446 [324])), 4, 0, 0, false, by decide +kernel⟩,
   ⟨at0 (headed (txn .sdat .rdOwn 446 [324])), 4, 0, 0, false, by decide +kernel⟩,
   ⟨at0 (headed (txn .pull (.wrFull 0) 324 [])), 4, 0, 0, false, by decide +kernel⟩⟩

/-- Every clause of QueueCommandsComplete is met somewhere. -/
theorem test_queue_commands_complete :
    (∃ (s : State) (o : Origin) (v : Word), outsideHold s ∧
      served s.hub o pQCTL 0x104 v.toNat ∧ (((queue s.hub (fld s.hub pQCTL
      Fld.QCTL.QSEL)).st = .unassigned ∨ (queue s.hub (fld s.hub pQCTL Fld.QCTL.QSEL)).st = .idle ∨ (queue s.hub (fld
      s.hub pQCTL Fld.QCTL.QSEL)).st = .stopped)) ∧ opsOf s.hub (fld s.hub pQCTL Fld.QCTL.QSEL) = []) ∧
    (∃ (s : State) (o : Origin) (q : Nat) (u : DbUnit), outsideHold s ∧
      q < 16384 ∧ decodes s.hub o = true ∧ ringsQueue s.hub o q =
      true ∧ u.setup = false ∧ (queue s.hub q).st = .enabled ∧ u.zeroOk = true ∧ ((u.sqValid = false ∨ sub32 (queue
      s.hub q).tail (queue s.hub q).accept ≤ sub32 u.sqTail (queue s.hub q).accept ∧ sub32 u.sqTail (queue s.hub
      q).accept ≤ 2 ^ (queue s.hub q).sqLog2)) ∧ ((u.cqValid = false ∨ sub32 u.cqHead (queue s.hub q).head ≤ sub32
      (queue s.hub q).complete (queue s.hub q).head))) ∧
    (∃ (s : State) (o : Origin) (q : Nat) (u : DbUnit), outsideHold s ∧
      q < 16384 ∧ decodes s.hub o = true ∧ ringsQueue s.hub o q =
      true ∧ u.setup = true ∧ mgmtQueue q = true ∧ (((queue s.hub q).st = .idle ∨ (queue s.hub q).st = .stopped)) ∧
      opsOf s.hub q = [] ∧ u.zeroOk = true ∧ ringsOk u.sqLog2 u.cqLog2 u.sqBase u.cqBase = true ∧ u.vector < 2048) ∧
    (∃ (s : State) (o : Origin) (q : Nat), outsideHold s ∧
      q < 16384 ∧ decodes s.hub o = true ∧ ringsQueue s.hub o q = true ∧ (queue
      s.hub q).st = .enabled ∧ sub32 (queue s.hub q).tail (queue s.hub q).accept < 2 ^ (queue s.hub q).sqLog2 ∧ (queue
      s.hub q).pushed.length < 4) ∧
    (∃ (s : State) (q : Nat) (tok : Nat) (e : BitVec 512), outsideHold s ∧
      queueReady (queue s.hub q) = true ∧ tokensHeld s.hub < 1024
      ∧ turnOther s.hub s.ram q = false ∧ heldEntry s.ram (queue s.hub q) = some e ∧ modeAccepts s.hub q e = true ∧
      s.hub.scb.boot = 2 ∧ ringFree439 s.hub = true ∧ (durableClass q e && durBlocked s.hub) = false ∧ freeTok 1024
      s.hub.mov.toks 0 = some tok) ∧
    (∃ (s : State) (q : Nat) (tok : Nat) (entry : BitVec 512) (h1 : Hub), outsideHold s ∧
      queueReady (queue s.hub q) = true ∧
      tokensHeld s.hub < 1024 ∧ turnOther s.hub s.ram q = false ∧ heldEntry s.ram (queue s.hub q) = none ∧ sqRead
      s.hub q = (h1, true) ∧ modeAccepts h1 q entry = true ∧ h1.scb.boot = 2 ∧ ringFree439 h1 = true ∧ (durableClass q
      entry && durBlocked h1) = false ∧ freeTok 1024 h1.mov.toks 0 = some tok) :=
  ⟨⟨at0 live, .zhozha, 0x80, by decide +kernel⟩,
   ⟨at0 (moving [(0, queueOf .enabled true)] []), .zhozha, 0, dbu false, by decide +kernel⟩,
   ⟨at0 (moving [(0, queueOf .idle true)] []), .zhozha, 0, dbu true, by decide +kernel⟩,
   ⟨at0 (moving [(0, queueOf .enabled true)] []), .zhozha, 0, by decide +kernel⟩,
   ⟨at0 (moving [(0, { queueOf .enabled true with tail := 1, pushed := [(0, 0)] })] []), 0, 0, 0, by decide +kernel⟩,
   ⟨at0 ringing, 0, 0, 0, (sqRead ringing 0).1, by decide +kernel⟩⟩

/-- Every clause of MoverCommandsComplete is met somewhere. -/
theorem test_mover_commands_complete :
    (∃ (s : State) (t : OpStep), outsideHold s ∧ onStream s.hub t.tok 1 = true) ∧
    (∃ (s : State) (t : OpStep), outsideHold s ∧ onStream s.hub t.tok 2 = true) ∧
    (∃ (s : State) (t : OpStep), outsideHold s ∧ onStream s.hub t.tok 3 = true) ∧
    (∃ (s : State) (t : OpStep), outsideHold s ∧ onStream s.hub t.tok 4 = true) ∧
    (∃ (s : State) (t : OpStep), outsideHold s ∧ onStream s.hub t.tok 5 = true) ∧
    (∃ (s : State) (t : OpStep), outsideHold s ∧ onStream s.hub t.tok 6 = true) ∧
    (∃ (s : State) (tok : Nat) (o : Op), outsideHold s ∧ adviseTurn s.hub tok 0 o) ∧
    (∃ (s : State) (tok : Nat) (o : Op), outsideHold s ∧ adviseTurn s.hub tok 1 o ∧ o.begun = false) ∧
    (∃ (s : State) (tok : Nat) (o : Op), outsideHold s ∧ adviseTurn s.hub tok 2 o ∧ o.begun = false) ∧
    (∃ (s : State) (tok : Nat) (o : Op), outsideHold s ∧ adviseTurn s.hub tok 3 o ∧ o.begun = false) ∧
    (∃ (s : State) (t : OpStep) (o : Op), outsideHold s ∧
      opOf s.hub t.tok = some o ∧ onStream s.hub t.tok 8 = true ∧ o.begun = true) ∧
    (∃ (s : State) (t : OpStep) (o : Op) (i : Nat), outsideHold s ∧
      opOf s.hub t.tok = some o ∧ onStream s.hub t.tok 8 = true ∧
      o.begun = false ∧ o.fail = none ∧ o.aborted = false ∧ (List.range 16).find? (fun i => (mapGet? s.hub.xlt.holds
      i).isNone) = some i) ∧
    (∃ (s : State) (g : Fin 4) (tok : Nat) (m : Nat) (o : Op), outsideHold s ∧
      groupHead s.hub g.val = some tok ∧ domState s.hub (12 +
      g.val) = 0 ∧ ((s.hub.mode.mode = .serve ∨ s.hub.mode.mode = .drain)) ∧ s.hub.mode.toMaintain = false ∧ pickMover
      s.hub g.val = some m ∧ opOf s.hub tok = some o) ∧
    (∃ (s : State) (tok : Nat) (o : Op), outsideHold s ∧
      opOf s.hub tok = some o ∧ mayPost s.hub tok o = true ∧ (queue s.hub o.q).int
      = true) ∧
    (∃ (s : State) (tok : Nat) (o : Op), outsideHold s ∧
      opOf s.hub tok = some o ∧ mayPost s.hub tok o = true ∧ (queue s.hub o.q).int
      = false ∧ mgmtQueue o.q = true ∧ quadOpen s.hub (queue s.hub o.q).bay = true) ∧
    (∃ (s : State) (o : Origin) (m : Mover) (v : Word), outsideHold s ∧
      served s.hub o (pMOV m.val) 0x100 v.toNat ∧ encodable s.hub o
      (pMOV m.val) 0x100 v.toNat) :=
  ⟨⟨at0 (streaming 1), step0, by decide +kernel⟩,
   ⟨at0 (streaming 2), step0, by decide +kernel⟩,
   ⟨at0 (streaming 3), step0, by decide +kernel⟩,
   ⟨at0 (streaming 4), step0, by decide +kernel⟩,
   ⟨at0 (streaming 5), step0, by decide +kernel⟩,
   ⟨at0 (streaming 6), step0, by decide +kernel⟩,
   ⟨at0 (streaming (entryOf 7 0)), 0, opIn (.stream 0 0) (entryOf 7 0), by decide +kernel⟩,
   ⟨at0 (streaming (entryOf 7 1)), 0, opIn (.stream 0 0) (entryOf 7 1), by decide +kernel⟩,
   ⟨at0 (streaming (entryOf 7 2)), 0, opIn (.stream 0 0) (entryOf 7 2), by decide +kernel⟩,
   ⟨at0 (streaming (entryOf 7 3)), 0, opIn (.stream 0 0) (entryOf 7 3), by decide +kernel⟩,
   ⟨at0 (moving [(0, queueOf .enabled false)] [(0, { opIn (.stream 0 0) 8 with begun := true })]), step0,
     { opIn (.stream 0 0) 8 with begun := true }, by decide +kernel⟩,
   ⟨at0 (streaming 8), step0, opIn (.stream 0 0) 8, 0, by decide +kernel⟩,
   ⟨at0 dispatching, 0, 0, 0, opIn .queued 1, by decide +kernel⟩,
   ⟨at0 (moving [(0, queueOf .enabled true)] [(0, opIn .done 1)]), 0, opIn .done 1, by decide +kernel⟩,
   ⟨at0 (moving [(0, queueOf .enabled false)] [(0, opIn .done 1)]), 0, opIn .done 1, by decide +kernel⟩,
   ⟨at0 live, .zhozha, 0, 1, by decide +kernel⟩⟩

/-- Every clause of ManagementCommandsComplete is met somewhere. -/
theorem test_management_commands_complete :
    (∃ (s : State) (tok : Nat) (o : Op), outsideHold s ∧ mgmtTurn s.hub tok 0x40 o) ∧
    (∃ (s : State) (tok : Nat) (o : Op) (base : Nat) (i : Nat), outsideHold s ∧
      mgmtTurn s.hub tok 0x41 o ∧ (if (queue s.hub o.q).int
      then resolveInternal s.hub (eB o.entry 8 8) (eB o.entry 16 8 / 64) else resolveHpa s.hub (queue s.hub o.q).bay
      (eB o.entry 8 8 / 64) (eB o.entry 16 8 / 64)) = some base ∧ freeReach 65536 s.hub.mov.reach 0 = some i ∧ i <
      65536) ∧
    (∃ (s : State) (tok : Nat) (o : Op), outsideHold s ∧
      mgmtTurn s.hub tok 0x42 o ∧ hNode (eB o.entry 8 4) = ownNode s.hub ∧ hIdx (eB
      o.entry 8 4) < 65536 ∧ (reachOf s.hub (hIdx (eB o.entry 8 4))).valid = true ∧ (reachOf s.hub (hIdx (eB o.entry 8
      4))).gen = hGen (eB o.entry 8 4) ∧ (reachOf s.hub (hIdx (eB o.entry 8 4))).bay = ownerCode (queue s.hub o.q)) ∧
    (∃ (s : State) (tok : Nat) (o : Op), outsideHold s ∧
      mgmtTurn s.hub tok 0x43 o ∧ mgmtQueue (eB o.entry 8 2) = false ∧ eB o.entry 8
      2 < 16384 ∧ ownerCode (queue s.hub (eB o.entry 8 2)) = ownerCode (queue s.hub o.q) ∧ (queue s.hub (eB o.entry 8
      2)).int = (queue s.hub o.q).int ∧ (((queue s.hub (eB o.entry 8 2)).st = .idle ∨ (queue s.hub (eB o.entry 8
      2)).st = .stopped)) ∧ opsOf s.hub (eB o.entry 8 2) = []) ∧
    (∃ (s : State) (tok : Nat) (o : Op), outsideHold s ∧
      mgmtTurn s.hub tok 0x44 o ∧ eB o.entry 8 2 < 16384 ∧ ownerCode (queue s.hub
      (eB o.entry 8 2)) = ownerCode (queue s.hub o.q) ∧ (queue s.hub (eB o.entry 8 2)).int = (queue s.hub o.q).int ∧
      (queue s.hub (eB o.entry 8 2)).st = .enabled) ∧
    (∃ (s : State) (tok : Nat) (o : Op), outsideHold s ∧
      mgmtTurn s.hub tok 0x45 o ∧ eB o.entry 8 2 < 16384 ∧ ownerCode (queue s.hub
      (eB o.entry 8 2)) = ownerCode (queue s.hub o.q) ∧ (queue s.hub (eB o.entry 8 2)).int = (queue s.hub o.q).int ∧
      (queue s.hub (eB o.entry 8 2)).st ≠ .unassigned) ∧
    (∃ (s : State) (tok : Nat) (o : Op), outsideHold s ∧
      mgmtTurn s.hub tok 0x50 o ∧ s.hub.xlt.binds.length < 1024 ∧ mapGet?
      s.hub.xlt.binds (ownerCode (queue s.hub o.q) * 2 ^ 20 + eB o.entry 8 3 % 2 ^ 20) = none ∧ hNode (eB o.entry 12
      4) = ownNode s.hub ∧ hIdx (eB o.entry 12 4) < 65536 ∧ (reachOf s.hub (hIdx (eB o.entry 12 4))).valid = true ∧
      (reachOf s.hub (hIdx (eB o.entry 12 4))).bay = ownerCode (queue s.hub o.q)) ∧
    (∃ (s : State) (tok : Nat) (o : Op), outsideHold s ∧ mgmtTurn s.hub tok 0x51 o) ∧
    (∃ (s : State) (tok : Nat) (o : Op) (f : FaultE), outsideHold s ∧
      mgmtTurn s.hub tok 0x52 o ∧ mapGet? s.hub.xlt.faults (eB o.entry
      8 1) = some f ∧ f.mirror = true ∧ f.bay = ownerCode (queue s.hub o.q)) ∧
    (∃ (s : State) (tok : Nat) (o : Op), outsideHold s ∧ mgmtTurn s.hub tok 0x53 o) ∧
    (∃ (s : State) (tok : Nat) (o : Op), outsideHold s ∧
      mgmtTurn s.hub tok 0x54 o ∧ (mapGet? s.hub.xlt.binds (ownerCode (queue s.hub
      o.q) * 2 ^ 20 + eB o.entry 8 3 % 2 ^ 20)).isSome = true) :=
  ⟨⟨at0 (managing .idle (BitVec.ofNat 512 (0x40))), 0, opIn .mgmt (BitVec.ofNat 512 (0x40)), by decide +kernel⟩,
   ⟨at0 (managing .idle (BitVec.ofNat 512 (0x41 + 64 * 2 ^ 128))), 0, opIn .mgmt (BitVec.ofNat 512 (0x41 + 64 * 2 ^
     128)), 0, 0, by decide +kernel⟩,
   ⟨at0 (reaching0 (BitVec.ofNat 512 (0x42 + handle0 * 2 ^ 64))), 0, opIn .mgmt (BitVec.ofNat 512 (0x42 + handle0 * 2
     ^ 64)), by decide +kernel⟩,
   ⟨at0 (managing .idle (BitVec.ofNat 512 (0x43 + 64 * 2 ^ 64))), 0, opIn .mgmt (BitVec.ofNat 512 (0x43 + 64 * 2 ^
     64)), by decide +kernel⟩,
   ⟨at0 (managing .enabled (BitVec.ofNat 512 (0x44 + 64 * 2 ^ 64))), 0, opIn .mgmt (BitVec.ofNat 512 (0x44 + 64 * 2 ^
     64)), by decide +kernel⟩,
   ⟨at0 (managing .idle (BitVec.ofNat 512 (0x45 + 64 * 2 ^ 64))), 0, opIn .mgmt (BitVec.ofNat 512 (0x45 + 64 * 2 ^
     64)), by decide +kernel⟩,
   ⟨at0 (reaching0 (BitVec.ofNat 512 (0x50 + handle0 * 2 ^ 96))), 0, opIn .mgmt (BitVec.ofNat 512 (0x50 + handle0 * 2
     ^ 96)), by decide +kernel⟩,
   ⟨at0 (managing .idle (BitVec.ofNat 512 (0x51))), 0, opIn .mgmt (BitVec.ofNat 512 (0x51)), by decide +kernel⟩,
   ⟨at0 ({ managing .idle (BitVec.ofNat 512 (0x52)) with xlt := { Xlt.reset with faults := [(0, faultOf true)] } }),
     0, opIn .mgmt (BitVec.ofNat 512 (0x52)), faultOf true, by decide +kernel⟩,
   ⟨at0 (managing .idle (BitVec.ofNat 512 (0x53))), 0, opIn .mgmt (BitVec.ofNat 512 (0x53)), by decide +kernel⟩,
   ⟨at0
     ({ managing .idle (BitVec.ofNat 512 (0x54)) with xlt := { Xlt.reset with binds := [(0, { handle := handle0, root := 0, ctx := 1 })] } }),
     0, opIn .mgmt (BitVec.ofNat 512 (0x54)), by decide +kernel⟩⟩

/-- Every clause of TranslationCommandsComplete is met somewhere. -/
theorem test_translation_commands_complete :
    (∃ (s : State) (slot : Nat) (rd : Bool) (w : Bool) (x : Xlat), outsideHold s ∧
      mapGet? s.hub.xlt.slots slot = some x ∧ x.mirror = false ∧ (if x.write then w else rd) = true) ∧
    (∃ (s : State) (slot : Nat) (x : Xlat), outsideHold s ∧ mapGet? s.hub.xlt.slots slot = some x ∧ x.mirror = false) ∧
    (∃ (s : State) (slot : Nat) (size : Nat) (pa : Nat) (w : Bool) (x : Xlat) (r : MRes), outsideHold s ∧
      mapGet? s.hub.xlt.slots slot
      = some x ∧ s.hub.coh.mres.find? (fun r => r.tok == 1024 + slot) = some r ∧ r.poison = false ∧ tableEntry x.level
      (bits r.data.toNat (64 * (x.off / 8 % 8)) 64) x.write = .leaf size pa w) ∧
    (∃ (s : State) (b : Bay) (idx : Nat) (f : FaultE), outsideHold s ∧
      mapGet? s.hub.xlt.faults idx = some f ∧ f.mirror = false ∧
      f.bay = b.val) ∧
    (∃ (s : State) (idx : Nat), outsideHold s ∧ mapGet? s.hub.xlt.faults idx = none) ∧
    (∃ (s : State) (idx : Nat) (f : FaultE), outsideHold s ∧ mapGet? s.hub.xlt.faults idx = some f) ∧
    (∃ (s : State) (b : Bay), outsideHold s ∧ bayUp s.hub b.val = true) ∧
    (∃ (s : State), outsideHold s ∧ s.hub.xlt.run = none ∧ s.hub.xlt.invs ≠ []) ∧
    (∃ (s : State) (v : Inv) (t : Nat), outsideHold s ∧ s.hub.xlt.run = some (v, t, false)) ∧
    (∃ (s : State) (v : Inv) (t : Nat) (tag : Nat), outsideHold s ∧
      s.hub.xlt.run = some (v, t, true) ∧ readsOut s.hub v = false ∧
      v.src = .host tag) ∧
    (∃ (s : State) (v : Inv) (t : Nat) (seq : Nat) (k : Nat) (o : Op), outsideHold s ∧
      s.hub.xlt.run = some (v, t, true) ∧ readsOut
      s.hub v = false ∧ v.src = .op seq ∧ s.hub.mov.toks.find? (fun t => t.2.seq == seq) = some (k, o)) ∧
    (∃ (s : State) (i : Nat) (t : Nat) (x : Hold), outsideHold s ∧
      mapGet? s.hub.xlt.holds i = some x ∧ x.posted = some t) :=
  ⟨⟨at0 (withXlt (fun x => { x with slots := [(0, xlat false)] })), 0, true, true, xlat false, by decide +kernel⟩,
   ⟨at0 (withXlt (fun x => { x with slots := [(0, xlat false)] })), 0, xlat false, by decide +kernel⟩,
   ⟨at0
     ({ withXlt (fun x => { x with slots := [(0, xlat true)] }) with coh := { live.coh with mres := [⟨1024, 0, 7, 0, false, 0⟩] } }),
     0, 0, 0, true, xlat true, ⟨1024, 0, 7, 0, false, 0⟩, by decide +kernel⟩,
   ⟨at0 (withXlt (fun x => { x with faults := [(0, faultOf false)] })), 0, 0, faultOf false, by decide +kernel⟩,
   ⟨at0 live, 0, by decide +kernel⟩,
   ⟨at0 (withXlt (fun x => { x with faults := [(0, faultOf true)] })), 0, faultOf true, by decide +kernel⟩,
   ⟨at0 live, 0, by decide +kernel⟩,
   ⟨at0 (withXlt (fun x => { x with invs := [inval (.host 0)] })), by decide +kernel⟩,
   ⟨at0 (withXlt (fun x => { x with run := some (inval (.host 0), 0, false) })), inval (.host 0), 0,
     by decide +kernel⟩,
   ⟨at0 (withXlt (fun x => { x with run := some (inval (.host 3), 0, true) })), inval (.host 3), 0, 3,
     by decide +kernel⟩,
   ⟨at0 ({ streaming 7 with xlt := { live.xlt with run := some (inval (.op 1), 0, true) } }), inval (.op 1), 0, 1, 0,
     opIn (.stream 0 0) 7, by decide +kernel⟩,
   ⟨at0 (withXlt (fun x => { x with holds := [(0, hold0)] })), 0, 5, hold0, by decide +kernel⟩⟩

/-- Every clause of SliceCommandsComplete is met somewhere. -/
theorem test_slice_commands_complete :
    (∃ (s : State) (sl : Slice) (i : Nat) (x : Ing) (r : Req) (h : Hub),
      ingressPick (ingressReady s.hub sl.val) sl.val = some (i, x) ∧
      equip (ingressReady s.hub sl.val) sl.val x.pool
        { x.req with prio := basePrio (ingressReady s.hub sl.val) x } x.lane.isSome
        (ageLevel (ingressReady s.hub sl.val) x.since) = some (r, h) ∧
      ageLevel (ingressReady s.hub sl.val) x.since ≠ 7) ∧
    (∃ (s : State) (sl : Slice) (line : LineAddr) (t u : Txn), outsideHold s ∧
      stalledHead s.hub sl.val = some (line, t) ∧
      t.req.op ≠ .rebuild ∧ headOf (lookup s.hub line t) line = some u ∧ (u.st = .ready → rowServed u.req.op = true)) ∧
    (∃ (s : State) (sl : Slice) (line : LineAddr), outsideHold s ∧ stalledHead s.hub sl.val = none ∧
      stalledEntry s.hub sl.val = some line) ∧
    (∃ (s : State) (sl : Slice) (x : Staged), outsideHold s ∧
      stagedPick s.hub sl.val = some x ∧ isAnswer x.req = true) ∧
    (∃ (s : State) (sl : Slice) (x : Staged), outsideHold s ∧
      stagedPick s.hub sl.val = some x ∧ isAnswer x.req = false ∧
      absorbs s.hub x.req = true) ∧
    (∃ (s : State) (sl : Slice) (x : Staged) (r : Req) (h : Hub), outsideHold s ∧ stagedPick s.hub sl.val = some x ∧
      needsNone s.hub x = false ∧ (homeEntry (unstage s.hub x) (granuleOf x.req.line)).frozen = false ∧
      equip (unstage s.hub x) sl.val (stagedPool s.hub x.req)
        { x.req with prio := poolPrio (unstage s.hub x) (stagedPool s.hub x.req) x.req, late := false } x.lane.isSome
        (ageLevel (unstage s.hub x) x.since) = some (r, h)) ∧
    (∃ (s : State) (sl : Slice) (idx : Nat) (i : Nat) (x : Ing), outsideHold s ∧
      (ingressHeads s.hub sl.val)[idx]? = some (i, x) ∧
      x.lane = none) ∧
    (∃ (s : State) (sl : Slice) (i : Nat) (x : Staged),
      (s.hub.coh.staging.filter (fun y => y.slice == sl.val && stagedFirst s.hub y && !needsNone s.hub y))[i]? = some x ∧
      x.lane = none) ∧
    (∃ (s : State) (q : Nat) (idx : Nat), outsideHold s ∧
      flag s.hub pBOB Fld.BOB.CFG_AUDIT_EN = true ∧ auditOpen s.hub q idx = true) :=
  ⟨⟨at0 queued0, 0, 0, ing0, (granted0.map (·.1)).getD ing0.req, hubOf (granted0.map (·.2)), by decide +kernel⟩,
   ⟨at0 cached0, 5, 0, stalling,
    (headOf (lookup cached0 0 stalling) 0).getD stalling, by decide +kernel⟩,
   ⟨at0 waiting0, 5, 0, by decide +kernel⟩,
   ⟨at0 (staging live (staged0 446 (.snpWb 0 0))), 5, staged0 446 (.snpWb 0 0), by decide +kernel⟩,
   ⟨at0 (staging (headed (txn .inv .rdOwn 446 [320])) (staged0 320 (.memWr 0 0 .a))), 5, staged0 320 (.memWr 0 0 .a),
    by decide +kernel⟩,
   ⟨at0 (staging live (staged0 446 (.wbDirty 0))), 5, staged0 446 (.wbDirty 0), (unstaged0.map (·.1)).getD ing0.req,
    hubOf (unstaged0.map (·.2)), by decide +kernel⟩,
   ⟨at0 ({ live with coh := { live.coh with ingress := [ing0] } }), 0, 0, 0, ing0, by decide +kernel⟩,
   ⟨at0 (staging live (staged0 446 (.wbDirty 0))), 5, 0, staged0 446 (.wbDirty 0), by decide +kernel⟩,
   ⟨at0 (put live [(pBOB, Fld.BOB.CFG_AUDIT_EN, 1)]), 1, 0, by decide +kernel⟩⟩

/-- Every clause of DeadAgentCommandsComplete is met somewhere. -/
theorem test_dead_agent_commands_complete :
    (∃ (s : State) (b : Bay) (t : Nat), outsideHold s ∧
      (bayRt s.hub b.val).downSince = some t ∧ bayUp s.hub b.val = false ∧
      bayIsAgent s.hub b.val = true) ∧
    (∃ (s : State) (b : Bay) (t : Nat), outsideHold s ∧ snoopSince s.hub (bayAgent s.hub b.val) = some t) ∧
    (∃ (s : State) (t : Nat) (ts : List Nat), outsideHold s ∧ s.hub.dead.alerts = t :: ts) ∧
    (∃ (s : State), outsideHold s ∧
      s.hub.dead.recs ≠ [] ∧ s.hub.dead.ran = false ∧ (advanceTo s.hub (s.hub.dead.walkAt +
      2000)).dead.ran = false) :=
  ⟨⟨at0 (modBay (put live [(pBAY 0, Fld.BAY.LSTAT_LSTATE, 1)]) 0 (fun r => { r with downSince := some 9 })), 0, 9,
     by decide +kernel⟩,
   ⟨at0 (headed (txn .inv .rdOwn 446 [320])), 0, 7, by decide +kernel⟩,
   ⟨at0 ({ live with dead := { live.dead with alerts := [4] } }), 4, [], by decide +kernel⟩,
   ⟨at0 ({ live with dead := { live.dead with recs := [(0, dead0)] } }), by decide +kernel⟩⟩

/-- Every clause of PicotCommandsComplete is met somewhere. -/
theorem test_picot_commands_complete :
    (∃ (s : State) (o : Origin) (c : Chan) (v : Word) (t : Stage), outsideHold s ∧
      served s.hub o pPIC (0x404 + 32 * c.val) v.toNat ∧
      hubsOwn c.val = false ∧ stageFor s.hub o pPIC (0x404 + 32 * c.val) = some t ∧ s.hub.htime - t.time < 1024) ∧
    (∃ (s : State) (o : Origin) (c : Chan) (v : Word), outsideHold s ∧
      served s.hub o pPIC (0x408 + 32 * c.val) v.toNat ∧ hubsOwn
      c.val = false) ∧
    (∃ (s : State) (o : Origin) (c : Chan) (v : Word), outsideHold s ∧
      served s.hub o pPIC (0x40C + 32 * c.val) v.toNat ∧ hubsOwn
      c.val = false) ∧
    (∃ (s : State) (o : Origin) (c : Chan) (v : Word), outsideHold s ∧
      served s.hub o pPIC (0x410 + 32 * c.val) v.toNat ∧ hubsOwn
      c.val = false ∧ (ctlSet s.hub c.val v.toNat).2 = []) ∧
    (∃ (s : State) (o : Origin) (c : Chan) (v : Word), outsideHold s ∧
      served s.hub o pPIC (0x410 + 32 * c.val) (v.toNat ||| 0x20) ∧
      hubsOwn c.val = false ∧ (ctlSet s.hub c.val (v.toNat ||| 0x20)).2 = []) ∧
    (∃ (s : State) (c : Chan), outsideHold s ∧ (nextFire s.hub c.val).isSome = true) ∧
    (∃ (s : State) (c : Chan), outsideHold s ∧ (nextWrap s.hub c.val).isSome = true) ∧
    (∃ (s : State) (t : Chan), outsideHold s ∧
      flag s.hub pEVT (Fld.EVT.T_TSTAT_RUNNING.nth t.val) = true ∧ taskOver s.hub t.val =
      true) ∧
    (∃ (s : State) (o : Origin) (v : Word), outsideHold s ∧ served s.hub o pEVT 0x108 v.toNat) ∧
    (∃ (s : State) (o : Origin) (t : Chan) (v : Word), outsideHold s ∧
      served s.hub o pEVT (0x210 + 32 * t.val) v.toNat ∧ (taskWrite
      s.hub t.val v.toNat).2 = []) ∧
    (∃ (s : State) (k : Slice), outsideHold s ∧
      s.hub.boot.hclk = true ∧ flag s.hub pPIC (Fld.PIC.CAP_CFG_EN.nth k.val) = true ∧
      pinEdge (fld s.hub pPIC (Fld.PIC.CAP_CFG_SRC.nth k.val)) = true ∧ flag s.hub pPIC (Fld.PIC.CAP_STAT_VALID.nth
      k.val) = false) ∧
    (∃ (s : State), outsideHold s ∧ s.hub.boot.hclk = true) ∧
    (∃ (s : State), outsideHold s ∧ s.hub.pins.syncOut = true) :=
  ⟨⟨at0 (stagedAt pPIC 0x400), .zhozha, 0, 1, ⟨.zhozha, pPIC, 0x400, 0, 1000⟩, by decide +kernel⟩,
   ⟨at0 live, .zhozha, 0, 5, by decide +kernel⟩,
   ⟨at0 live, .zhozha, 60, 5, by decide +kernel⟩,
   ⟨at0 live, .zhozha, 63, 1, by decide +kernel⟩,
   ⟨at0 (put live [(pPIC, Fld.PIC.CH_INTERVAL, 1)]), .zhozha, 0, 1, by decide +kernel⟩,
   ⟨at0 (put live [(pPIC, Fld.PIC.CH_CTL_MODE, 1), (pPIC, Fld.PIC.CH_STAT_ARMED, 1), (pPIC, Fld.PIC.CH_CMP_LO,
     5000)]), 0, by decide +kernel⟩,
   ⟨at0 (put live [(pPIC, Fld.PIC.CH_CTL_MODE, 3), (pPIC, Fld.PIC.CH_INTERVAL, 2)]), 0, by decide +kernel⟩,
   ⟨at0 (put live [(pEVT, Fld.EVT.T_TSTAT_RUNNING, 1), (pEVT, Fld.EVT.T_TASK_KIND, 2)]), 0, by decide +kernel⟩,
   ⟨at0 live, .zhozha, 0, by decide +kernel⟩,
   ⟨at0 live, .zhozha, 0, 0x101, by decide +kernel⟩,
   ⟨at0 (put live [(pPIC, Fld.PIC.CAP_CFG_EN, 1), (pPIC, Fld.PIC.CAP_CFG_SRC, 0x80)]), 0, by decide +kernel⟩,
   ⟨at0 live, by decide +kernel⟩,
   ⟨at0 ({ live with pins := { live.pins with syncOut := true } }), by decide +kernel⟩⟩

/-- Every clause of CounterCommandsComplete is met somewhere. -/
theorem test_counter_commands_complete :
    (∃ (s : State) (pg : Nat) (t : Nat) (rest : List (Nat × Nat)), outsideHold s ∧
      s.hub.perf.ovfPending = (pg, t) :: rest) ∧
    (∃ (s : State), outsideHold s ∧
      s.hub.boot.hclk = true ∧ flag s.hub pCNT Fld.CNT.DUMP_CFG_EN = true ∧ (liveTasks (advanceTo s.hub
      ((s.hub.htime / dumpPeriod s.hub + 1) * dumpPeriod s.hub))).any (fun t => tKind (advanceTo s.hub ((s.hub.htime /
      dumpPeriod s.hub + 1) * dumpPeriod s.hub)) t == 2) = true) ∧
    (∃ (s : State), outsideHold s ∧
      s.hub.boot.hclk = true ∧ flag s.hub pCNT Fld.CNT.DUMP_CFG_EN = true ∧ (liveTasks (advanceTo s.hub
      ((s.hub.htime / dumpPeriod s.hub + 1) * dumpPeriod s.hub))).any (fun t => tKind (advanceTo s.hub ((s.hub.htime /
      dumpPeriod s.hub + 1) * dumpPeriod s.hub)) t == 2) = false) :=
  ⟨⟨at0 ({ live with perf := { live.perf with ovfPending := [(0, 5)] } }), 0, 5, [], by decide +kernel⟩,
   ⟨at0 (put live [(pCNT, Fld.CNT.DUMP_CFG_EN, 1), (pEVT, Fld.EVT.T_TASK_KIND, 2), (pEVT, Fld.EVT.T_TASK_EN, 1)]),
     by decide +kernel⟩,
   ⟨at0 (put live [(pCNT, Fld.CNT.DUMP_CFG_EN, 1)]), by decide +kernel⟩⟩

/-- Every clause of MailboxCommandsComplete is met somewhere. -/
theorem test_mailbox_commands_complete :
    (∃ (s : State), outsideHold s ∧ callRuns s.hub 0x1 = true ∧ notSeal s.hub = true) ∧
    (∃ (s : State), outsideHold s ∧ callRuns s.hub 0x3 = true ∧ notSeal s.hub = true) ∧
    (∃ (s : State), outsideHold s ∧ callRuns s.hub 0x4 = true ∧ notSeal s.hub = true) ∧
    (∃ (s : State) (k : FwKind) (off : Nat) (len : Nat), outsideHold s ∧
      callRuns s.hub 0x10 = true ∧ stageMode s.hub = true ∧ off +
      len ≤ slotSize (kindNum k) ∧ fld s.hub pTRU Fld.TRU.MB_BUF_OFF + len ≤ sramSize) ∧
    (∃ (s : State), outsideHold s ∧ callRuns s.hub 0x11 = true ∧ stageMode s.hub = true) ∧
    (∃ (s : State), outsideHold s ∧ callRuns s.hub 0x12 = true ∧ stageMode s.hub = true) ∧
    (∃ (s : State), outsideHold s ∧ callRuns s.hub 0x13 = true ∧ stageMode s.hub = true) ∧
    (∃ (s : State), outsideHold s ∧ callRuns s.hub 0x14 = true ∧ openMode s.hub = true ∧ storeOk s.hub = true) ∧
    (∃ (s : State), outsideHold s ∧ callRuns s.hub 0x15 = true ∧ notSeal s.hub = true) ∧
    (∃ (s : State) (n : Nat), outsideHold s ∧ callRuns s.hub 0x20 = true ∧ notSeal s.hub = true ∧ n < 8) ∧
    (∃ (s : State) (n : Nat), outsideHold s ∧
      callRuns s.hub 0x21 = true ∧ notSeal s.hub = true ∧ 3 ≤ n ∧ n < 8 ∧ storeOk s.hub =
      true) ∧
    (∃ (s : State), outsideHold s ∧ callRuns s.hub 2 = true ∧ s.hub.mode.mode = .serve) ∧
    (∃ (s : State), outsideHold s ∧ callRuns s.hub 0x30 = true ∧ notSeal s.hub = true) ∧
    (∃ (s : State), outsideHold s ∧
      zhServes s.hub = true ∧ flag s.hub pLDG Fld.LDG.BOOT_HEALTH = true ∧ openMode s.hub = true) ∧
    (∃ (s : State) (t : Nat) (p : Policy), outsideHold s ∧ s.hub.trust.wdogAt = some t ∧ s.hub.trust.policy = some p ∧
      s.hub.trust.wdogHalf = false) ∧
    (∃ (s : State) (t : Nat) (p : Policy), outsideHold s ∧ s.hub.trust.wdogAt = some t ∧ s.hub.trust.policy = some p) :=
  ⟨⟨at0 (calling 1), by decide +kernel⟩,
   ⟨at0 (calling 3), by decide +kernel⟩,
   ⟨at0 (calling 4), by decide +kernel⟩,
   ⟨at0 (calling 0x10), .zhozha, 0, 16, by decide +kernel⟩,
   ⟨at0 (calling 0x11), by decide +kernel⟩,
   ⟨at0 (calling 0x12), by decide +kernel⟩,
   ⟨at0 (calling 0x13), by decide +kernel⟩,
   ⟨at0 (calling 0x14), by decide +kernel⟩,
   ⟨at0 (calling 0x15), by decide +kernel⟩,
   ⟨at0 (calling 0x20), 7, by decide +kernel⟩,
   ⟨at0 (calling 0x21), 3, by decide +kernel⟩,
   ⟨at0 (calling 2), by decide +kernel⟩,
   ⟨at0 (calling 0x30), by decide +kernel⟩,
   ⟨at0 (put live [(pLDG, Fld.LDG.BOOT_HEALTH, 1)]), by decide +kernel⟩,
   ⟨at0 ({ live with trust := { live.trust with wdogAt := some 500 } }), 500, pol, by decide +kernel⟩,
   ⟨at0 ({ live with trust := { live.trust with wdogAt := some 500 } }), 500, pol, by decide +kernel⟩⟩

/-- Every clause of QuinsorCommandsComplete is met somewhere. -/
theorem test_quinsor_commands_complete :
    (∃ (s : State), outsideHold s ∧ answers s.hub = true ∧ romTier s.hub = false ∧ notSeal s.hub = true) ∧
    (∃ (s : State), outsideHold s ∧
      answers s.hub = true ∧ romTier s.hub = false ∧ notSeal s.hub = true ∧ activeDevs s.hub ≠ []) ∧
    (∃ (s : State) (sig : OwnerSig), outsideHold s ∧
      answers s.hub = true ∧ romTier s.hub = false ∧ notSeal s.hub = true ∧ sigGood
      s.hub sig (opsKey s.hub sig.key) = true) ∧
    (∃ (s : State) (sig : OwnerSig), outsideHold s ∧
      answers s.hub = true ∧ zhTier s.hub = true ∧ sigGood s.hub sig (opsKey s.hub
      sig.key || rootInForce s.hub sig.key) = true) ∧
    (∃ (s : State), outsideHold s ∧ answers s.hub = true ∧ zhTier s.hub = true ∧ unowned s.hub = true) ∧
    (∃ (s : State) (sig : OwnerSig) (i : Fin 4), outsideHold s ∧
      answers s.hub = true ∧ zhTier s.hub = true ∧ sigGood s.hub sig
      (otherRoot s.hub i.val sig.key) = true) ∧
    (∃ (s : State), outsideHold s ∧ answers s.hub = true ∧ zhTier s.hub = true) ∧
    (∃ (s : State), outsideHold s ∧ answers s.hub = true ∧ romTier s.hub = true) :=
  ⟨⟨at0 live, by decide +kernel⟩,
   ⟨at0 live, by decide +kernel⟩,
   ⟨at0 (asked live), sigBy 7, by decide +kernel⟩,
   ⟨at0 (asked (benched live)), sigBy 1, by decide +kernel⟩,
   ⟨at0 (benched live), by decide +kernel⟩,
   ⟨at0 (asked (benched live)), sigBy 2, 0, by decide +kernel⟩,
   ⟨at0 (benched live), by decide +kernel⟩,
   ⟨at0 (inMode live .bench), by decide +kernel⟩⟩

/-- Every clause of AttestationCommandsComplete is met somewhere. -/
theorem test_attestation_commands_complete :
    (∃ (s : State) (p : SpdmPort), outsideHold s ∧ spdmTakes s.hub p true 0) ∧
    (∃ (s : State) (p : SpdmPort), outsideHold s ∧ spdmTakes s.hub p true 1) ∧
    (∃ (s : State) (p : SpdmPort), outsideHold s ∧ spdmTakes s.hub p true 2) ∧
    (∃ (s : State) (p : SpdmPort), outsideHold s ∧ spdmTakes s.hub p false 3) ∧
    (∃ (s : State) (p : SpdmPort) (off : Nat), outsideHold s ∧
      spdmTakes s.hub p true 3 ∧ off < (slotChain s.hub).length ∧ activeDevs
      s.hub ≠ []) ∧
    (∃ (s : State) (p : SpdmPort), outsideHold s ∧ spdmTakes s.hub p true 3) ∧
    (∃ (s : State) (p : SpdmPort) (i : Nat), outsideHold s ∧ spdmTakes s.hub p false 3 ∧ 0 < i ∧ i ≤ 7) ∧
    (∃ (s : State) (p : SpdmPort), outsideHold s ∧ spdmTakes s.hub p false 3 ∧ (conn s.hub p).session = 0) ∧
    (∃ (s : State) (p : SpdmPort), outsideHold s ∧
      spdmTakes s.hub p false 3 ∧ (conn s.hub p).session = 1 ∧ (((conn s.hub p).mutAuth =
      false ∨ (conn s.hub p).authd = true))) ∧
    (∃ (s : State) (p : SpdmPort), outsideHold s ∧ spdmTakes s.hub p false 3 ∧ (conn s.hub p).session = 2) ∧
    (∃ (s : State) (p : SpdmPort) (op : Nat), outsideHold s ∧
      spdmTakes s.hub p false 3 ∧ (conn s.hub p).session = 2 ∧ 0 < op ∧ op ≤
      3) ∧
    (∃ (s : State) (p : SpdmPort), outsideHold s ∧ spdmTakes s.hub p false 3 ∧ (conn s.hub p).chunk = none) ∧
    (∃ (s : State) (p : SpdmPort) (hd : Nat) (seq : Nat) (b : Nat), outsideHold s ∧
      spdmTakes s.hub p false 3 ∧ (conn s.hub p).chunk =
      some (hd, seq, b)) ∧
    (∃ (s : State) (p : SpdmPort) (hd : Nat) (seq : Nat) (rest : List Nat), outsideHold s ∧
      spdmTakes s.hub p false 3 ∧ (conn s.hub
      p).large = some (hd, seq, rest)) ∧
    (∃ (s : State) (p : SpdmPort), outsideHold s ∧
      spdmTakes s.hub p false 3 ∧ (conn s.hub p).session = 1 ∧ (conn s.hub p).mutAuth =
      true) ∧
    (∃ (s : State) (c : Carrier), outsideHold s ∧
      answers s.hub = true ∧ s.hub.mode.mode ≠ .seal ∧ carrierUp s.hub c = true ∧
      carrierSound c = true) ∧
    (∃ (s : State), outsideHold s ∧ answers s.hub = true ∧ s.hub.mode.mode ≠ .seal ∧
      carrierUp s.hub (.smbus (smbusAddr s.hub) false) = true) ∧
    (∃ (h : Hub), h.trust.policy = none) ∧
    (∃ (h : Hub) (p : Policy), h.trust.policy = some p) :=
  ⟨⟨at0 live, .mctp, by decide +kernel⟩,
   ⟨at0 (spdmAt ({ SpdmConn.reset with stage := 1 })), .mctp, by decide +kernel⟩,
   ⟨at0 (spdmAt ({ SpdmConn.reset with stage := 2 })), .mctp, by decide +kernel⟩,
   ⟨at0 (spdmAt (connIn 0)), .mctp, by decide +kernel⟩,
   ⟨at0 (spdmAt (connIn 0)), .mctp, 0, by decide +kernel⟩,
   ⟨at0 (spdmAt (connIn 0)), .mctp, by decide +kernel⟩,
   ⟨at0 (spdmAt (connIn 0)), .mctp, 7, by decide +kernel⟩,
   ⟨at0 (spdmAt (connIn 0)), .mctp, by decide +kernel⟩,
   ⟨at0 (spdmAt (connIn 1)), .mctp, by decide +kernel⟩,
   ⟨at0 (spdmAt (connIn 2)), .mctp, by decide +kernel⟩,
   ⟨at0 (spdmAt (connIn 2)), .mctp, 3, by decide +kernel⟩,
   ⟨at0 (spdmAt (connIn 0)), .mctp, by decide +kernel⟩,
   ⟨at0 (spdmAt ({ connIn 0 with chunk := some (1, 1, 64) })), .mctp, 1, 1, 64, by decide +kernel⟩,
   ⟨at0 (spdmAt ({ connIn 0 with large := some (1, 0, [9]) })), .mctp, 1, 0, [9], by decide +kernel⟩,
   ⟨at0 (spdmAt ({ connIn 1 with mutAuth := true })), .mctp, by decide +kernel⟩,
   ⟨at0 live, .smbus 0x4C true, by decide +kernel⟩,
   ⟨at0 live, by decide +kernel⟩,
   ⟨Hub.reset, rfl⟩,
   ⟨live, pol, rfl⟩⟩

/-- Every clause of KeepStoreCommandsComplete is met somewhere. -/
theorem test_keep_store_commands_complete :
    (∃ (s : State) (part : Nat) (bs : List KBody), outsideHold s ∧ s.hub.kep.batch = none ∧ healthyDevs s.hub ≠ [] ∧
      s.hub.boot.point ≠ .none ∧ s.hub.boot.point ≠ .rom ∧ nextBatch s.hub = some (part, bs) ∧
      roomFor (applyFixes s.hub part) part
        (batchUnits (numberFrom (lastSeq (applyFixes s.hub part) part + 1) bs)) = true) ∧
    (∃ (s : State) (b : KBatch), outsideHold s ∧ s.hub.kep.batch = some b ∧ b.phase2 = false ∧ b.passed = []) ∧
    (∃ (s : State) (b : KBatch) (d : KsDev), outsideHold s ∧
      s.hub.kep.batch = some b ∧ b.phase2 = false ∧ b.passed = [] ∧
      activeDevs s.hub = [d.val] ∧ b.tries.getD d.val 0 < 2) ∧
    (∃ (s : State) (b : KBatch), outsideHold s ∧ s.hub.kep.batch = some b ∧ b.phase2 = true ∧ b.passed = []) ∧
    (∃ (s : State) (d : KsDev) (part : Nat) (x : KSec) (t : List KSec), outsideHold s ∧ s.hub.pins.hubReset = false ∧
      eraseDue s.hub d.val part = true ∧ (devLog s.hub.keep d.val part).full = x :: t ∧ x.retire = false ∧
      x.erases + 1 < 100000) ∧
    (∃ (s : State) (d : KsDev) (part : Nat) (x y : KSec) (t : List KSec) (h : Hub),
      s.hub.pins.hubReset = false ∧ eraseDue s.hub d.val part = true ∧ (devLog s.hub.keep d.val part).full = x :: t ∧
      retire (bump s.hub pKEP Fld.KEP.ERASE_CNT) d.val part x = (h, some y)) ∧
    (∃ s : State, outsideHold s ∧ s.hub.pins.hubReset = true) ∧
    (∃ (s : State) (d : KsDev), outsideHold s ∧ devState s.hub d.val = 2) ∧
    (∃ (s : State) (o : Origin) (d : KsDev), outsideHold s ∧ served s.hub o pKEP 0x100 1 ∧ devState s.hub d.val = 2) ∧
    (∃ (s : State) (d : KsDev), outsideHold s ∧ devState s.hub d.val = 1 ∧ devState s.hub (1 - d.val) = 0 ∧
      fld s.hub pKEP (Fld.KEP.DEV_REBUILD_POS.nth d.val) + 1 < copySectors) ∧
    (∃ (s : State) (d : KsDev), outsideHold s ∧ devState s.hub d.val = 1 ∧ devState s.hub (1 - d.val) = 0 ∧
      fld s.hub pKEP (Fld.KEP.DEV_REBUILD_POS.nth d.val) + 1 = copySectors) ∧
    (∃ (s : State) (d : KsDev) (part seq : Nat) (r : KRec), outsideHold s ∧ healthyDevs s.hub = [0, 1] ∧
      (devRecs s.hub.keep d.val part).any (fun x => x.seq == seq) = true ∧
      (devRecs s.hub.keep (1 - d.val) part).find? (fun x => x.seq == seq) = some r) ∧
    (∃ (s : State) (d : KsDev) (part seq : Nat), outsideHold s ∧ healthyDevs s.hub = [d.val] ∧
      (devRecs s.hub.keep d.val part).any (fun x => x.seq == seq) = true) ∧
    (∃ (s : State) (o : Origin) (v : Nat), outsideHold s ∧ served s.hub o pSCB 0x11C (v % 2 ^ 32)) ∧
    (∃ (s : State) (o : Origin), outsideHold s ∧
      served s.hub o pSCB 0x148 1 ∧ flag s.hub pSCB Fld.SCB.STAT_DUR_BUSY = false) ∧
    (∃ (s : State), outsideHold s ∧ flag s.hub pSCB Fld.SCB.STAT_DUR_BUSY = true) :=
  let one := [(pKEP, Fld.KEP.DEV_STATE.nth 1, 2)]
  ⟨⟨at0 { live with scb := { live.scb with boot := 1 } }, 2, [.boot 0 1 1000], by decide +kernel⟩,
   ⟨at0 (batching false []), batch0 false, by decide +kernel⟩,
   ⟨at0 (batching false one), batch0 false, 0, by decide +kernel⟩,
   ⟨at0 (batching true []), batch0 true, by decide +kernel⟩,
   ⟨at0 (scbLogs (logFull sec0) live), 0, 2, sec0, [], by decide +kernel⟩,
   ⟨at0 (scbLogs (logFull sec0) live), 0, 2, sec0, { sec0 with erases := 0, used := 1 }, [],
    (retire (bump (scbLogs (logFull sec0) live) pKEP Fld.KEP.ERASE_CNT) 0 2 sec0).1, by decide +kernel⟩,
   ⟨at0 { live with pins := { live.pins with hubReset := true } }, by decide +kernel⟩,
   ⟨at0 (put live one), 1, by decide +kernel⟩,
   ⟨at0 (put live one), .zhozha, 1, by decide +kernel⟩,
   ⟨at0 (put live [(pKEP, Fld.KEP.DEV_STATE.nth 1, 1)]), 1, by decide +kernel⟩,
   ⟨at0 (put live [(pKEP, Fld.KEP.DEV_STATE.nth 1, 1), (pKEP, Fld.KEP.DEV_REBUILD_POS.nth 1, 887)]), 1, by decide +kernel⟩,
   ⟨at0 (scbLogs logOne live), 0, 2, 1, { seq := 1, body := .boot 1 1 0 }, by decide +kernel⟩,
   ⟨at0 (scbLogs logOne (put live one)), 0, 2, 1, by decide +kernel⟩,
   ⟨at0 live, .zhozha, 0xFFFFFFFF, by decide +kernel⟩,
   ⟨at0 live, .zhozha, by decide +kernel⟩,
   ⟨at0 (put live [(pSCB, Fld.SCB.STAT_DUR_BUSY, 1)]), by decide +kernel⟩⟩

/-- Every clause of ModeCommandsComplete is met somewhere. -/
theorem test_mode_commands_complete :
    (∃ (s : State) (o : Origin), outsideHold s ∧
      served s.hub o pMOD 0x104 (1 + 8 * fld s.hub pMOD Fld.MOD.CTL_SERVE_OK) ∧
      s.hub.mode.toMaintain = false ∧ s.hub.mode.mode = .drain ∧ s.hub.tulle.handA = none) ∧
    (∃ (s : State) (o : Origin) (a : HandA), outsideHold s ∧
      served s.hub o pMOD 0x104 (1 + 8 * fld s.hub pMOD Fld.MOD.CTL_SERVE_OK) ∧
      s.hub.mode.toMaintain = false ∧ s.hub.mode.mode = .drain ∧ s.hub.tulle.handA = some a) ∧
    (∃ (s : State) (o : Origin), outsideHold s ∧
      served s.hub o pMOD 0x104 (1 + 8 * fld s.hub pMOD Fld.MOD.CTL_SERVE_OK) ∧
      s.hub.mode.toMaintain = false ∧ s.hub.mode.mode = .maintain ∧ serveReady s.hub = true) ∧
    (∃ (s : State) (o : Origin), outsideHold s ∧
      served s.hub o pMOD 0x104 (2 + 8 * fld s.hub pMOD Fld.MOD.CTL_SERVE_OK) ∧
      s.hub.mode.mode = .serve ∧ s.hub.mode.brace = false ∧ s.hub.mode.toMaintain = false) ∧
    (∃ (s : State) (o : Origin), outsideHold s ∧
      served s.hub o pMOD 0x104 (3 + 8 * fld s.hub pMOD Fld.MOD.CTL_SERVE_OK) ∧
      ((s.hub.mode.mode = .serve ∨ s.hub.mode.mode = .drain)) ∧ localCount s.hub = 0 ∧ s.hub.mode.toMaintain = false) ∧
    (∃ (s : State) (o : Origin) (v : Bool), outsideHold s ∧
      served s.hub o pMOD 0x104 (8 * b2n v) ∧ encodable s.hub o pMOD 0x104 (8 *
      b2n v)) ∧
    (∃ (s : State), outsideHold s ∧ running s.hub = true ∧ s.hub.mode.mode = .assemble ∧ serveReady s.hub = true) ∧
    (∃ (s : State), outsideHold s ∧
      (maintainProgress s.hub).mode.toMaintain = true ∧ rlcEmpty (maintainProgress s.hub) = true ∧
      groupInflight (maintainProgress s.hub) 0 + groupInflight (maintainProgress s.hub) 1 + groupInflight
      (maintainProgress s.hub) 2 + groupInflight (maintainProgress s.hub) 3 = 0) ∧
    (∃ (s : State) (o : Origin) (d : Domain), outsideHold s ∧ served s.hub o pPWR (0x140 + 4 * d.val) 0) ∧
    (∃ (s : State) (o : Origin) (d : Domain), outsideHold s ∧
      served s.hub o pPWR (0x140 + 4 * d.val) 1 ∧ domPinned s.hub d.val =
      false) ∧
    (∃ (s : State) (o : Origin) (d : Domain), outsideHold s ∧
      served s.hub o pPWR (0x140 + 4 * d.val) 2 ∧ domPinned s.hub d.val =
      false) ∧
    (∃ (s : State) (d : Domain), outsideHold s ∧ domState s.hub d.val = 1 ∧ domInflight s.hub d.val = 0) ∧
    (∃ (s : State) (d : Domain), outsideHold s ∧
      domState s.hub d.val = 2 ∧ fld s.hub pPWR (Fld.PWR.DOM_CTL_REQ.nth d.val) = 2) ∧
    (∃ (s : State) (d : Domain), outsideHold s ∧
      domState s.hub d.val = 3 ∧ fld s.hub pPWR (Fld.PWR.DOM_CTL_REQ.nth d.val) = 0) ∧
    (∃ (s : State), outsideHold s ∧ sealRuns s.hub = true ∧ sealDone s.hub = true) ∧
    (∃ (s : State), outsideHold s ∧
      sealRuns s.hub = true ∧ sealDone (advanceTo s.hub (s.hub.mode.sealTime + sealDeadline
      s.hub.mode.sealPhase)) = false) :=
  ⟨⟨at0 (inMode live .drain), .zhozha, by decide +kernel⟩,
   ⟨at0 ({ inMode live .drain with tulle := { live.tulle with handA := some (handTo .copy false) } }), .zhozha, handTo
     .copy false, by decide +kernel⟩,
   ⟨at0 (inMode live .maintain), .zhozha, by decide +kernel⟩,
   ⟨at0 live, .zhozha, by decide +kernel⟩,
   ⟨at0 (withTulle (fun t => { t with homeMap := [] })), .zhozha, by decide +kernel⟩,
   ⟨at0 live, .zhozha, true, by decide +kernel⟩,
   ⟨at0 (inMode live .assemble), by decide +kernel⟩,
   ⟨at0 ({ live with mode := { live.mode with mode := .drain, toMaintain := true } }), by decide +kernel⟩,
   ⟨at0 live, .zhozha, 0, by decide +kernel⟩,
   ⟨at0 live, .zhozha, 15, by decide +kernel⟩,
   ⟨at0 live, .zhozha, 3, by decide +kernel⟩,
   ⟨at0 (put live [(pPWR, Fld.PWR.DOM_STAT_STATE.nth 3, 1)]), 3, by decide +kernel⟩,
   ⟨at0 (put live [(pPWR, Fld.PWR.DOM_STAT_STATE.nth 3, 2), (pPWR, Fld.PWR.DOM_CTL_REQ.nth 3, 2)]), 3,
     by decide +kernel⟩,
   ⟨at0 (put live [(pPWR, Fld.PWR.DOM_STAT_STATE.nth 3, 3)]), 3, by decide +kernel⟩,
   ⟨at0 ({ live with mode := { live.mode with mode := .seal, sealPhase := 1 } }), by decide +kernel⟩,
   ⟨at0 ({ live with mode := { live.mode with mode := .seal, sealPhase := 3 } }), by decide +kernel⟩⟩

/-- Every clause of LinkCost is met somewhere. -/
theorem test_link_cost :
    (∃ (h : Hub) (b : Nat), fld h (pBAY b) Fld.BAY.LSTAT_WIDTH = 2 ∧ fld h (pBAY b) Fld.BAY.LSTAT_RATE = 5) ∧
    (∃ (h : Hub) (b : Nat), fld h (pBAY b) Fld.BAY.LSTAT_WIDTH = 4 ∧ fld h (pBAY b) Fld.BAY.LSTAT_RATE = 5) ∧
    (∃ (h : Hub) (b : Nat), fld h (pBAY b) Fld.BAY.LSTAT_WIDTH = 0 ∧ fld h (pBAY b) Fld.BAY.LSTAT_RATE = 0) :=
  ⟨⟨put live [(pBAY 8, Fld.BAY.LSTAT_WIDTH, 2), (pBAY 8, Fld.BAY.LSTAT_RATE, 5)], 8, by decide +kernel⟩,
   ⟨put live [(pBAY 8, Fld.BAY.LSTAT_WIDTH, 4), (pBAY 8, Fld.BAY.LSTAT_RATE, 5)], 8, by decide +kernel⟩,
   ⟨put live [(pBAY 8, Fld.BAY.LSTAT_WIDTH, 0)], 8, by decide +kernel⟩⟩

/-- Every clause of ScorebookSequence is met somewhere. -/
theorem test_scorebook_sequence :
    (∃ (h : Hub), h.scb.issued = 0) :=
  ⟨Hub.reset, by decide +kernel⟩

/-- Every clause of Quorum is met somewhere. -/
theorem test_quorum :
    (∃ (h : Hub), ((∀ n ∈ profileNodes h, n < 128))) :=
  ⟨live, by decide +kernel⟩

/-- Every clause of LedgerAck is met somewhere. -/
theorem test_ledger_ack :
    (∃ (h : Hub) (n : Nat), n ≤ exportedTo h) ∧
    (∃ (h : Hub) (n : Nat), exportedTo h < n ∧ headLseq h < n) ∧
    (∃ (h : Hub) (n : Nat), exportedTo h < n ∧ n ≤ headLseq h ∧ storeOk h = true) :=
  ⟨⟨live, 0, by decide +kernel⟩,
   ⟨live, 1, by decide +kernel⟩,
   ⟨{ live with keep := { live.keep with ledger := [recd] } }, 1, by decide +kernel⟩⟩

/-- Every clause of FusesOnlyRise is met somewhere. -/
theorem test_fuses_only_rise :
    (∃ (h : Hub) (x : Option Nat) (t : List (Option Nat)), h.fuses.owners = x :: t) ∧
    (∃ (h : Hub) (slot : Nat), (h.fuses.owners.getD slot none).isSome = true) ∧
    (∃ (h : Hub) (i : Image), h.trust.zhImg = some i) :=
  ⟨⟨live, none, [none, none, none], by decide +kernel⟩,
   ⟨asked live, 1, by decide +kernel⟩,
   ⟨{ live with trust := { live.trust with zhImg := some img } }, img, by decide +kernel⟩⟩

/-- Every clause of SlotUpdates is met somewhere. -/
theorem test_slot_updates :
    (∃ (e : DirEnt) (a : AgentId), (e.st = .shared ∨ e.st = .overflow) ∧ e.v0 = true ∧ e.p0 = a) ∧
    (∃ (e : DirEnt) (a : AgentId), (e.st = .shared ∨ e.st = .overflow) ∧ (¬(e.v0 = true ∧ e.p0 = a))) ∧
    (∃ (e : DirEnt) (a : AgentId), (e.st = .shared ∨ e.st = .overflow) ∧ a ∈ e.named) ∧
    (∃ (e : DirEnt) (a : AgentId), (e.st = .shared ∨ e.st = .overflow) ∧ a ∉ e.named) ∧
    (∃ (e : DirEnt), (e.st = .shared ∨ e.st = .overflow)) :=
  ⟨⟨{ DirEnt.uncached with st := .shared, v0 := true, p0 := 446 }, 446, by decide +kernel⟩,
   ⟨{ DirEnt.uncached with st := .shared, v0 := true, p0 := 446 }, 320, by decide +kernel⟩,
   ⟨{ DirEnt.uncached with st := .shared, v0 := true, p0 := 446 }, 446, by decide +kernel⟩,
   ⟨{ DirEnt.uncached with st := .shared, v0 := true, p0 := 446 }, 320, by decide +kernel⟩,
   ⟨{ DirEnt.uncached with st := .shared, v0 := true, p0 := 446 }, by decide +kernel⟩⟩

/-- Every clause of OwnerCounts is met somewhere. -/
theorem test_owner_counts :
    (∃ (h : Hub) (line : LineAddr), homedHere h (granuleOf line) = true) :=
  ⟨live, 0, by decide +kernel⟩

/-- Every clause of StartValue is met somewhere. -/
theorem test_start_value :
    (∃ (h : Hub) (c : Nat), fld h pPIC (Fld.PIC.CH_PHASE.nth c) < chInt h c) :=
  ⟨put live [(pPIC, Fld.PIC.CH_INTERVAL, 1)], 0, by decide +kernel⟩

/-- Every clause of FlowAccepts is met somewhere. -/
theorem test_flow_accepts :
    (∃ (vc : Nat), vc < 8) :=
  ⟨7, by decide +kernel⟩

/-- Every clause of ErrlogKeepsFirstError is met somewhere. -/
theorem test_errlog_keeps_first_error :
    (∃ (h : Hub) (pg : Nat), flag h pg Fld.HDR.ERRLOG_A_VALID = false) ∧
    (∃ (h : Hub) (pg : Nat), flag h pg Fld.HDR.ERRLOG_A_VALID = true) :=
  ⟨⟨live, pTUL, by decide +kernel⟩,
   ⟨put live [(pTUL, Fld.HDR.ERRLOG_A_VALID, 1)], pTUL, by decide +kernel⟩⟩

/-! ### Witnesses of the statements without a generated one -/

/-- A queue with a command at its front. -/
theorem test_step_takes_front : ∃ (c : Instr) (cs : List Instr) (s : State), s.pending = c :: cs :=
  ⟨.syncInPulse, [.lsaTimer], { at0 live with pending := [.syncInPulse, .lsaTimer] }, rfl⟩

/-- An empty queue. -/
theorem test_step_idles : ∃ s : State, s.pending = [] := ⟨at0 live, rfl⟩

/-- A safe state with a byte in management SRAM takes a step. -/
theorem test_steps_keep_safe : ∃ s t : State, s.Inv ∧ step s = .next t :=
  ⟨{ State.reset with ram := [(0, 1)], pending := [.lsaTimer] }, _, ⟨rfl, by decide, rfl, rfl⟩, rfl⟩

/-- Two fields of one register, and of two pages. -/
theorem test_field_read_after_write :
    (∃ (pg : Nat) (f : FieldDef) (pg' : Nat) (f' : FieldDef), fieldKey pg' f' ≠ fieldKey pg f) ∧
    (∃ (pg pg' : Nat) (f f' : FieldDef), f.off < 4096 ∧ f'.off < 4096 ∧ f.lo < 32 ∧ f'.lo < 32 ∧
      fieldKey pg f = fieldKey pg' f') :=
  ⟨⟨pPRK, Fld.PRK.STAT_FORMAT_BUSY, pPRK, Fld.PRK.STAT_FLUSH_BUSY, by decide⟩,
   ⟨511, 511, Fld.HDR.ID_TYPE, Fld.HDR.ID_TYPE, by decide⟩⟩

/-- The fields of a register of each kind are told apart: a plain one, ISTAT, IFORCE, a counter. -/
theorem test_stored_by_access_code :
    [(pTUL, 0x100), (pTUL, 0x018), (pTUL, 0x020), (pPAG, 0x104), (pBAY 47, 0x104)].all (fun x =>
      decide ((regFields x.1 x.2).Pairwise (fun a b => fieldKey x.1 a ≠ fieldKey x.1 b)) && !(regFields x.1 x.2).isEmpty) =
      true := by decide +kernel

/-- A field of each access code, and each order of classes. -/
theorem test_stored_by_access_code_kinds :
    Cls.h.rank < Cls.z.rank ∧
    [Acc.rw, .w1c, .w1s, .ro, .rc, .wo].all (fun a =>
      ([(pTUL, 0x100), (pTUL, 0x018), (pTUL, 0x020), (pPAG, 0x104), (pPAG, 0x110), (pPRK, 0x104),
        (pMOD, 0x104), (pTUL, 0x040)].flatMap (fun x => regFields x.1 x.2)).any (fun f => f.acc == a)) =
      true := by decide +kernel

/-- A page that a host does not own; one it owns, in SEAL and in BENCH. -/
theorem test_dropped_writes_only_log :
    (∃ (h : Hub) (b : Bay) (pg : Nat), decodes h (.hostH b) = true ∧ pageExists pg = true ∧
      ¬(flag h pg Fld.HDR.OWNER_VALID = true ∧ fld h pg Fld.HDR.OWNER_BAY = b.val)) ∧
    (∃ (h : Hub) (b : Bay) (pg : Nat), decodes h (.hostH b) = true ∧ pageExists pg = true ∧
      (h.mode.mode = .seal ∨ h.mode.mode = .bench)) ∧
    (∃ (h : Hub) (o : Origin) (pg off v : Nat), (writeKinds h o pg off v).2 = true) :=
  ⟨⟨put live [(pTUL, Fld.HDR.OWNER_VALID, 1), (pTUL, Fld.HDR.OWNER_BAY, 1)], 0, pTUL, by decide +kernel⟩,
   ⟨inMode (put live [(pTUL, Fld.HDR.OWNER_VALID, 1)]) .bench, 0, pTUL, by decide +kernel⟩,
   ⟨live, .hostH 0, pTUL, 0x100, 0, by decide +kernel⟩⟩

/-- A field of CLK but for the three that a reset keeps, and one of another page. -/
theorem test_hub_reset_leaves : ∃ (pg : Nat) (f : FieldDef), f.off < 4096 ∧ f.lo < 32 ∧
    (pg ≠ pCLK ∨ f.off ≠ 0x108 ∧ f.off ≠ 0x10C) :=
  ⟨pCLK, Fld.CLK.LOCK_RC, by decide⟩

/-- The three ways a CTL write is refused, each at the end of its range. -/
theorem test_reserved_channel_control :
    (∃ (s : State) (o : Origin) (c : Chan) (v : Word), served s.hub o pPIC (0x410 + 32 * c.val) v.toNat ∧
      hubsOwn c.val = false ∧ v.toNat % 4 = 2 ∧ chInt s.hub c.val = 0) ∧
    (∃ (s : State) (o : Origin) (c : Chan) (v : Word), served s.hub o pPIC (0x410 + 32 * c.val) v.toNat ∧
      hubsOwn c.val = false ∧ v.toNat % 4 = 3 ∧ chInt s.hub c.val = 1) ∧
    (∃ (s : State) (o : Origin) (c : Chan) (v : Word), served s.hub o pPIC (0x410 + 32 * c.val) v.toNat ∧
      hubsOwn c.val = false ∧ bit v.toNat 5 = true ∧ chInt s.hub c.val = fld s.hub pPIC (Fld.PIC.CH_PHASE.nth c.val)) :=
  ⟨⟨at0 live, .zhozha, 0, 2, by decide +kernel⟩,
   ⟨at0 (put live [(pPIC, Fld.PIC.CH_INTERVAL, 1)]), .zhozha, 0, 3, by decide +kernel⟩,
   ⟨at0 (put live [(pPIC, Fld.PIC.CH_INTERVAL.nth 59, 7), (pPIC, Fld.PIC.CH_PHASE.nth 59, 7)]), .zhozha, 59, 0x21,
     by decide +kernel⟩⟩

/-- A queue that may be assigned, and one that is ENABLED. -/
theorem test_queue_assignment_rule :
    (∃ (s : State) (o : Origin) (v : Word), served s.hub o pQCTL 0x104 v.toNat ∧
      (queue s.hub (fld s.hub pQCTL Fld.QCTL.QSEL)).st = .unassigned ∧ opsOf s.hub (fld s.hub pQCTL Fld.QCTL.QSEL) = []) ∧
    (∃ (s : State) (o : Origin) (v : Word), served s.hub o pQCTL 0x104 v.toNat ∧
      (queue s.hub (fld s.hub pQCTL Fld.QCTL.QSEL)).st = .enabled) :=
  ⟨⟨at0 live, .zhozha, 0x80, by decide +kernel⟩,
   ⟨at0 (moving [(0, queueOf .enabled false)] []), .zhozha, 0x80, by decide +kernel⟩⟩

/-- The numbers on both sides of the boundary of a flow that expects 0. -/
theorem test_flow_accepts_sides : (flowAccept live 6 7 32767).2 = true ∧ (flowAccept live 6 7 32768).2 = false := by
  decide +kernel

/-- An entry of each form of Table PRK-2. -/
theorem test_directory_word_round_trip : ∀ e ∈ ([.uncached,
    { DirEnt.uncached with st := .shared, v2 := true, p2 := 8191 },
    { DirEnt.uncached with st := .owned, v0 := true, p0 := 8190 },
    { DirEnt.uncached with st := .overflow },
    { DirEnt.uncached with st := .poisoned, p0 := 446 }] : List DirEnt), wordEnt live (entWord live e) = some e := by
  decide +kernel

/-- A link with two queued messages of one virtual channel: the older of two equals goes first. -/
theorem test_arbiter_picks : (vcPick live { TLink.reset with
    up := true, admitted := true, peer := 6, avail := List.replicate 8 9
    queue := [{ hdr := { hdr 0x72 with dstn := 6 }, body := .none, src := 1, since := 7 },
      { hdr := { hdr 0x72 with dstn := 6 }, body := .none, src := 0, since := 5 }] } 7).map (·.1) = some 1 := by
  decide +kernel

/-- A message past the starvation bound goes before one of a higher priority. -/
theorem test_arbiter_lane :
    let h : Hub := { live with htime := 10 ^ 9 }
    let l : TLink := { TLink.reset with
      up := true, admitted := true, peer := 6, avail := List.replicate 8 9
      queue := [{ hdr := { hdr 0x72 with dstn := 6, prio := 7 }, body := .none, src := 1, since := 10 ^ 9 },
        { hdr := { hdr 0x72 with dstn := 6 }, body := .none, src := 0, since := 0 }] }
    (vcPick h l 7).map (·.1) = some 1 ∧ laneHead h l.queue = l.queue[1]? := by decide +kernel

/-- A handle of each kind of failure. -/
theorem test_reach_check_order : (let h : Hub := { live with mov := { live.mov with reach := [(0, reach0)] } }
    [handleCheck h (6 * 2 ^ 25) 0 1 1 0 64, handleCheck h (handle0 + 32) 0 1 1 0 64, handleCheck h (handle0 + 1) 0 1 1 0 64,
      handleCheck h handle0 0 2 1 0 64, handleCheck h handle0 0 1 1 961 64, handleCheck h handle0 0 1 1 960 64] =
    [0x15, 0x13, 0x14, 0x16, 0x16, 0]) := by decide +kernel

/-! ### Ill-formed commands -/

/-- A header breaks the width of each of its fields. -/
theorem test_ill_formed_headers : ([hdr 256, { hdr 1 with src := 8192 }, { hdr 1 with dstn := 128 },
    { hdr 1 with tag := 4096 }, { hdr 1 with addr := 2 ^ 40 }, { hdr 1 with seq := 65536 }, { hdr 1 with hops := 32 },
    { hdr 1 with prio := 8 }, { hdr 1 with attr := 2 ^ 23 }] : List Hdr).any hdrOk = false := by decide +kernel

/-- A header's command refuses it. -/
theorem test_ill_formed_header_command : (Instr.snpInv 0 (hdr 256)).wf = false ∧ (Instr.snpInv 0 (hdr 0x10)).wf = true ∧
    (Instr.rdShared (.arrive 0 (hdr 256))).wf = false ∧ (Instr.rdShared (.serve (2 ^ 40))).wf = false := by decide +kernel

/-- Accesses outside their windows, their pages, their bytes. -/
theorem test_ill_formed_accesses : ([.rcRead ⟨.hostU 0, .regwin, 0, 0, 4, []⟩, .rcRead ⟨.zhozha, .regwin, 512, 0, 4, []⟩,
    .rcRead ⟨.hostH 0, .dbwin, 0, 0, 4, []⟩, .rcRead ⟨.zhozha, .dbwin, 16384, 0, 4, []⟩,
    .rcRead ⟨.hostH 0, .perfwin, 0, 0, 4, []⟩, .rcRead ⟨.zhozha, .perfwin, 512, 0, 4, []⟩,
    .rcRead ⟨.zhozha, .regwin, 0, 4096, 4, []⟩, .rcRead ⟨.zhozha, .regwin, 0, 0, 0, []⟩,
    .rcRead ⟨.zhozha, .regwin, 0, 0, 4097, []⟩, .registerWrite ⟨.zhozha, .regwin, 0, 0, 4, []⟩ (2 ^ 32),
    .lowHalfWrite .zhozha 512 0x104 0, .lowHalfWrite .zhozha 0 0x106 0, .highHalfWrite .zhozha 0 4096 0,
    .iforceWrite .zhozha 512 0, .perfwinRead .zhozha 0 4096 4, .perfwinRead .zhozha 0 0 0] : List Instr).any Instr.wf =
    false := by decide +kernel

/-- Messages of Tulle whose payload breaks a width of Table TUL-9. -/
theorem test_ill_formed_payloads : ([.hello 8 (hdr 0x60) { helloM with levelHi := 16 }, .hello 8 (hdr 0x60) { helloM with zhSvn := 2 ^ 32 },
    .lsa 8 (hdr 0x62) 1 [⟨6, 48, 1⟩], .lsa 8 (hdr 0x62) 1 [⟨128, 8, 1⟩], .lsa 8 (hdr 0x62) 1 [⟨6, 8, 65536⟩],
    .propose 8 (hdr 0x63) { propM with count := 1025 }, .propose 8 (hdr 0x63) { propM with members := [128] },
    .propMap 8 (hdr 0x64) 1 0 [(65536, homed 5 0)], .propMap 8 (hdr 0x64) 1 0 [(0, homed 5 8192)],
    .epochAck 8 (hdr 0x65) (2 ^ 64), .refuse 8 (hdr 0x66) 1 256, .commit 8 (hdr 0x67) 1 (2 ^ 64),
    .mapState 8 (hdr 0x6A) 1 [128] none 0, .mapData 8 (hdr 0x69) 1 0 [homed 128 0], .fence 8 (hdr 0x6C) 6 (2 ^ 64),
    .timeReq 8 (hdr 0x70) (2 ^ 64), .timeRsp 8 (hdr 0x71) 0 (2 ^ 64) 0, .heartbeat 8 (hdr 0x72) { heartM with present := 2 ^ 128 },
    .hoOffer 8 (hdr 0x6D) 65536 0, .hoOffer 8 (hdr 0x6D) 0 8192, .hoSent 8 (hdr 0x6D) 0 0 0 (2 ^ 32),
    .hoCopy 8 (hdr 0x6F) (.data (2 ^ 40) 0 false), .hoCopy 8 (hdr 0x6F) (.ledger [⟨0, 4, 0, 0, 0⟩]),
    .psnXfer 8 (hdr 0x6E) 0 false false [⟨0, 1, 16, 0, 0⟩], .handoffStart .zhozha 4096, .stash (.serve 0) 0 8192] :
    List Instr).any Instr.wf = false := by decide +kernel

/-- Addresses, queues, tokens and what else has a width. -/
theorem test_ill_formed_operands : ([.memrd 0 (2 ^ 46) .s, .birsp 0 (2 ^ 40) true, .clflush 4 (2 ^ 40), .mediaCompletionTimeout 16,
    .auditTimeout 16384 0, .cacheSweepEnd 256, .sqTailDoorbell .zhozha 16384 (dbu false),
    .sqTailDoorbell .zhozha 0 { dbu false with sqTail := 2 ^ 32 }, .descriptorPush .zhozha 16384 0, .entryAccept 16384 0,
    .copy { step0 with tok := 1024 }, .copy { step0 with host := [256] }, .nop 1024, .atsTranslationCompletion 0 (.ok 0 11 true true false),
    .atsTranslationCompletion 0 (.ok (2 ^ 64) 12 true true false), .atsInvalidateRequest 0 false (2 ^ 20) 0 12 0,
    .atsInvalidateRequest 0 false 0 0 12 32, .trainingAttemptEnd 8 { tin with lanes := [.locked 16 false .cxl] },
    .trainingAttemptEnd 8 { tin with lanes := [.locked 0 false (.vendor 0x1F4C (2 ^ 24))] },
    .hostConfigWrite 0 (.hdmDecoder 0 0 12 0 3 4 0), .hostConfigWrite 0 (.hdmDecoder 0 0 8 0 2 4 2),
    .trainingAttemptEnd 8 { tin with lanes := List.replicate 17 .noLock }, .hostConfigWrite 0 (.hdmDecoder 0 (2 ^ 46) 4 0 1 4 0),
    .hostConfigWrite 0 (.priAllocation (2 ^ 32)), .mctpMessage .i3c 256 0, .ksTransferFail 0 256, .counterClear .zhozha 512,
    .fwStage .zhozha .a 0 0 { img with svn := 2 ^ 32 }, .policyInstall { pol with bootLimit := 1 },
    .policyInstall { pol with wdogMs := 60001 }, .profileInstall { prof with serial := 2 ^ 32 }, .ldgRead .mctp (2 ^ 64) 1,
    .ldgAck .mctp { sigBy 7 with nonce := 2 ^ 256 } 1, .ownerClaim .mctp (2 ^ 384), .spdmGetCertificate .mctp 16 0 0,
    .spdmKeyExchange .mctp 0 65536, .spdmKeyUpdate .mctp 256, .spdmVendorDefined .mctp (.other 256), .sectorEraseComplete 0 8 ⟨true, true⟩,
    .rdSeqWrite .zhozha (2 ^ 64), .spdmChunkSend .mctp 256 0 0 true] : List Instr).any Instr.wf = false := by decide +kernel

/-! ### Values from the spec's worked cases -/

/-- Agents (R148): the RLCs of nodes 3 and 7, and a host on B05 of node 7. -/
theorem test_agents : rlcAgent 3 = 254 ∧ rlcAgent 7 = 510 ∧
    bayAgent (put live [(pTUL, Fld.TUL.NODE_ID, 7), (pBAY 5, Fld.BAY.ROLECFG_ROLE, 1)]) 5 = 453 := by decide +kernel

/-- R214 and Table COH-9: after the forward to 510, slot 1 keeps 638 and slot 2 takes 254; the entry's word, with BGEN 0x02A. -/
theorem test_directory_word : entWord (put live [(pPRK, Fld.PRK.BGEN, 0x2A)]) (entAddF
    { st := .shared, p0 := 254, p1 := 638, p2 := 0, v0 := true, v1 := true, v2 := false, f0 := true } 510) =
    0x000ABC1FC27E0FF1 := by decide +kernel

/-- R201: where that entry lies, for granule 20 held as local granule 12, with P = 4,096. -/
theorem test_entry_place : entryLma (put (withTulle (fun t => { t with homeMap := [(20, homed 5 12)] }))
    [(pPRK, Fld.PRK.LOCAL_PROV, 4096)]) (12 * 2 ^ 24 + 0x00051A2C0C40 / 64 % 2 ^ 24) = 0x40063458188 := by decide +kernel

/-- R347: the first values of four channels started at HTIME 7,300,126. -/
theorem test_start_values : [0, 500000, 1000000, 1500000].map (fun p => startCmp (put live
    [(pPIC, Fld.PIC.CH_INTERVAL, 2000000), (pPIC, Fld.PIC.CH_PHASE, p)]) 0 7300126) = [8000000, 8500000, 9000000, 7500000] := by
  decide +kernel

/-- R118: of nodes 2, 3, 5, 8, 9 and 12, the half that holds node 2 keeps quorum and the other does not. -/
theorem test_quorum_tie : [([2, 3, 5], 2), ([8, 9, 12], 8)].map (fun x => quorumHeld (put (withTulle (fun t => { t with
    profile := some { prof with members := [2, 3, 5, 8, 9, 12].map (fun n => (n, n)) }
    nodes := x.1.map (fun n => (n, { NodeRt.reset with present := true })) })) [(pTUL, Fld.TUL.NODE_ID, x.2)])) =
    [true, false] := by decide +kernel

/-- R85, R89: the ID and CAP_LO of BAY20. -/
theorem test_page_id : wordFor live .zhozha (pBAY 20) 0x000 = 0x51200054 ∧ wordFor live .zhozha (pBAY 20) 0x008 = 0x7F := by
  decide +kernel

/-- Tables BAY-5 to BAY-8: T bay B20 with lane 2 open and lane 1 inverted comes up as x2, with LANE 0x00045100. -/
theorem test_trained_lanes : (let h := linkUp (attemptEnd (startTraining (put live [(pBAY 20, Fld.BAY.ROLECFG_ROLE, 3)]) 20) 20
      { tin with cxl := false, lanes := [.locked 0 false (ts 0), .locked 1 true (ts 1), .absent, .locked 3 false (ts 3)] }) 20
    [fld h (pBAY 20) Fld.BAY.LSTAT_WIDTH, fld h (pBAY 20) Fld.BAY.LSTAT_RATE, fld h (pBAY 20) Fld.BAY.LSTAT_POL_INV,
      fld h (pBAY 20) Fld.BAY.LSTAT_TULLE, fld h (pBAY 20) Fld.BAY.CAUSE_CODE, wordFor h .zhozha (pBAY 20) 0x110]) =
    [1, 5, 2, 1, 0x10, 0x00045100] := by decide +kernel

/-- Table BAY-10: lane 0 open on an x4 bay trains x2 on lanes 2 and 3 through reversal; an x8 T group whose upper lanes reach
another peer trains x4 with BOND_SPLIT and FOREIGN lanes; a loopback is SELF_LOOP; CXL on a T bay is ROLE_MISMATCH. -/
theorem test_lane_faults :
    (let h := attemptEnd (startTraining live 0) 0 { tin with lanes := [.absent, .locked 1 false .cxl, .locked 2 false .cxl,
      .locked 3 false .cxl] }
    ((bayRt h 0).trained.map (fun t => (t.width, t.reversed, t.map, t.cause)), fld h (pBAY 0) Fld.BAY.LANE_STATE)) =
      (some (1, true, [0, 0, 1, 0], 0x10), 0x0051) ∧
    (let h := attemptEnd (startTraining (put live [(pBAY 20, Fld.BAY.ROLECFG_ROLE, 3), (pBAY 20, Fld.BAY.ROLECFG_QBOND, 1)]) 20)
      20 { tin with lanes := (List.range 4).map (fun n => .locked n false (.vendor 0x1F4C (tulleWord 6 0 n))) ++
        (List.range 4).map (fun n => .locked n false (.vendor 0x1F4C (tulleWord 7 4 n))) }
    ((bayRt h 20).trained.map (fun t => (t.width, t.peerNode, t.cause)), fld h (pBAY 21) Fld.BAY.LANE_STATE)) =
      (some (2, 6, 0x13), 0x6666) ∧
    earlyRefusal live 8 { tin with lanes := [.locked 0 false (.vendor 0x1F4C (tulleWord 5 9 0))] } = some 0x05 ∧
    earlyRefusal live 8 tin = some 0x03 := by decide +kernel

/-- R290, R288: the handle 0x0A00_2463 names node 5, index 0x123, generation 3. -/
theorem test_handle : hNode 0x0A002463 = 5 ∧ hIdx 0x0A002463 = 0x123 ∧ hGen 0x0A002463 = 3 := by decide

/-- R102: the low half of PAG.ACCERR_CNT 0x0000_0001_0000_0003 reads 3, the latch takes 1, and the register clears. -/
theorem test_low_half_clears : (after (.lowHalfRead (regAccess (.core 2) pPAG 0x110)) (at0 (put live
    [(pPAG, Fld.PAG.ACCERR_CNT_LO, 3), (pPAG, Fld.PAG.ACCERR_CNT_HI, 1)]))).map (fun t =>
      ((latchOf t.hub (.core 2)).map (·.value), fld t.hub pPAG Fld.PAG.ACCERR_CNT_LO, fld t.hub pPAG Fld.PAG.ACCERR_CNT_HI)) =
    some (some 1, 0, 0) := by decide +kernel

/-- R357, R358: two sources raised in one hc count two hits and one run. -/
theorem test_hits : ((after (.swfire .zhozha 3) (at0 (put live [(pEVT, Fld.EVT.T_TASK_KIND.nth 5, 1), (pEVT, Fld.EVT.T_TASK_EN.nth 5, 1),
    (pEVT, Fld.EVT.T_SRCMASK2.nth 5, 0x03000000)]))).map (fun t => (fld t.hub pEVT (Fld.EVT.T_HITS.nth 5),
      fld t.hub pEVT (Fld.EVT.T_RUNS.nth 5)))) = some (2, 1) := by decide +kernel

/-- The CRC32C of "123456789" (the check value of the Castagnoli polynomial). -/
theorem test_crc32c : crc32c [0x31, 0x32, 0x33, 0x34, 0x35, 0x36, 0x37, 0x38, 0x39] = 0xE3069283 := by decide +kernel

/-- The SHA-384 of "abc" (FIPS 180-4's example). -/
theorem test_sha384 : (sha384 [0x61, 0x62, 0x63]).take 8 = [0xcb, 0x00, 0x75, 0x3f, 0x45, 0xa3, 0x5e, 0x8b] := by
  decide +kernel

end Sys2Proof.Tests
end

section
/-! PROOFS. The statements on management SRAM, on what a write leaves in a register's fields, and on accesses of the
register windows. -/

namespace Sys2Proof.Machine

/-! ### Management SRAM -/

/-- A byte after a write of bytes: of the bytes written, the first stands at its own offset, and those that follow lie
above. -/
theorem ramGet_ramWrite (m : List Host.Cell) (a : Nat) (bs : List Nat) (x : Nat) :
    ramGet (ramWrite m a bs) x =
      if a ≤ x ∧ x < a + bs.length ∧ x < sramSize then BitVec.ofNat 8 (bs.getD (x - a) 0) else ramGet m x := by
  induction bs generalizing m a with
  | nil => rw [ramWrite, if_neg (by rw [List.length_nil]; omega)]
  | cons b t ih =>
    rw [ramWrite, ih, ramGet_ramSet, List.length_cons]
    rcases Nat.lt_trichotomy x a with below | rfl | above
    · rw [if_neg (by omega), if_neg (by omega), if_neg (by omega)]
    · have head : (x ≤ x ∧ x < x + (t.length + 1) ∧ x < sramSize) ↔ (x = x ∧ x < sramSize) := by omega
      rw [if_neg (by omega), Nat.sub_self, List.getD_cons_zero]
      simp only [head]
    · have tail : x - a = x - (a + 1) + 1 := by omega
      rw [tail, List.getD_cons_succ]
      have same : (a + 1 ≤ x ∧ x < a + 1 + t.length ∧ x < sramSize) ↔ (a ≤ x ∧ x < a + (t.length + 1) ∧ x < sramSize) := by
        omega
      simp only [same, if_neg (show ¬(x = a ∧ a < sramSize) by omega)]

/-- Settles O40, by induction on the bytes written. -/
theorem sramReadAfterWrite : Obligations.SramReadAfterWrite := ramGet_ramWrite

/-! ### What a write leaves in a register's fields -/

/-- In a fold over pairs whose step gives the same first part whatever the second, the second part at the start is without
effect on the first. -/
theorem foldl_fst_congr {α β γ : Type} (g : α × β → γ → α × β) (k : ∀ a b b' c, (g (a, b) c).1 = (g (a, b') c).1)
    (l : List γ) (a : α) (b b' : β) : (l.foldl g (a, b)).1 = (l.foldl g (a, b')).1 := by
  have hom : ∀ b', l.foldl (fun a c => (g (a, b) c).1) a = (l.foldl g (a, b')).1 := fun b' =>
    List.foldl_hom Prod.fst (init := (a, b')) fun p c => k p.1 b p.2 c
  exact (hom b).symm.trans (hom b')

/-- A write of a list of fields in two parts is a write of the first and then of the second. -/
theorem applyFields_append (h : Hub) (c : Cls) (lk : Bool) (pg : Nat) (l r : List FieldDef) (v : Nat) :
    (applyFields h c lk pg (l ++ r) v).1 = (applyFields (applyFields h c lk pg l v).1 c lk pg r v).1 := by
  unfold applyFields
  rw [List.foldl_append]
  refine foldl_fst_congr _ (fun a b b' f => ?_) r _ _ _
  dsimp only
  by_cases low : c.rank < f.cls.rank
  · simp only [low, if_true]
  · simp only [low, if_false]
    cases f.acc <;> simp only [apply_ite Prod.fst]

section
variable {h : Hub} {c : Cls} {lk : Bool} {pg : Nat} {f : FieldDef} {v : Nat}

/-- A field of a higher class takes nothing. -/
theorem applyFields_higher_class (low : c.rank < f.cls.rank) : (applyFields h c lk pg [f] v).1 = h := by
  simp [applyFields, low]

/-- An RW field of a class that is reached takes the value, but under LOCK and where the value is a reserved encoding. -/
theorem applyFields_rw (ok : f.cls.rank ≤ c.rank) (a : f.acc = .rw) :
    (applyFields h c lk pg [f] v).1 =
      if lk = true ∨ reservedEnc pg f (bits v f.lo f.width &&& fieldMask pg f) = true then h
      else setFld h pg f (bits v f.lo f.width &&& fieldMask pg f) := by
  simp only [applyFields, List.foldl_cons, List.foldl_nil, Nat.not_lt.mpr ok, if_false, a]
  cases lk <;> simp [apply_ite Prod.fst]

/-- A W1C field of a class that is reached loses the bits written with 1, under LOCK too. -/
theorem applyFields_w1c (ok : f.cls.rank ≤ c.rank) (a : f.acc = .w1c) :
    (applyFields h c lk pg [f] v).1 =
      setFld h pg f (fld h pg f &&& (2 ^ f.width - 1 - (bits v f.lo f.width &&& fieldMask pg f))) := by
  simp [applyFields, Nat.not_lt.mpr ok, a]

/-- A W1S field of a class that is reached gains the bits written with 1, but under LOCK. -/
theorem applyFields_w1s (ok : f.cls.rank ≤ c.rank) (a : f.acc = .w1s) :
    (applyFields h c lk pg [f] v).1 =
      if lk = true then h else setFld h pg f (fld h pg f ||| (bits v f.lo f.width &&& fieldMask pg f)) := by
  simp [applyFields, Nat.not_lt.mpr ok, a, apply_ite Prod.fst]

/-- RO and RC fields take nothing, and WO fields store nothing. -/
theorem applyFields_unstored (a : f.acc = .ro ∨ f.acc = .rc ∨ f.acc = .wo) : (applyFields h c lk pg [f] v).1 = h := by
  rcases a with a | a | a <;> simp [applyFields, a, apply_ite Prod.fst]

/-- A write of one field leaves every field of another key. -/
theorem fld_applyFields_single_ne {f' : FieldDef} (n : fieldKey pg f' ≠ fieldKey pg f) :
    fld (applyFields h c lk pg [f] v).1 pg f' = fld h pg f' := by
  by_cases low : c.rank < f.cls.rank
  · rw [applyFields_higher_class low]
  · have ok : f.cls.rank ≤ c.rank := Nat.le_of_not_lt low
    cases a : f.acc with
    | rw => rw [applyFields_rw ok a]; split <;> simp [fld_setFld_ne _ _ n]
    | w1c => rw [applyFields_w1c ok a, fld_setFld_ne _ _ n]
    | w1s => rw [applyFields_w1s ok a]; split <;> simp [fld_setFld_ne _ _ n]
    | ro => rw [applyFields_unstored (.inl a)]
    | rc => rw [applyFields_unstored (.inr (.inl a))]
    | wo => rw [applyFields_unstored (.inr (.inr a))]

/-- A write of a list of fields leaves every field of another key. -/
theorem fld_applyFields_ne {fs : List FieldDef} (n : ∀ g ∈ fs, fieldKey pg f ≠ fieldKey pg g) :
    fld (applyFields h c lk pg fs v).1 pg f = fld h pg f := by
  induction fs generalizing h with
  | nil => rfl
  | cons g t ih =>
    rw [← List.singleton_append, applyFields_append, ih (fun x hx => n x (List.mem_cons_of_mem _ hx)),
      fld_applyFields_single_ne (n g List.mem_cons_self)]

/-- Among fields of different keys, one reads after the write as if it alone had been written, on a hub where it had its
value. -/
theorem fld_applyFields_as_single {fs : List FieldDef} (d : fs.Pairwise (fun a b => fieldKey pg a ≠ fieldKey pg b))
    (m : f ∈ fs) : ∃ g : Hub, fld g pg f = fld h pg f ∧
      fld (applyFields h c lk pg fs v).1 pg f = fld (applyFields g c lk pg [f] v).1 pg f := by
  obtain ⟨l, r, rfl⟩ := List.append_of_mem m
  obtain ⟨_, right, across⟩ := List.pairwise_append.mp d
  refine ⟨(applyFields h c lk pg l v).1,
    fld_applyFields_ne (fun g hg => (across g hg f List.mem_cons_self).symm), ?_⟩
  rw [applyFields_append, ← List.singleton_append, applyFields_append,
    fld_applyFields_ne (fun g hg => (List.pairwise_cons.mp right).1 g hg)]

end

/-- What is written to a field fits its width. -/
theorem writtenBits_lt (pg : Nat) (f : FieldDef) (v : Nat) : bits v f.lo f.width &&& fieldMask pg f < 2 ^ f.width :=
  Nat.lt_of_le_of_lt Nat.and_le_left (Nat.mod_lt _ (Nat.two_pow_pos _))

/-- Clearing the bits of a number: within the width, a bit stays where the number has a 0. -/
theorem testBit_clear_mod {w x : Nat} (y : Nat) {i : Nat} (hx : x < 2 ^ w) (hi : i < w) :
    ((y &&& (2 ^ w - 1 - x)) % 2 ^ w).testBit i = (y.testBit i && !x.testBit i) := by
  rw [show 2 ^ w - 1 - x = 2 ^ w - (x + 1) by omega, Nat.testBit_mod_two_pow, Nat.testBit_and,
    Nat.testBit_two_pow_sub_succ hx]
  simp [hi]

/-- Settles O42: a field reads as if it alone had been written, and one field written alone follows its access code. -/
theorem storedByAccessCode : Obligations.StoredByAccessCode := by
  unfold Obligations.StoredByAccessCode
  intro h c lk pg fs v d f m
  obtain ⟨g, same, alone⟩ := fld_applyFields_as_single (h := h) (c := c) (lk := lk) (v := v) d m
  simp only [alone, ← same]
  refine ⟨fun low => ?_, fun ok a => ?_, fun ok a i hi => ?_, fun ok a l => ?_, fun ok a l i hi => ?_, fun a => ?_⟩
  · rw [applyFields_higher_class low]
  · rw [applyFields_rw ok a]
    split <;> simp
  · rw [applyFields_w1c ok a, fld_setFld_self, testBit_clear_mod _ (writtenBits_lt pg f v) hi]
  · rw [applyFields_w1s ok a, if_pos l]
  · rw [applyFields_w1s ok a, if_neg (by simp [l]), fld_setFld_self, Nat.testBit_mod_two_pow, Nat.testBit_or]
    simp [hi]
  · rw [applyFields_unstored a]

/-! ### The shapes of an access of one DW -/

/-- The windows list fewer than 512 pages. -/
theorem pageExists_lt {pg : Nat} (p : pageExists pg = true) : pg < 512 := by
  simp only [pageExists, Bool.or_eq_true, Bool.and_eq_true, decide_eq_true_eq] at p
  omega

/-- Logging no kind does nothing. -/
theorem logKinds_nil (h : Hub) (a : Access) (w : Bool) : logKinds h [] a w = h := rfl

/-- An aligned access of 4 bytes is one DW. -/
theorem dwParts_dw {off : Nat} (al : off % 4 = 0) : dwParts 5 off 4 = [(off, 4)] := by
  simp [dwParts, al]

/-- An aligned access of 4 bytes is not unaligned. -/
theorem unaligned_dw (o : Origin) (w : Window) (pg : Nat) {off : Nat} (al : off % 4 = 0) :
    unaligned { origin := o, win := w, page := pg, off := off, nbytes := 4, gaps := [] } = false := by
  simp [unaligned, Access.contig, al]

/-- An aligned access of 4 bytes stays within its page. -/
theorem crosses_dw (o : Origin) (w : Window) (pg : Nat) {off : Nat} (al : off % 4 = 0) (lt : off < 4096) :
    crosses { origin := o, win := w, page := pg, off := off, nbytes := 4, gaps := [] } = false := by
  have inPage : ¬ 4096 < off + 4 := by omega
  simp [crosses, inPage]

section
variable {h : Hub} {o : Origin} {pg off : Nat}

/-- A write of an aligned DW of REGWIN is a register write (R97, R103). -/
theorem accessWrite_regAccess {v : Nat} (al : off % 4 = 0) (lt : off < 4096) (hv : v < 2 ^ 32)
    (d : decodes h o = true) (p : pageExists pg = true) : accessWrite h (regAccess o pg off) v = regWrite32 h o pg off v := by
  have window : ¬ 512 ≤ pg := Nat.not_le.mpr (pageExists_lt p)
  have val : v % 4294967296 = v := Nat.mod_eq_of_lt hv
  unfold accessWrite
  simp [regAccess, d, crosses_dw o .regwin pg al lt, writeWin, window, writeRegwin, p, unaligned_dw o .regwin pg al,
    dwParts_dw al, writeParts, val, beShown]

/-- A read of an aligned DW of REGWIN answers what `readDw` gives, and logs what it says (R97). -/
theorem accessRead_regAccess (al : off % 4 = 0) (lt : off < 4096) (d : decodes h o = true) (p : pageExists pg = true) :
    accessRead h (regAccess o pg off) =
      emit (logKinds (readDw h o pg off).2.1 (readDw h o pg off).2.2 (regAccess o pg off) false)
        (.readData o (readDw h o pg off).1) := by
  have window : ¬ 512 ≤ pg := Nat.not_le.mpr (pageExists_lt p)
  unfold accessRead
  simp [regAccess, d, crosses_dw o .regwin pg al lt, readWin, window, readRegwin, p, unaligned_dw o .regwin pg al,
    dwParts_dw al, readParts]

/-! ### What a read of one DW gives (R92, R100, R101) -/

/-- A read of the low half of a 64-bit register arms the latch with the high half. -/
theorem readDw_low (r : readRefused h o pg = false) (hid : allHidden (clsOf o) pg off = false)
    (lo : lowHalf pg off = true) : readDw h o pg off =
      (wordFor h o pg off,
        latchArm (if isRc pg off then clearRc (clearRc h (clsOf o) pg off) (clsOf o) pg (off + 4) else h) o pg off
          (wordFor h o pg (off + 4)) (isRc pg off), []) := by
  simp [readDw, r, hid, lo]

/-- A read of a high half that a fresh latch holds answers the latch and disarms it. -/
theorem readDw_latched {l : Latch} (r : readRefused h o pg = false) (hid : allHidden (clsOf o) pg off = false)
    (lo : lowHalf pg off = false) (hi : highHalf pg off = true) (k : latchOf h o = some l) (hp : l.page = pg)
    (ho : l.off = off - 4) (fresh : h.htime - l.time < 1024) : readDw h o pg off = (l.value, latchDrop h o, []) := by
  simp [readDw, r, hid, lo, hi, k, hp, ho, fresh]

/-- A read of an RC register of 32 bits clears it. -/
theorem readDw_rc (r : readRefused h o pg = false) (hid : allHidden (clsOf o) pg off = false)
    (lo : lowHalf pg off = false) (hi : highHalf pg off = false) (rc : isRc pg off = true) :
    readDw h o pg off = (wordFor h o pg off, clearRc h (clsOf o) pg off, []) := by
  simp [readDw, r, hid, lo, hi, rc]

/-- A served read of one aligned DW of PERFWIN answers its one part (R376, R377). -/
theorem readPerfwin_dw (al : off % 4 = 0) (p : pageExists pg = true) (k : perfServed h o pg = true) :
    readPerfwin h { origin := o, win := .perfwin, page := pg, off := off, nbytes := 4, gaps := [] } = perfPart h o pg off 4 := by
  simp [readPerfwin, p, unaligned_dw o .perfwin pg al, k, dwParts_dw al, perfParts]

/-! ### Halves of 64-bit registers written (R102) -/

/-- A served write of a low half is staged. -/
theorem lowWriteK_served {v : Nat} (k : served h o pg off v) : lowWriteK h o pg off v false = stagePut h o pg off v := by
  obtain ⟨a, b, c⟩ := k
  simp [lowWriteK, a, b, c, logKinds_nil]

/-- A served write of a high half whose low half is freshly staged stores both. -/
theorem wide64_staged {v : Nat} {lo hi : FieldDef} {t : Stage} (k : served h o pg off v)
    (st : stageFor h o pg off = some t) (fresh : h.htime - t.time < 1024) :
    wide64 h o pg off v lo hi = setFld64 (stageDrop h o) pg lo hi (t.value + 2 ^ 32 * v) := by
  obtain ⟨a, b, c⟩ := k
  simp [wide64, highWriteK, a, b, c, st, fresh, logKinds_nil]

/-- A served write of a block register is the block's (R103). -/
theorem regWrite32_block {v : Nat} (k : served h o pg off v) (blk : 0x100 ≤ off) :
    regWrite32 h o pg off v = blockWrite h o pg off v := by
  obtain ⟨d, p⟩ := served_decodes k
  simp [regWrite32, d, p, Nat.not_lt.mpr blk]

/-- A served write of the low half of RING_BASE, DUMP_BASE or RD_SEQ is staged. -/
theorem regWrite32_lowHalf {v : Nat} {x : Nat × Nat} (m : x ∈ [(pACN, 0x104), (pCNT, 0x108), (pSMP, 0x108), (pSCB, 0x11C)])
    (k : served h o x.1 x.2 v) : regWrite32 h o x.1 x.2 v = stagePut h o x.1 x.2 v := by
  rw [← lowWriteK_served k]
  simp only [List.mem_cons, List.not_mem_nil, or_false] at m
  obtain rfl | rfl | rfl | rfl := m <;> exact regWrite32_block k (by decide)

/-- A served write of their high half joins what is staged. -/
theorem regWrite32_highHalf {v : Nat} {x : Nat × Nat × FieldDef × FieldDef}
    (m : x ∈ [(pACN, 0x108, Fld.ACN.RING_BASE_LO, Fld.ACN.RING_BASE_HI), (pCNT, 0x10C, Fld.CNT.DUMP_BASE_LO, Fld.CNT.DUMP_BASE_HI),
      (pSMP, 0x10C, Fld.SMP.RING_BASE_LO, Fld.SMP.RING_BASE_HI), (pSCB, 0x120, Fld.SCB.RD_SEQ_LO, Fld.SCB.RD_SEQ_HI)])
    (k : served h o x.1 x.2.1 v) : regWrite32 h o x.1 x.2.1 v = wide64 h o x.1 x.2.1 v x.2.2.1 x.2.2.2 := by
  simp only [List.mem_cons, List.not_mem_nil, or_false] at m
  obtain rfl | rfl | rfl | rfl := m <;> exact regWrite32_block k (by decide)

end

/-- A command that reads leads to what the read answers and leaves. -/
theorem leadsHub_of_read {c : Instr} {s : State} {o : Origin} {pg off v : Nat} {t : Hub}
    (e : exec c s = .next (s.onHub fun h => accessRead h (regAccess o pg off))) (al : off % 4 = 0) (lt : off < 4096)
    (d : decodes s.hub o = true) (p : pageExists pg = true) (k : readDw s.hub o pg off = (v, t, [])) :
    leadsHub c s (emit t (.readData o v)) :=
  leadsHub_of e (by rw [accessRead_regAccess al lt d p, k, logKinds_nil])

/-- Settles O7, clause by clause, from the shape of the access and the register's own rule. -/
theorem registerAccessesComplete : Obligations.RegisterAccessesComplete := by
  unfold Obligations.RegisterAccessesComplete
  refine ⟨?registerWrite, ?rcRead, ?lowHalfRead, ?lowHalfReadRc, ?highHalfRead, ?latchExpiry, ?lowHalfWrite, ?highHalfWrite,
    ?stageExpired, ?perfwinRead⟩
  case registerWrite =>
    intro s o pg off v al lt hv d p
    exact leadsPicot_of rfl (accessWrite_regAccess al lt hv d p)
  case rcRead =>
    intro s o pg off al lt d p r hid rc lo hi
    exact leadsHub_of_read rfl al lt d p (readDw_rc r hid lo hi rc)
  case lowHalfRead =>
    intro s o pg off al lt d p r hid rc lo
    exact leadsHub_of_read rfl al lt d p (by rw [readDw_low r hid lo, rc]; rfl)
  case lowHalfReadRc =>
    intro s o pg off al lt d p r hid rc lo
    exact leadsHub_of_read rfl al lt d p (by rw [readDw_low r hid lo, rc]; rfl)
  case highHalfRead =>
    intro s o pg off l al lt d p r hid lo hi k hp ho fresh
    exact leadsHub_of_read rfl al lt d p (readDw_latched r hid lo hi k hp ho fresh)
  case latchExpiry =>
    intro s o l k
    exact leadsHub_of rfl (by simp only [k])
  case lowHalfWrite =>
    intro s o v x m k
    exact leadsPicot_of rfl (regWrite32_lowHalf m k)
  case highHalfWrite =>
    intro s o v x t m k st fresh
    exact leadsPicot_of rfl ((regWrite32_highHalf m k).trans (wide64_staged k st fresh))
  case stageExpired =>
    intro s o t k
    exact leadsHub_of rfl (by simp only [k])
  case perfwinRead =>
    intro s o pg off n d p al n4 k
    subst n4
    exact leadsHub_of rfl (by simp [d, readPerfwin_dw al p k])

end Sys2Proof.Machine
end

section
/-! PROOFS. The statement on the messages of a host. -/

namespace Sys2Proof.Machine

/-- A clean-eviction notice of a host whose link, mode and line are served reaches the line's home and is completed
(R163). -/
theorem localNotice_taken {h : Hub} {b : Bay} {hpa : Nat} {line : LineAddr} {e : Emit} (k : hostTakes h b hpa line) :
    localNotice h b.val (hdmLine h b.val hpa) e =
      bayPut (notice h line (bayAgent h b.val)) b.val e none srcInternal (fld h pBOB Fld.BOB.PRI_WB) := by
  obtain ⟨_, decoded, mode, mapped, media⟩ := k
  cases home : whereIs h line with
  | unmapped => exact absurd home mapped
  | noMedia => exact absurd home media
  | here | peer => simp [localNotice, decoded, mode, home]

/-- Settles O19, clause by clause: a request or a notice that is taken by what becomes of it, any other message by the
branch of its meaning that the clause's conditions select. The completions of notices are CXL's (log entry 29), and the
writes that hold back the end of GPF phase 2 are those of `hostWritesDone` (log entry 92). -/
theorem hostMemoryCommandsComplete : Obligations.HostMemoryCommandsComplete := by
  unfold Obligations.HostMemoryCommandsComplete
  refine ⟨?rdShared, ?rdOwn, ?rdCur, ?rdAny, ?upgrade, ?meminvI, ?memclnevct, ?memspecrd, ?memwr, ?birsp, ?biconflict,
    ?gpfPhase2Request, ?gpfComplete, ?getPoisonList⟩
  case rdShared | rdOwn | rdCur | rdAny | upgrade =>
    intro s b hpa line k
    exact leadsCoh_of rfl (hostArrive_taken k)
  case meminvI | memclnevct =>
    intro s b hpa line k
    have link : hostOk s.hub b.val = true := k.left
    exact leadsCoh_of rfl ((if_pos link).trans (localNotice_taken k))
  case memspecrd =>
    intro s b hpa mode
    exact leadsHub_of rfl (by simp [mode])
  case memwr =>
    intro s b hpa line m d mask poison k
    obtain ⟨link, decoded, mode, mapped, media⟩ := k
    refine leadsCoh_of rfl ?_
    cases home : whereIs s.hub line with
    | unmapped => exact absurd home mapped
    | noMedia => exact absurd home media
    | here | peer => simp [link, decoded, mode, home]
  case birsp =>
    intro s b line shared h' link alive answered
    exact leadsCoh_of rfl (by simp [link, alive, answered])
  case biconflict =>
    intro s b line link out
    exact leadsCoh_of rfl (by simp [link, out])
  case gpfPhase2Request =>
    intro s b bay done
    exact leadsTulle_of rfl (by simp [bay, done, gpfEnds])
  case gpfComplete =>
    intro s b phase bay
    exact leadsTulle_of rfl (by simp [phase, bay])
  case getPoisonList =>
    intro s b link
    exact leadsHub_of rfl (by simp [link])

end Sys2Proof.Machine
end

section
/-! PROOFS. The statements on bays and links: resets that come from hosts, the config space of a host's function, training,
link changes and the bays' configuration. -/

namespace Sys2Proof.Machine

/-! ### What a bay holds and when its link is up -/

section
variable {h : Hub} {b : Nat}

/-- A change of what a bay holds is what it gives for the present contents. -/
theorem modBay_congr {f g : BayRt → BayRt} (k : f (bayRt h b) = g (bayRt h b)) : modBay h b f = modBay h b g := by
  unfold modBay; rw [k]

/-- A bay that trains leads its group, and the group is in Detect or in training. -/
theorem training_lstate (t : training h b = true) : leadOf h b = b ∧ (lstate h b = 2 ∨ lstate h b = 3) := by
  simp only [training, Bool.and_eq_true, Bool.or_eq_true, beq_iff_eq] at t
  obtain ⟨lead, st⟩ := t
  exact ⟨lead, by rwa [lstate, lead]⟩

/-- The link of a bay that trains is not up. -/
theorem not_bayUp_of_training (t : training h b = true) : bayUp h b = false := by
  obtain ⟨_, st⟩ := training_lstate t
  rcases st with st | st <;> simp [bayUp, st]

/-- A bay whose link is up does not train. -/
theorem not_training_of_bayUp (up : bayUp h b = true) : training h b = false :=
  Bool.eq_false_iff.mpr fun t => Bool.eq_false_iff.mp (not_bayUp_of_training t) up

/-- A link that is not up does not fall. -/
theorem linkFalls_of_not_bayUp (down : bayUp h b = false) : linkFalls h b = h := by simp [linkFalls, down]

/-- A bay that a host may reset in band has role H. -/
theorem roleOf_of_hBay (k : hBay h b = true) : roleOf h b = 1 := by
  simp only [hBay, Bool.and_eq_true, beq_iff_eq] at k
  obtain ⟨⟨_, role⟩, _⟩ := k
  exact role

/-! ### Equalisation that fails (R41, R44) -/

section
variable {r : Nat}

/-- No rate is left below the floor: the attempt is refused. -/
theorem rateDown_at_floor (down : bayUp h b = false) (two : 2 ≤ r)
    (floor : r ≤ fld h (pBAY b) Fld.BAY.LINKCFG_MIN_RATE) : rateDown h b r = refuse h b 0x09 := by
  have lost : rateLost h b (r - 1) = true := decide_eq_true (by omega)
  rw [rateDown, if_neg (by omega), if_pos lost, linkFalls_of_not_bayUp down]

/-- Above the floor the next lower rate is not lost. -/
theorem rateLost_pred (above : fld h (pBAY b) Fld.BAY.LINKCFG_MIN_RATE < r) : rateLost h b (r - 1) = false :=
  decide_eq_false (by omega)

/-- Above the floor an attempt that has not ended goes on at the next lower rate. -/
theorem rateDown_in_attempt (down : bayUp h b = false) (unended : (bayRt h b).trained = none) (two : 2 ≤ r)
    (above : fld h (pBAY b) Fld.BAY.LINKCFG_MIN_RATE < r) :
    rateDown h b r = modBay h b (fun x => { x with tryRate := r - 1, trained := none }) := by
  rw [rateDown, if_neg (by omega), if_neg (by simp [rateLost_pred above]), if_neg (by simp [down])]
  exact modBay_congr (by rw [unended]; rfl)

/-- Above the floor a link that is up, with no degradation recorded, goes on at the next lower rate and records that it is
slower. -/
theorem rateDown_on_link (up : bayUp h b = true) (two : 2 ≤ r) (above : fld h (pBAY b) Fld.BAY.LINKCFG_MIN_RATE < r)
    (clean : fld h (pBAY b) Fld.BAY.CAUSE_CODE = 0) :
    rateDown h b r =
      setIstat (setFld (setFld h (pBAY b) Fld.BAY.LSTAT_RATE (r - 1)) (pBAY b) Fld.BAY.CAUSE_CODE 0x14) (pBAY b) 3 := by
  rw [rateDown, if_neg (by omega), if_neg (by simp [rateLost_pred above]), if_pos up, clean]
  rfl

end

/-! ### Training, roles and the bays' configuration -/

/-- An attempt with an early refusal ends in it, its lanes recorded (R34, R35, R41). -/
theorem attemptEnd_refused {t : TrainIn} {c : Nat} (k : earlyRefusal h b t = some c) :
    attemptEnd h b t = refuse (putLanes (tsSend h b t) b (lanesFound h b t)) b c := by simp [attemptEnd, k]

/-- A write of ROLECFG to bays at rest with a bond that Table BAY-1 lists logs nothing (R28, R31). -/
theorem roleWrite_logs_nothing {v : Nat} (rest : (roleAffects h b v).all (atRest h) = true) (bond : bits v 2 3 ≤ 4) :
    (roleWrite h b v).2 = [] := by
  have good : ¬4 < bits v 2 3 := Nat.not_lt.mpr bond
  unfold roleWrite
  cases isMember h b <;> simp [rest, good]

/-- A served write of ROLECFG to bays at rest with a bond that Table BAY-1 lists does its effect. -/
theorem rolecfgWrite_served {o : Origin} {v : Nat} (k : served h o (pBAY b) 0x100 v)
    (rest : (roleAffects h b v).all (atRest h) = true) (bond : bits v 2 3 ≤ 4) :
    guardedK h o (pBAY b) 0x100 v (fun h => roleWrite h b v) = (roleWrite h b v).1 := by
  rw [guardedK_served k, roleWrite_logs_nothing rest bond, logKinds_nil]

/-- A served write of LINKCFG without a reserved encoding stores its fields (Table BAY-5). -/
theorem plainWrite_served {o : Origin} {pg off v : Nat} (k : served h o pg off v) (e : encodable h o pg off v) :
    plainWrite h o pg off v = stored h o pg off v := fieldWrite_served k e

/-! ### Resets that come from hosts -/

/-- Outside SEAL, QRST_N takes down the H bays of its quad and is counted (R47, R49, R50). -/
theorem qrstAssert_outside_seal {k : Nat} (mode : h.mode.mode ≠ .seal) :
    qrstAssert h k = (quadLeads { h with pins := { h.pins with qrst := h.pins.qrst ||| 2 ^ k } } k 1).foldl hostReset
      (bump { h with pins := { h.pins with qrst := h.pins.qrst ||| 2 ^ k } } (pBAY (4 * k)) Fld.BAY.QRST_CNT) :=
  if_neg (by simpa using mode)

/-- QRST_N deasserts: the H bays of its quad that it held train (R47). -/
theorem qrstDeassert_asserted {k : Nat} (on : bit h.pins.qrst k = true) :
    qrstDeassert h k = (quadLeads { h with pins := { h.pins with qrst := h.pins.qrst - 2 ^ k } } k 1).foldl
      (fun h b => if lstate h b = 7 then startTraining h b else h)
      { h with pins := { h.pins with qrst := h.pins.qrst - 2 ^ k } } := by
  simp only [qrstDeassert, on, if_true]

/-! ### The config space of a host's function -/

/-- The class code of a host's function (Table OVW-4). -/
theorem cfgView_classCode_of_hBay (k : hBay h b = true) : cfgView h b .classCode = 0x050210 :=
  if_pos (roleOf_of_hBay k)

/-- A host's function translates with PASIDs of 20 bits (R311). -/
theorem cfgView_pasidWidth_of_hBay (k : hBay h b = true) : cfgView h b .pasidWidth = 20 :=
  if_pos (by rw [roleOf_of_hBay k]; rfl)

/-- A host's function has 256 outstanding page requests at most (R311). -/
theorem cfgView_priCapacity_of_hBay (k : hBay h b = true) : cfgView h b .priCapacity = 256 :=
  if_pos (by rw [roleOf_of_hBay k]; rfl)

end

/-- A host's write of config space on a bay of an H group that is up has its field's effect (R33, R87). -/
theorem leadsTulleStops_configWrite {s : State} {b : Bay} {f : CfgField} {h : Hub} {act : Hub → Hub}
    (e : exec (.hostConfigWrite b f) s =
      .next (s.onTulle (withStops fun h => if !hBay h b.val then h else act h)))
    (up : hBay s.hub b.val = true) (k : act s.hub = h) : leadsTulleStops (.hostConfigWrite b f) s h :=
  leadsTulleStops_of e ((if_neg (by simp [up])).trans k)

/-- A read of what the function reports of itself answers it (log entry 77). -/
theorem leadsTulleStops_configRead {s : State} {b : Bay} {r : CfgReg} {v : Nat} (up : hBay s.hub b.val = true)
    (k : cfgView s.hub b.val r = v) :
    leadsTulleStops (.hostConfigWrite b (.read r)) s (emit s.hub (.readData (.hostH b) v)) :=
  leadsTulleStops_configWrite rfl up (congrArg (fun v => emit s.hub (.readData (.hostH b) v)) k)

/-! ### The statements -/

/-- Settles O4, clause by clause: a reset by the branch of its meaning that the clause's conditions select, a write of config
space by the field written. The reads ride on HOST_CONFIG_WRITE (log entry 77). -/
theorem hostResetCommandsComplete : Obligations.HostResetCommandsComplete := by
  unfold Obligations.HostResetCommandsComplete
  refine ⟨?qrstAssert, ?qrstDeassert, ?hotReset, ?linkDisable, ?linkRelease, ?functionLevelReset, ?enables, ?priAllocation,
    ?decoderSet, ?decoderCleared, ?ideKey, ?reads⟩
  case qrstAssert =>
    intro s q mode
    exact leadsPins_of rfl (qrstAssert_outside_seal mode)
  case qrstDeassert =>
    intro s q on
    exact leadsPins_of rfl (qrstDeassert_asserted on)
  case hotReset | linkDisable | functionLevelReset =>
    intro s b up
    exact leadsTulle_of rfl (if_pos up)
  case linkRelease =>
    intro s b disabled resting
    exact leadsTulle_of rfl ((if_pos disabled).trans (if_pos resting))
  case enables =>
    intro s b v up
    refine ⟨?memSpace, ?msix, ?functionMask, ?ats, ?pasid, ?priOff, ?priOn⟩
    case priOn => exact leadsTulleStops_configWrite rfl up (by cases (bayRt s.hub b.val).priEn <;> rfl)
    case memSpace | msix | functionMask | ats | pasid | priOff => exact leadsTulleStops_configWrite rfl up rfl
  case priAllocation =>
    intro s b n up
    exact leadsTulleStops_configWrite rfl up rfl
  case decoderSet =>
    intro s b i hpa lines tpa ways gran pos up nonempty
    exact leadsTulleStops_configWrite rfl up (by simp only [nonempty, if_false])
  case decoderCleared =>
    intro s b i hpa tpa ways gran pos up
    exact leadsTulleStops_configWrite rfl up rfl
  case ideKey =>
    intro s b slot key up
    exact leadsTulleStops_configWrite rfl up rfl
  case reads =>
    intro s b up
    refine ⟨?vendorId, ?deviceId, ?revisionId, ?classCode, ?pasidWidth, ?priCapacity⟩
    case classCode => exact leadsTulleStops_configRead up (cfgView_classCode_of_hBay up)
    case pasidWidth => exact leadsTulleStops_configRead up (cfgView_pasidWidth_of_hBay up)
    case priCapacity => exact leadsTulleStops_configRead up (cfgView_priCapacity_of_hBay up)
    case vendorId | deviceId | revisionId => exact leadsTulleStops_configRead up rfl

/-- Settles O5, clause by clause: each by the branch of its meaning that the clause's conditions select, a write of ROLECFG
or LINKCFG as a served write. How lanes are judged is the model's (log entry 65), and the flits that FEC corrected ride on
FLIT_REPLAY (log entry 77). -/
theorem bayCommandsComplete : Obligations.BayCommandsComplete := by
  unfold Obligations.BayCommandsComplete
  refine ⟨?trainingRetry, ?attemptRefused, ?attemptJudged, ?pollingTimeout, ?slowerAttempt, ?noRateLeft, ?slowerLink,
    ?linkUp, ?linkDown, ?holdExpiry, ?holdReset, ?rolecfgWrite, ?linkcfgWrite, ?recoveryEntry, ?replay, ?replayCorrected⟩
  case trainingRetry =>
    intro s b lead refused mayTrain
    exact leadsTulle_of rfl (if_pos (by simp [lead, refused, mayTrain]))
  case attemptRefused =>
    intro s b t c trains unended early
    exact leadsTulle_of rfl ((if_pos (by simp [trains, unended])).trans (attemptEnd_refused early))
  case attemptJudged =>
    intro s b t trains unended _
    exact leadsTulle_of rfl (if_pos (by simp [trains, unended]))
  case pollingTimeout =>
    intro s b trains unended
    exact leadsTulle_of rfl (if_pos (by simp [trains, unended]))
  case slowerAttempt =>
    rintro s b _ trains rfl two above unended
    exact leadsTulle_of rfl
      ((if_pos trains).trans (rateDown_in_attempt (not_bayUp_of_training trains) unended two above))
  case noRateLeft =>
    rintro s b _ trains rfl two floor
    exact leadsTulle_of rfl ((if_pos trains).trans (rateDown_at_floor (not_bayUp_of_training trains) two floor))
  case slowerLink =>
    rintro s b _ lead up rfl two above clean
    have still : ¬training s.hub b.val = true := by simp [not_training_of_bayUp up]
    exact leadsTulle_of rfl
      ((if_neg still).trans ((if_pos (by simp [lead, up])).trans (rateDown_on_link up two above clean)))
  case linkUp =>
    intro s b t trains mayTrain _
    exact leadsTulle_of rfl (if_pos (by simp [trains, mayTrain]))
  case holdExpiry =>
    intro s b lead held
    exact leadsTulle_of rfl (if_pos (by simp [lead, held]))
  case linkDown | holdReset | recoveryEntry | replay =>
    intro s b lead up
    exact leadsTulle_of rfl (if_pos (by simp [lead, up]))
  case rolecfgWrite =>
    intro s o b v k rest bond
    exact leadsTulle_of rfl (rolecfgWrite_served k rest bond)
  case linkcfgWrite =>
    intro s o b v k e
    exact leadsTulle_of rfl (congrArg (afterLinkcfg s.hub · b.val) (plainWrite_served k e))
  case replayCorrected =>
    intro s b n lead up corrected
    exact leadsTulle_of rfl ((if_pos (by simp [lead, up])).trans (by rw [flitsReplayed, if_neg corrected]))

end Sys2Proof.Machine
end

section
/-! PROOFS. The statements on a hub reset, on the start, on resets, supplies and the clock, on power failure, and on the
management bus. -/

namespace Sys2Proof.Machine

/-! ### What a hub reset leaves -/

section
variable {h : Hub} {cause rail : Nat} {vaux : Bool}

/-- PREV_RESET and LOSS_CNT are the only fields that a hub reset stores: a field of another key reads its reset value
(R61). -/
theorem fld_hubReset_ne {pg : Nat} {f : FieldDef} (n : fieldKey pg f ≠ fieldKey pCLK Fld.CLK.LOSS_CNT)
    (r : fieldKey pg f ≠ fieldKey pCLK Fld.CLK.PREV_RESET_RAIL) (c : fieldKey pg f ≠ fieldKey pCLK Fld.CLK.PREV_RESET_CAUSE) :
    fld (hubReset h cause rail vaux) pg f = f.reset := by
  rw [hubReset, fld_setFld_ne _ _ n, fld_setFld_ne _ _ r, fld_setFld_ne _ _ c]
  rfl

/-- PREV_RESET.CAUSE after a hub reset (R72, R82). -/
theorem fld_hubReset_cause : fld (hubReset h cause rail vaux) pCLK Fld.CLK.PREV_RESET_CAUSE =
    (if vaux || bit h.pins.railReset 5 then 0
     else if h.pins.thermtrip then fld h pCLK Fld.CLK.PREV_RESET_CAUSE % 256 else cause % 256) := by
  rw [hubReset, fld_setFld_ne _ _ (by decide), fld_setFld_ne _ _ (by decide), fld_setFld_self]
  simp only [apply_ite (· % 2 ^ Fld.CLK.PREV_RESET_CAUSE.width)]
  rfl

/-- PREV_RESET.RAIL after a hub reset (R72). -/
theorem fld_hubReset_rail : fld (hubReset h cause rail vaux) pCLK Fld.CLK.PREV_RESET_RAIL =
    (if vaux || bit h.pins.railReset 5 then 0
     else if h.pins.thermtrip then fld h pCLK Fld.CLK.PREV_RESET_RAIL % 8 else rail % 8) := by
  rw [hubReset, fld_setFld_ne _ _ (by decide), fld_setFld_self]
  simp only [apply_ite (· % 2 ^ Fld.CLK.PREV_RESET_RAIL.width)]
  rfl

/-- LOSS_CNT after a hub reset (R61, R72). -/
theorem fld_hubReset_lossCnt : fld (hubReset h cause rail vaux) pCLK Fld.CLK.LOSS_CNT =
    (if vaux then 0 else fld h pCLK Fld.CLK.LOSS_CNT % 2 ^ 32) := by
  rw [hubReset, fld_setFld_self]
  simp only [apply_ite (· % 2 ^ Fld.CLK.LOSS_CNT.width)]
  rfl

/-- A field of another register than PREV_RESET and LOSS_CNT reads its reset value after a hub reset. -/
theorem fld_hubReset_elsewhere {pg : Nat} {f : FieldDef} (off : f.off < 4096) (lo : f.lo < 32)
    (other : pg ≠ pCLK ∨ f.off ≠ 0x108 ∧ f.off ≠ 0x10C) : fld (hubReset h cause rail vaux) pg f = f.reset := by
  have apart : ∀ g : FieldDef, g.off = 0x108 ∨ g.off = 0x10C → g.lo < 32 → fieldKey pg f ≠ fieldKey pCLK g := by
    intro g reg glo same
    obtain ⟨page, offset, _⟩ := fieldKey_inj off (by omega) lo glo same
    omega
  exact fld_hubReset_ne (apart _ (.inr rfl) (by decide)) (apart _ (.inl rfl) (by decide)) (apart _ (.inl rfl) (by decide))

end

/-- Settles O45: PREV_RESET and LOSS_CNT by their own lemmas, every other field by its key; what is no register field is
written out by the reset, as what it keeps (log entry 70) and that it wipes management SRAM (log entry 31). -/
theorem hubResetLeaves : Obligations.HubResetLeaves := by
  unfold Obligations.HubResetLeaves
  intro h cause rail vaux
  exact ⟨⟨rfl, rfl, rfl, rfl⟩, rfl, rfl, fld_hubReset_cause, fld_hubReset_rail, fld_hubReset_lossCnt,
    fun _ _ => fld_hubReset_elsewhere, rfl, rfl, rfl, rfl, rfl, rfl, rfl, rfl, rfl⟩

/-! ### The sequencer of the start -/

/-- The step that follows a finished one, unless a power failure holds the sequencer there (R60, R75). -/
def seqAfter : SeqSt → SeqSt
  | .waiting => .counting
  | .counted => .sensing
  | .sensed => .pll
  | st => st

/-- The sequencer goes on from where it stands, or is held there. -/
theorem seqResume_eq (h : Hub) : seqResume h = setSeq h (if startHeld h then h.boot.seq else seqAfter h.boot.seq) := by
  unfold seqResume
  cases startHeld h with
  | true => rfl
  | false => cases k : h.boot.seq <;> simp [setSeq, seqAfter, ← k]

/-- A start that nothing prevents counts REFCLK, or waits where a power failure holds it. -/
theorem seqStart_of_canStart {h : Hub} (c : canStart h = true) :
    seqStart h = setSeq h (if startHeld h then .waiting else .counting) := by
  rw [seqStart, if_pos c, seqResume_eq]
  rfl

/-- Zhozha's start does not wait: nothing resumes. -/
theorem zhResume_of_zin_none {h : Hub} (z : h.boot.zin = none) : zhResume h = h := by simp [zhResume, z]

/-- The start of Picot's own channels leaves the boot state. -/
@[simp] theorem picStart_boot (h : Hub) : (picStart h).boot = h.boot := by simp [picStart, setCmp]

/-- Without a unit of the boot selection, slot A is active and no slot is on trial. -/
theorem bootSel_of_none {h : Hub} (z : zhItem h 1 0 = none) :
    (bootSel h).zhActive = 0 ∧ (bootSel h).zhTrial = 0 ∧ (bootSel h).zhRuns = 0 := by
  rw [bootSel, z]
  decide

/-- With no slot on trial, no slot is on trial after the choice and none is reverted. -/
theorem pickSlot_untried (valid : Nat → Bool) (active runs : Nat) :
    (pickSlot valid active 0 runs).onTrial = false ∧ (pickSlot valid active 0 runs).reverted = false := by
  simp only [pickSlot, if_true]
  split
  · exact ⟨rfl, rfl⟩
  · split <;> exact ⟨rfl, rfl⟩

/-- A store of a field leaves the images. -/
@[simp] theorem imgAt_setFld (h : Hub) (pg : Nat) (f : FieldDef) (v kind slot : Nat) :
    imgAt (setFld h pg f v) kind slot = imgAt h kind slot := rfl

/-- The ROM finds fuses and keep store sound and, without a unit of the boot selection, starts the slot picked (R388,
R395). -/
theorem romStart_picks {h : Hub} {k : Nat} {i : Image} (ecc : h.boot.eccOk = true) (grade : h.fuses.grade < 2)
    (devs : (activeDevs h).isEmpty = false) (unset : zhItem h 1 0 = none) (slot : (pickSlot (imgValid h 0) 0 0 0).slot = some k)
    (img : imgAt h 0 k = some i) :
    romStart h =
      { setFld (setFld (setFld (setFld h pLDG Fld.LDG.BOOT_ZH_SLOT k) pLDG Fld.LDG.BOOT_ZH_TRIAL 0) pLDG
          Fld.LDG.FLOOR h.fuses.zhSvn) pLDG Fld.LDG.ZH_SVN i.svn with
        trust := { h.trust with zhImg := some i, reverted := false },
        boot := { h.boot with point := .zhozha } } := by
  obtain ⟨active, trial, runs⟩ := bootSel_of_none unset
  obtain ⟨onTrial, reverted⟩ := pickSlot_untried (imgValid h 0) 0 0
  have low : ¬2 ≤ h.fuses.grade := Nat.not_le.mpr grade
  simp [romStart, ecc, low, devs, unset, active, trial, runs, slot, onTrial, reverted, img, b2n]

/-- Settles O1, clause by clause: the sequencer's commands by where it goes on, the others by the branch that the clause's
conditions select. -/
theorem startCommandsComplete : Obligations.StartCommandsComplete := by
  unfold Obligations.StartCommandsComplete
  refine ⟨?sequencerStart, ?refclkCountDone, ?fuseSensingDone, ?fuseSensingDoneGrade1, ?pllLock, ?hclkSwitch, ?romStart,
    ?zhozhaStart, ?coreRelease, ?coreReleaseResumes, ?mgmtCoreRelease, ?formatDone, ?formatDoneFirst⟩
  case sequencerStart =>
    intro s c
    exact leadsSupply_of rfl (seqStart_of_canStart c)
  case refclkCountDone =>
    intro s n st lo hi
    exact leadsTulle_of rfl ((if_pos (by simp [st, lo, hi])).trans (seqResume_eq _))
  case fuseSensingDone | fuseSensingDoneGrade1 =>
    intro s ok st grade
    refine leadsTulle_of rfl ((if_pos st).trans ((seqResume_eq _).trans ?_))
    simp [grade, setSeq, seqAfter, startHeld]
  case pllLock =>
    intro s rc st
    exact leadsTulle_of rfl (if_pos st)
  case hclkSwitch =>
    intro s st may clock
    exact leadsTulle_of rfl (if_pos (by simp [st, may, clock]))
  case romStart =>
    intro s k i point may ecc grade devs unset slot img
    exact leadsTulle_of rfl ((if_pos (by simp [point, may])).trans (romStart_picks ecc grade devs unset slot img))
  case zhozhaStart =>
    intro s z point may
    exact leadsTulle_of rfl (if_pos (by simp [point, may]))
  case coreRelease =>
    intro s clock off rails z
    exact leadsTulle_of rfl ((if_pos (by simp [clock, off, rails])).trans (zhResume_of_zin_none (by simp [z])))
  case coreReleaseResumes =>
    intro s _ clock off rails _ _ _
    exact leadsTulle_of rfl (if_pos (by simp [clock, off, rails]))
  case mgmtCoreRelease =>
    intro s z point on may
    exact leadsTulle_of rfl (by simp [zhResume_of_zin_none z, point, on, may])
  case formatDone =>
    intro s busy gen
    exact leadsTulle_of rfl (by simp [busy, gen])
  case formatDoneFirst =>
    intro s busy gen unit
    exact leadsTulle_of rfl (by simp [busy, gen, unit])

/-! ### Resets, supplies, the clock and thermal limits -/

/-- No trigger begins no BRACE. -/
theorem braceStart_zero (h : Hub) : braceStart h 0 = h := by simp [braceStart]

/-- The hub drives both keep store buses anew. -/
theorem ksDrives_eq (h : Hub) :
    ksDrives h = { h with out := h.out ++ [.ksBus 0 (ksDrive h 0), .ksBus 1 (ksDrive h 1)] } := by
  simp only [ksDrives, List.foldl_cons, List.foldl_nil, emit, List.append_assoc]
  rfl

/-- While HUB_RESET_N is asserted both keep store buses are released. -/
theorem ksDrive_held {h : Hub} (k : h.pins.hubReset = true) (d : Nat) : ksDrive h d = .released := if_pos k

/-- Otherwise a failed device's bus is parked. -/
theorem ksDrive_free {h : Hub} (k : h.pins.hubReset = false) (d : Nat) :
    ksDrive h d = if devState h d = 2 then .parked else .bus := if_neg (by simp [k])

/-- Settles O2, clause by clause: a start by `seqStart_of_canStart`, every other command by the branch that the clause's
conditions select. -/
theorem supplyCommandsComplete : Obligations.SupplyCommandsComplete := by
  unfold Obligations.SupplyCommandsComplete
  refine ⟨?hubResetAssert, ?hubResetDeassert, ?belowWarning, ?aboveWarning, ?belowReset, ?refclkLossUnlocked, ?refclkLoss,
    ?clockLossReset, ?refclkReturn, ?thermtrip, ?thermtripRelease, ?thermalWarning⟩
  case hubResetAssert =>
    intro s up
    refine leadsSupply_of rfl ((if_neg (by simp [up])).trans ((ksDrives_eq _).trans ?_))
    rw [ksDrive_held rfl, ksDrive_held rfl]
    rfl
  case hubResetDeassert =>
    intro s held c
    refine leadsSupply_of rfl ((if_pos held).trans ?_)
    rw [ksDrives_eq, ksDrive_free rfl, ksDrive_free rfl]
    exact seqStart_of_canStart c
  case belowWarning =>
    intro s r above
    refine leadsSupply_of rfl ((if_neg (by simp [above])).trans ?_)
    cases r with
    | vcore | vsram | vaux => rfl
    | vphyA | vphyH | vio => exact (braceStart_zero _).symm
  case aboveWarning =>
    intro s r below one
    refine leadsSupply_of rfl ((if_pos below).trans ?_)
    rcases one with rfl | rfl | rfl <;> rfl
  case belowReset =>
    intro s r
    exact leadsSupply_of rfl rfl
  case refclkLossUnlocked =>
    intro s on phase unlocked
    have lock : flag { s.hub with pins := { s.hub.pins with refclk := false } } pCLK Fld.CLK.STAT_LOCKED = false := unlocked
    exact leadsSupply_of rfl (by simp [on, phase, lock])
  case refclkLoss =>
    intro s on phase locked
    have lock : flag { s.hub with pins := { s.hub.pins with refclk := false } } pCLK Fld.CLK.STAT_LOCKED = true := locked
    exact leadsSupply_of rfl (by simp [on, phase, lock])
  case clockLossReset =>
    intro s hold
    exact leadsSupply_of rfl (if_pos hold)
  case refclkReturn =>
    intro s off c
    exact leadsSupply_of rfl ((if_neg (by simp [off])).trans (seqStart_of_canStart c))
  case thermtrip =>
    intro s cool
    exact leadsSupply_of rfl (if_neg (by simp [cool]))
  case thermtripRelease =>
    intro s hot rails
    exact leadsSupply_of rfl (if_pos (by simp [hot, rails]))
  case thermalWarning =>
    intro s t
    exact leadsTulle_of rfl rfl

/-! ### Power failure -/

section
variable {h : Hub} {c : PfCh}

/-- A channel driven leaves the other's level. -/
@[simp] theorem pfLevel_pfDrive_other (h : Hub) (c : PfCh) (v : Bool) :
    pfLevel (pfDrive h c v) (pfOther c) = pfLevel h (pfOther c) := by cases c <;> rfl

/-- A channel driven leaves which channels are excluded. -/
@[simp] theorem pfExcl_pfDrive (h : Hub) (c d : PfCh) (v : Bool) : pfExcl (pfDrive h c v) d = pfExcl h d := by
  cases c <;> cases d <;> rfl

/-- A channel driven leaves whether firmware runs. -/
@[simp] theorem running_pfDrive (h : Hub) (c : PfCh) (v : Bool) : running (pfDrive h c v) = running h := by cases c <;> rfl

/-- A channel driven leaves HTIME. -/
@[simp] theorem pfDrive_htime (h : Hub) (c : PfCh) (v : Bool) : (pfDrive h c v).htime = h.htime := by cases c <;> rfl

/-- A channel that asserts while firmware runs, not excluded (R451, R452): BRACE alone, SEAL where the other channel is
excluded or asserts too. -/
theorem pfAssert_running (low : pfLevel h c = false) (run : running h = true) (incl : pfExcl h c = false) :
    pfAssert h c =
      if pfExcl h (pfOther c) then enterSeal (pfDrive h c true) 2
      else if pfLevel h (pfOther c) then
        if h.htime - pfAt (pfDrive h c true) (pfOther c) ≤ discHc (pfDrive h c true) then enterSeal (pfDrive h c true) 1
        else enterSeal (pfDiscrepant (pfDrive h c true) (pfOther c)) 2
      else braceStart (pfDrive h c true) (pfNum c + 1) := by
  simp [pfAssert, low, run, incl]

/-- A served re-inclusion of an excluded channel that is not asserted includes it and logs nothing (R453). -/
theorem reinclude_excluded (excl : pfExcl h c = true) (low : pfLevel h c = false) :
    reinclude h c = (pfExclude h c false, []) := by simp [reinclude, excl, low]

/-- BRACE without a trigger ends after its quiet time; outside SERVE no event source reports it (R449, R451). -/
theorem braceEnd_outside_serve {t : Hub} (brace : h.mode.brace = true) (quiet : braceTrigger h = 0)
    (waited : advanceTo h (h.mode.quietAt + 2000000) = t) (mode : t.mode.mode ≠ .serve) :
    braceEnd h = { t with mode := { t.mode with brace := false } } := by
  simp [braceEnd, modMode, brace, quiet, waited, mode]

end

/-- Settles O3, clause by clause: a channel that asserts by what the other one does, every other command by the branch that
the clause's conditions select. -/
theorem powerFailCommandsComplete : Obligations.PowerFailCommandsComplete := by
  unfold Obligations.PowerFailCommandsComplete
  refine ⟨?assertAlone, ?assertOtherExcluded, ?assertBoth, ?deassert, ?exclusion, ?bootExclusion, ?deassertInStart,
    ?reinclude, ?braceExit, ?benchAssert, ?benchDeassert⟩
  case assertAlone =>
    intro s c low run incl otherIncl otherLow
    exact leadsPins_of rfl (by simp [pfAssert_running low run incl, otherIncl, otherLow])
  case assertOtherExcluded =>
    intro s c low run incl otherExcl
    exact leadsPins_of rfl (by simp [pfAssert_running low run incl, otherExcl])
  case assertBoth =>
    intro s c low run incl otherIncl otherHigh near
    exact leadsPins_of rfl (by simp [pfAssert_running low run incl, otherIncl, otherHigh, near])
  case deassert =>
    intro s c high run incl otherLow
    exact leadsPins_of rfl (by simp [pfDeassert, high, run, incl, otherLow])
  case exclusion =>
    intro s c run alone
    exact leadsTulle_of rfl (if_pos (by simp [run, alone]))
  case bootExclusion =>
    intro s c start alone
    exact leadsTulle_of rfl (if_pos (by simp [start, alone]))
  case deassertInStart =>
    intro s c high still
    exact leadsPins_of rfl (by simp [pfDeassert, high, still])
  case reinclude =>
    intro s o c k excl low
    exact leadsTulle_of rfl ((guardedK_served k).trans (by rw [reinclude_excluded excl low, logKinds_nil]))
  case braceExit =>
    intro s brace quiet mode
    exact leadsTulle_of rfl (braceEnd_outside_serve brace quiet rfl mode)
  case benchAssert =>
    intro s up
    exact leadsPins_of rfl (by simp [up])
  case benchDeassert =>
    intro s
    exact leadsPins_of rfl rfl

/-! ### The management bus -/

/-- A hub in recovery of the management bus whose PIN page interrupts the trusted core on ISTAT bit 0. -/
def interruptingHub : Hub := setFld (setFld (setMgmt Hub.reset 2) pPIN Fld.HDR.IEN 1) pPIN Fld.HDR.CTL_ROUTE_Z 1

/-- A target holds SDA low and SCL is free; both are free after the pulses. -/
def sdaStuck : BusTry := ⟨false, true, false, false⟩

/-- Each try sets ISTAT bit 0 of PIN, and that raises the interrupt's level before the pulses. -/
theorem recoverTry_interrupts :
    (recoverTry interruptingHub sdaStuck).out = [.irqLevel .trusted pPIN true, .sclPulses 9, .i3cStop] := by
  rfl

/-- Refutes O6: the clause on the pulses gives them as all that a try sends before recovery ends, but a try sets ISTAT bit 0
of PIN first (R63), and a page that is enabled and routed then drives its interrupt. -/
theorem not_sidebandCommandsComplete : ¬ Obligations.SidebandCommandsComplete := by
  unfold Obligations.SidebandCommandsComplete
  rintro ⟨_, _, recovery, _⟩
  have pulsesOnly := congrArg Hub.out (recovery interruptingHub sdaStuck rfl rfl)
  rw [recoverTry_interrupts] at pulsesOnly
  exact absurd pulsesOnly (by decide)

end Sys2Proof.Machine
end

section
/-! PROOFS. The statement on the messages of SPDM and MCTP. -/

namespace Sys2Proof.Machine

/-- An SPDM request of a session that is taken in its phase is answered (R398). -/
theorem inSession_taken {h : Hub} {p : SpdmPort} {phase : Nat} {act : Hub → Hub} (k : spdmTakes h p false 3)
    (session : (conn h p).session = phase) : inSession h p phase act = act h :=
  (spdmReq_taken k).trans (if_pos session)

/-- What a carrier notes of a message leaves to whom MCTP gives it. -/
@[simp] theorem mctpTo_carrierSeen (h : Hub) (c : Carrier) : mctpTo (carrierSeen h c) = mctpTo h := by cases c <;> rfl

/-- A message of MCTP arrives on a carrier that is up, and is handled where its check of integrity holds (R62). -/
theorem mctpArrive_up {h : Hub} {c : Carrier} {act : Hub → Hub} (k : answers h = true) (mode : h.mode.mode ≠ .seal)
    (up : carrierUp h c = true) :
    mctpArrive h c act = if carrierSound c then act (carrierSeen h c) else carrierSeen h c :=
  if_pos (by simp [k, mode, up])

/-- An SPDM request that is taken leads to what its meaning answers. -/
theorem leadsTulle_of_spdm {c : Instr} {s : State} {p : SpdmPort} {rom : Bool} {stage : Nat} {act : Hub → Hub} {t : Hub}
    (e : exec c s = .next (s.onTulle fun h => spdmReq h p rom stage act)) (k : spdmTakes s.hub p rom stage)
    (a : act s.hub = t) : leadsTulle c s t := leadsTulle_of e ((spdmReq_taken k).trans a)

/-- The same for a request of a session. -/
theorem leadsTulle_of_session {c : Instr} {s : State} {p : SpdmPort} {phase : Nat} {act : Hub → Hub} {t : Hub}
    (e : exec c s = .next (s.onTulle fun h => inSession h p phase act)) (k : spdmTakes s.hub p false 3)
    (session : (conn s.hub p).session = phase) (a : act s.hub = t) : leadsTulle c s t :=
  leadsTulle_of e ((inSession_taken k session).trans a)

/-- Settles O31, clause by clause: a request that is taken by the branch that the clause's conditions select, a message of
MCTP by its carrier. The codes and layouts of the answers are the model's (log entries 47, 73 and 90). -/
theorem attestationCommandsComplete : Obligations.AttestationCommandsComplete := by
  unfold Obligations.AttestationCommandsComplete
  refine ⟨?getVersion, ?getCapabilities, ?negotiateAlgorithms, ?getDigests, ?getCertificate, ?challenge, ?measurement,
    ?measurementCount, ?allMeasurements, ?keyExchange, ?finish, ?heartbeat, ?keyUpdate, ?endSession, ?vendorDefined,
    ?firstChunk, ?nextChunk, ?chunkGet, ?getEncapsulated, ?deliverEncapsulated, ?mctpMessage, ?mctpControl, ?mctpUnsound,
    ?smbusAddrDefault, ?smbusAddrPolicy⟩
  case getVersion | getCapabilities | negotiateAlgorithms | getDigests =>
    intro s p k
    exact leadsTulle_of_spdm rfl k rfl
  case getCertificate =>
    intro s p off len k inside devs
    exact leadsTulle_of_spdm rfl k (by simp [Nat.not_le.mpr inside, devs])
  case challenge =>
    intro s p k
    exact leadsTulle_of_spdm rfl k rfl
  case measurement =>
    intro s p i sign k one seven
    have index : ¬7 < i := Nat.not_lt.mpr seven
    have notAll : i ≠ 0xFF := by omega
    exact leadsTulle_of_spdm rfl k (by simp [index, notAll, Nat.ne_of_gt one])
  case measurementCount | allMeasurements =>
    intro s p sign k
    exact leadsTulle_of_spdm rfl k rfl
  case keyExchange =>
    intro s p reqId k closed
    exact leadsTulle_of_spdm rfl k (by simp [closed])
  case finish =>
    intro s p k handshake auth
    exact leadsTulle_of_session rfl k handshake (by rcases auth with a | a <;> simp [a])
  case heartbeat | endSession =>
    intro s p k established
    exact leadsTulle_of_session rfl k established rfl
  case keyUpdate =>
    intro s p op k established one three
    exact leadsTulle_of_session rfl k established (if_neg (by simp [Nat.ne_of_gt one, three]))
  case vendorDefined =>
    intro s p q k
    exact leadsTulle_of_spdm rfl k rfl
  case firstChunk =>
    intro s p hd len last k idle
    exact leadsTulle_of_spdm rfl k (by simp [idle])
  case nextChunk =>
    intro s p hd seq b len last k begun
    exact leadsTulle_of_spdm rfl k (by simp [begun])
  case chunkGet =>
    intro s p hd seq rest k sending
    exact leadsTulle_of_spdm rfl k (by simp [sending])
  case getEncapsulated =>
    intro s p k handshake asked
    exact leadsTulle_of_session rfl k handshake (if_pos asked)
  case deliverEncapsulated =>
    intro s p ok k handshake asked
    exact leadsTulle_of_session rfl k handshake (if_pos asked)
  case mctpMessage =>
    intro s c typ len k mode up sound
    exact leadsTulle_of rfl ((mctpArrive_up k mode up).trans ((if_pos sound).trans (by rw [mctpTo_carrierSeen])))
  case mctpControl =>
    intro s c code k mode up sound
    exact leadsTulle_of rfl ((mctpArrive_up k mode up).trans (if_pos sound))
  case mctpUnsound =>
    intro s typ len k mode up
    exact leadsTulle_of rfl (mctpArrive_up k mode up)
  case smbusAddrDefault =>
    intro h unset
    simp [smbusAddr, unset]
  case smbusAddrPolicy =>
    intro h p given
    simp [smbusAddr, given]

end Sys2Proof.Machine
end

section
/-! PROOFS. The statements on the register port: fields read after a write, dropped writes, error logs, and the header's
registers with the MSI-X table. -/

namespace Sys2Proof.Machine

/-! ### Stores in the register map -/

/-- A store touches nothing but the register map. -/
theorem setFld_regs_only (h : Hub) (pg : Nat) (f : FieldDef) (v : Nat) : { setFld h pg f v with regs := h.regs } = h := rfl

/-- Settles O41, from the laws of sparse maps. -/
theorem fieldReadAfterWrite : Obligations.FieldReadAfterWrite := by
  unfold Obligations.FieldReadAfterWrite
  exact ⟨fld_setFld_self, fun h _ _ v _ _ n => fld_setFld_ne h v n, setFld_regs_only,
    fun _ _ _ _ off off' lo lo' => fieldKey_inj off off' lo lo'⟩

/-- Stores in fields of a page, one after another. -/
def setFlds (h : Hub) (pg : Nat) (l : List (FieldDef × Nat)) : Hub := l.foldl (fun h e => setFld h pg e.1 e.2) h

section
variable {h : Hub} {pg pg' : Nat} {f : FieldDef} {v : Nat} {l : List (FieldDef × Nat)}

/-- Stores leave every field of another key. -/
theorem fld_setFlds_ne (n : ∀ g ∈ l.map Prod.fst, fieldKey pg' f ≠ fieldKey pg g) :
    fld (setFlds h pg l) pg' f = fld h pg' f := by
  induction l generalizing h with
  | nil => rfl
  | cons e t ih =>
    obtain ⟨head, tail⟩ := List.forall_mem_cons.mp n
    exact (ih tail).trans (fld_setFld_ne h e.2 head)

/-- Among stores in fields of different keys, each field reads as stored, cut to its width. -/
theorem fld_setFlds_mem (d : (l.map Prod.fst).Pairwise (fun a b => fieldKey pg a ≠ fieldKey pg b)) (m : (f, v) ∈ l) :
    fld (setFlds h pg l) pg f = v % 2 ^ f.width := by
  induction l generalizing h with
  | nil => cases m
  | cons e t ih =>
    obtain ⟨first, rest⟩ := List.pairwise_cons.mp d
    rcases List.mem_cons.mp m with rfl | later
    · exact (fld_setFlds_ne first).trans (fld_setFld_self h pg f v)
    · exact ih rest later

/-- Stores touch nothing but the register map. -/
theorem setFlds_regs_only (h : Hub) (pg : Nat) (l : List (FieldDef × Nat)) :
    { setFlds h pg l with regs := h.regs } = h := by
  suffices any : ∀ r, { setFlds h pg l with regs := r } = { h with regs := r } from any h.regs
  induction l generalizing h with
  | nil => exact fun _ => rfl
  | cons e t ih => exact ih (setFld h pg e.1 e.2)

end

/-! ### Error logs (R108) -/

/-- The fields of ERRLOG_A to ERRLOG_G that the first error fills, MORE apart. -/
def errlogFields : List FieldDef :=
  [Fld.HDR.ERRLOG_A_VALID, Fld.HDR.ERRLOG_A_CODE, Fld.HDR.ERRLOG_A_CLASS, Fld.HDR.ERRLOG_A_ORIGIN, Fld.HDR.ERRLOG_B_COUNT,
    Fld.HDR.ERRLOG_C_ADDR_LO, Fld.HDR.ERRLOG_F_ADDR_HI, Fld.HDR.ERRLOG_D_TIME_LO, Fld.HDR.ERRLOG_E_TIME_HI,
    Fld.HDR.ERRLOG_G_DETAIL]

/-- What the first error stores in each of them. -/
def errlogCapture (time code cls origin addr detail : Nat) : List (FieldDef × Nat) :=
  errlogFields.zip
    [1, code, cls, origin, 1, addr, addr / 2 ^ 32, time, time / 2 ^ 32, detail % 2 ^ 32]

/-- Keys of fields of one page differ where they differ on page 0. -/
theorem fieldKey_ne_of_page_zero (pg : Nat) {f g : FieldDef} (n : fieldKey 0 f ≠ fieldKey 0 g) :
    fieldKey pg f ≠ fieldKey pg g := by
  simpa [fieldKey, Nat.add_assoc] using n

/-- The fields of an error log have different keys. -/
theorem errlogFields_distinct (pg : Nat) : errlogFields.Pairwise (fun a b => fieldKey pg a ≠ fieldKey pg b) := by
  have atZero : errlogFields.Pairwise fun a b => fieldKey 0 a ≠ fieldKey 0 b := by decide
  exact atZero.imp fun n => fieldKey_ne_of_page_zero pg n

/-- The fields of an error log lie at offsets 0x024 to 0x03F (Table PAG-4). -/
theorem errlogFields_span : ∀ g ∈ errlogFields, 0x024 ≤ g.off ∧ g.off < 0x040 ∧ g.lo < 32 := by decide

/-- A field of another page, or outside the registers of the error log, has another key than the fields of the log. -/
theorem fieldKey_ne_errlogFields {pg pg' : Nat} {f : FieldDef} (off : f.off < 4096) (lo : f.lo < 32)
    (out : pg' ≠ pg ∨ f.off < 0x024 ∨ 0x040 ≤ f.off) : ∀ g ∈ errlogFields, fieldKey pg' f ≠ fieldKey pg g := by
  intro g m same
  obtain ⟨above, below, gLo⟩ := errlogFields_span g m
  obtain ⟨page, reg, -⟩ := fieldKey_inj off (by omega) lo gLo same
  omega

section
variable {h : Hub} {pg : Nat} (code cls origin addr detail : Nat)

/-- While no first error is captured, an error fills the log. -/
theorem errlogAs_first (free : flag h pg Fld.HDR.ERRLOG_A_VALID = false) :
    errlogAs h pg code cls origin addr detail = setFlds h pg (errlogCapture h.htime code cls origin addr detail) :=
  if_neg (by simp [free])

/-- While a first error is captured, a further one counts and sets MORE. -/
theorem errlogAs_further (taken : flag h pg Fld.HDR.ERRLOG_A_VALID = true) :
    errlogAs h pg code cls origin addr detail =
      setFlds h pg [(Fld.HDR.ERRLOG_B_COUNT, satAdd 32 (fld h pg Fld.HDR.ERRLOG_B_COUNT) 1), (Fld.HDR.ERRLOG_A_MORE, 1)] :=
  if_pos taken

/-- A field that the first error fills reads as captured. -/
theorem fld_errlogAs_first (free : flag h pg Fld.HDR.ERRLOG_A_VALID = false) {f : FieldDef} {v : Nat}
    (m : (f, v) ∈ errlogCapture h.htime code cls origin addr detail) :
    fld (errlogAs h pg code cls origin addr detail) pg f = v % 2 ^ f.width := by
  rw [errlogAs_first _ _ _ _ _ free]
  exact fld_setFlds_mem (errlogFields_distinct pg) m

end

/-- Settles O44: in either case the log is a list of stores in fields of different keys. -/
theorem errlogKeepsFirstError : Obligations.ErrlogKeepsFirstError := by
  unfold Obligations.ErrlogKeepsFirstError
  refine ⟨?first, ?further⟩
  case first =>
    intro h pg code cls origin addr detail free
    have filled {f : FieldDef} {v : Nat} := fld_errlogAs_first (f := f) (v := v) code cls origin addr detail free
    refine ⟨filled (v := 1) ?_, filled ?_, filled ?_, filled ?_, filled (v := 1) ?_, filled ?_, filled ?_, filled ?_,
      filled ?_, (filled (v := detail % 2 ^ 32) ?_).trans (Nat.mod_mod _ _), ?frame, ?rest⟩
    case frame =>
      intro pg' f off lo out
      rw [errlogAs_first _ _ _ _ _ free]
      exact fld_setFlds_ne (fieldKey_ne_errlogFields off lo out)
    case rest =>
      rw [errlogAs_first _ _ _ _ _ free]
      exact setFlds_regs_only _ _ _
    all_goals simp [errlogCapture, errlogFields]
  case further =>
    intro h pg code cls origin addr detail taken
    rw [errlogAs_further _ _ _ _ _ taken]
    have distinct : fieldKey pg Fld.HDR.ERRLOG_B_COUNT ≠ fieldKey pg Fld.HDR.ERRLOG_A_MORE :=
      fieldKey_ne_of_page_zero pg (by decide)
    have fits : satAdd 32 (fld h pg Fld.HDR.ERRLOG_B_COUNT) 1 < 2 ^ 32 := by unfold satAdd; omega
    have stores {f : FieldDef} {v : Nat} := fld_setFlds_mem (h := h) (pg := pg) (f := f) (v := v)
      (l := [(Fld.HDR.ERRLOG_B_COUNT, satAdd 32 (fld h pg Fld.HDR.ERRLOG_B_COUNT) 1), (Fld.HDR.ERRLOG_A_MORE, 1)])
      (List.pairwise_pair.mpr distinct)
    refine ⟨stores (v := 1) (by simp), (stores (v := satAdd 32 _ 1) (by simp)).trans (Nat.mod_eq_of_lt fits), ?frame,
      setFlds_regs_only _ _ _⟩
    case frame =>
      intro pg' f notMore notCount
      exact fld_setFlds_ne (by simp [notMore, notCount])

/-! ### Writes that are dropped (R93, R96) -/

section
variable {h : Hub} {o : Origin} {pg off v : Nat}

/-- What a write logs, and that it is dropped where the owner or the mode refuses it, at a page that exists. -/
theorem writeKinds_existing (d : decodes h o = true) (p : pageExists pg = true) :
    writeKinds h o pg off v =
      ((if ownerRefuses h o pg || classDiffers h (clsOf o) pg (regFields pg off) v then [.classWrite] else []) ++
        (if lockRefuses h (clsOf o) pg && lockRefusesPart (regFields pg off) then [.locked] else []) ++
        (if modeRefuses h (clsOf o) then [.stateRefused] else []), ownerRefuses h o pg || modeRefuses h (clsOf o)) := by
  simp [writeKinds, d, p]

/-- A write that the owner refuses is dropped and logs CLASS_WRITE. -/
theorem writeKinds_ownerRefuses (d : decodes h o = true) (p : pageExists pg = true) (own : ownerRefuses h o pg = true) :
    (writeKinds h o pg off v).2 = true ∧ AccKind.classWrite ∈ (writeKinds h o pg off v).1 := by
  simp [writeKinds_existing d p, own]

/-- A write that the mode refuses is dropped and logs STATE_REFUSED. -/
theorem writeKinds_modeRefuses (d : decodes h o = true) (p : pageExists pg = true) (md : modeRefuses h (clsOf o) = true) :
    (writeKinds h o pg off v).2 = true ∧ AccKind.stateRefused ∈ (writeKinds h o pg off v).1 := by
  simp [writeKinds_existing d p, md]

/-- The page refuses a host that does not own it (R93). -/
theorem ownerRefuses_of_not_owner {b : Bay}
    (n : ¬(flag h pg Fld.HDR.OWNER_VALID = true ∧ fld h pg Fld.HDR.OWNER_BAY = b.val)) :
    ownerRefuses h (.hostH b) pg = true := by
  have refused : (!(flag h pg Fld.HDR.OWNER_VALID && fld h pg Fld.HDR.OWNER_BAY == b.val)) = true := by
    rw [Bool.not_eq_true', ← Bool.not_eq_true, Bool.and_eq_true, beq_iff_eq]
    exact n
  exact refused

/-- SEAL and BENCH refuse a host (R96). -/
theorem modeRefuses_of_seal_or_bench (b : Bay) (m : h.mode.mode = .seal ∨ h.mode.mode = .bench) :
    modeRefuses h (clsOf (.hostH b)) = true := by
  rcases m with m | m <;> simp [modeRefuses, m, clsOf, Cls.rank]

/-- A dropped write of a register with an effect of its own logs, and does nothing else. -/
theorem guardedK_dropped (k : (writeKinds h o pg off v).2 = true) (act : Hub → Hub × List AccKind) :
    guardedK h o pg off v act = logKinds h (writeKinds h o pg off v).1 (regAccess o pg off) true := by
  simp [guardedK, k]

/-- A dropped write of a register that stores fields logs, and does nothing else. -/
theorem fieldWrite_dropped (k : (writeKinds h o pg off v).2 = true) (refuse : Bool) (post : Hub → Hub) :
    fieldWrite h o pg off v refuse post = logKinds h (writeKinds h o pg off v).1 (regAccess o pg off) true := by
  simp [fieldWrite, k]

end

/-- Settles O43: the owner's and the mode's refusal drop a write, and what a dropped write logs touches the PAG page. -/
theorem droppedWritesOnlyLog : Obligations.DroppedWritesOnlyLog := by
  unfold Obligations.DroppedWritesOnlyLog
  refine ⟨?notOwner, ?sealOrBench, ?onlyLogs⟩
  case notOwner =>
    intro h b pg off v d p n
    exact writeKinds_ownerRefuses d p (ownerRefuses_of_not_owner n)
  case sealOrBench =>
    intro h b pg off v d p m
    exact writeKinds_modeRefuses d p (modeRefuses_of_seal_or_bench b m)
  case onlyLogs =>
    intro h o pg off v k
    exact ⟨guardedK_dropped k, fieldWrite_dropped k, (logs_logKinds h _ _ _).fields⟩

/-! ### The header's registers and the MSI-X table -/

section
variable {h : Hub} {o : Origin} {pg v : Nat}

/-- A served write of ISTAT or IEN stores its bits, and the page's interrupt follows (R106). -/
theorem irqWrite_served {off : Nat} (k : served h o pg off v) (e : encodable h o pg off v) :
    irqWrite h o pg off v = afterIrqWrite h (stored h o pg off v) pg := by
  have ⟨_, unlocked, _⟩ := k
  rw [irqWrite, fieldWrite_served k e, if_neg (by simp [unlocked])]

/-- A served write of 1 to ERRLOG_A.VALID clears the error log (R108). -/
theorem errlogWrite_served (k : served h o pg 0x024 1) (e : encodable h o pg 0x024 1) :
    errlogWrite h o pg 1 = errlogClear (stored h o pg 0x024 1) pg := fieldWrite_served k e

/-- A served write of 1 to ACCERR.VALID clears the access error (Table PAG-8). -/
theorem accerrWrite_served (k : served h o pPAG 0x104 (2 ^ 20)) (e : encodable h o pPAG 0x104 (2 ^ 20)) :
    accerrWrite h o (2 ^ 20) = accerrClear (stored h o pPAG 0x104 (2 ^ 20)) := fieldWrite_served k e

/-- A write of LOCK that R95 allows is not one of LEVEL 0x2 by class F. -/
theorem not_levelTwo_of_classF (level : bits v 0 2 < 2 ∨ bits v 0 2 = 2 ∧ clsOf o ≠ .f) :
    ¬(bits v 0 2 = 2 ∧ clsOf o = .f) := by
  rintro ⟨two, isF⟩
  rcases level with below | ⟨_, notF⟩
  · omega
  · exact notF isF

/-- LOCK takes a level that its rules allow, and STICKY where it is written with 1 (R95). -/
theorem lockWrite_allowed (sticky : flag h pg Fld.HDR.LOCK_STICKY = false ∨ fld h pg Fld.HDR.LOCK_LEVEL ≤ bits v 0 2)
    (level : bits v 0 2 < 2 ∨ bits v 0 2 = 2 ∧ clsOf o ≠ .f) :
    lockWrite h o pg v =
      (setFld (if bit v 2 then setFld h pg Fld.HDR.LOCK_STICKY 1 else h) pg Fld.HDR.LOCK_LEVEL (bits v 0 2), []) := by
  have rises : ¬(flag h pg Fld.HDR.LOCK_STICKY = true ∧ bits v 0 2 < fld h pg Fld.HDR.LOCK_LEVEL) := by
    rintro ⟨on, falls⟩
    rcases sticky with off | le
    · simp [on] at off
    · omega
  have listed : bits v 0 2 ≠ 3 := by omega
  simp [lockWrite, rises, not_levelTwo_of_classF level, listed]

/-- A served write of LOCK that is allowed does its effect, and logs nothing (R95). -/
theorem lockRegWrite_served (k : served h o pg 0x040 v)
    (sticky : flag h pg Fld.HDR.LOCK_STICKY = false ∨ fld h pg Fld.HDR.LOCK_LEVEL ≤ bits v 0 2)
    (level : bits v 0 2 < 2 ∨ bits v 0 2 = 2 ∧ clsOf o ≠ .f) :
    lockRegWrite h o pg v =
      setFld (if bit v 2 then setFld h pg Fld.HDR.LOCK_STICKY 1 else h) pg Fld.HDR.LOCK_LEVEL (bits v 0 2) := by
  have notF : ¬((pageExists pg && clsOf o == .f && bits v 0 2 == 2) = true) := by
    simp only [Bool.and_eq_true, beq_iff_eq]
    exact fun ⟨⟨_, isF⟩, two⟩ => not_levelTwo_of_classF level ⟨two, isF⟩
  rw [lockRegWrite, if_neg notF, guardedK_served k, lockWrite_allowed sticky level, logKinds_nil]

end

/-- Settles O8, register by register. -/
theorem headerCommandsComplete : Obligations.HeaderCommandsComplete := by
  unfold Obligations.HeaderCommandsComplete
  refine ⟨?iforce, ?istat, ?ien, ?errlog, ?accerr, ?lock, ?owner, ?msixWrite, ?msixRead, ?counterClear⟩
  case iforce =>
    intro s o pg v k
    exact leadsHub_of rfl (guarded_served k)
  case istat | ien =>
    intro s o pg v k e
    exact leadsHub_of rfl (irqWrite_served k e)
  case errlog =>
    intro s o pg k e
    exact leadsHub_of rfl (errlogWrite_served k e)
  case accerr =>
    intro s o k e
    exact leadsHub_of rfl (accerrWrite_served k e)
  case lock =>
    intro s o pg v k sticky level
    exact leadsHub_of rfl (lockRegWrite_served k sticky level)
  case owner =>
    intro s o pg v k
    exact leadsHub_of rfl (guarded_served k)
  case msixWrite =>
    intro s b i dw v on
    exact leadsHub_of rfl (if_neg (by simp [on]))
  case msixRead =>
    intro s b pba i dw on
    exact leadsHub_of rfl (if_neg (by simp [on]))
  case counterClear =>
    intro s o pg k
    exact leadsHub_of rfl (guarded_served k)

end Sys2Proof.Machine
end

section
/-! PROOFS. The statements on Tulle's commands: admission, link state and map epochs, map fetch, fences, fabric time and
heartbeats, credits and egress, and requests of peers that arrive. -/

namespace Sys2Proof.Machine

/-! ### Messages of the management channels -/

/-- A message of a management row that is for this hub leads where its handling does. -/
theorem leadsTulle_of_mgmtRow {c : Instr} {s : State} {b : Bay} {hd : Hdr} {body : Payload} {opc : Nat} {h : Hub}
    {f : Hub → Hub} (e : exec c s = .next (s.onFabric fun h => mgmtRow h b hd body opc f))
    (r : reaching s.hub b hd body opc) (k : f (received s.hub b hd body) = h) : leadsTulle c s h := by
  have ⟨runs, _⟩ := r
  exact leadsTulle_of_fabric e runs ((mgmtRow_reaching r).trans k)

/-- A FENCE or UNFENCE that is new ends or begins the fence, and is flooded on (R139, R144). -/
theorem fenceRow_new {h : Hub} {b : Bay} {hd : Hdr} {n t : Nat} {un : Bool}
    (r : reaching h b hd (.fence n t un) 0x6C)
    (new : (floodNew (received h b hd (.fence n t un)) 0x6C (fromNode hd) (n + 128 * b2n un + 256 * t)).2 = true) :
    fenceRow h b hd n t un =
      floodOn ((if un then unfenceNode else fenceNode) (floodNew (received h b hd (.fence n t un)) 0x6C (fromNode hd)
        (n + 128 * b2n un + 256 * t)).1 n) b.val hd (.fence n t un) := by
  refine (mgmtRow_reaching r).trans ((if_pos new).trans ?_)
  cases un <;> rfl

/-! ### Admission, membership and map epochs -/

/-- Settles O10, clause by clause: a message that is for this hub, a timer and a served write each by the branch of its
meaning that the clause's conditions select. Which of two proposals wins, when a hub has started and how SPDM ends are the
model's (log entries 82, 84 and 85). -/
theorem epochCommandsComplete : Obligations.EpochCommandsComplete := by
  unfold Obligations.EpochCommandsComplete
  refine ⟨?hello, ?helloTimer, ?spdm, ?lsa, ?lsaTimer, ?autoProposeTimer, ?hmapPropose, ?hmapRestage, ?propose, ?propMap,
    ?epochAck, ?refuse, ?epochTimeout, ?commit, ?epochActivation⟩
  case hello =>
    intro s b hd m r changed
    exact leadsTulle_of_mgmtRow rfl r (if_neg changed)
  case helloTimer =>
    intro s b runs up
    exact leadsTulle_of_fabric rfl runs (if_pos up)
  case spdm =>
    intro s b hd m r least most
    have sized : ¬(m.packet.length < 5 || 68 < m.packet.length) = true := by simp [least, most]
    exact leadsTulle_of_mgmtRow rfl r (if_neg sized)
  case lsa =>
    intro s b hd seq links r foreign newer
    exact leadsTulle_of_mgmtRow rfl r (if_pos (by simp [foreign, newer]))
  case lsaTimer =>
    intro s runs profile
    exact leadsTulle_of_fabric rfl runs (if_pos profile)
  case autoProposeTimer =>
    intro s runs changed held lowest idle
    exact leadsTulle_of_fabric rfl runs (if_pos (by simp [changed, held, lowest, idle]))
  case hmapPropose =>
    intro s o k fits
    exact leadsTulle_of rfl ((guarded_served k).trans (if_neg (Nat.not_lt.mpr fits)))
  case hmapRestage =>
    intro s o k
    exact leadsTulle_of rfl (guarded_served k)
  case propose =>
    intro s b hd m r new
    exact leadsTulle_of_mgmtRow rfl r (if_pos new)
  case propMap =>
    intro s b hd epoch first es r new
    exact leadsTulle_of_mgmtRow rfl r (if_pos new)
  case epochAck =>
    intro s b hd epoch o r own same uncommitted
    exact leadsTulle_of_mgmtRow rfl r (by simp [own, same, uncommitted])
  case refuse =>
    intro s b hd epoch cause o r own same uncommitted
    exact leadsTulle_of_mgmtRow rfl r (by simp [own, same, uncommitted])
  case epochTimeout =>
    intro s o runs own uncommitted
    exact leadsTulle_of_fabric rfl runs (by simp [own, uncommitted])
  case commit =>
    intro s b hd epoch t r new
    exact leadsTulle_of_mgmtRow rfl r (if_pos new)
  case epochActivation =>
    intro s ep t due
    exact leadsTulle_of rfl (by simp [due])

/-- Settles O11, clause by clause, as O10. What a parent measures of its child stands inside `judgeChild` (log entry 86). -/
theorem membershipCommandsComplete : Obligations.MembershipCommandsComplete := by
  unfold Obligations.MembershipCommandsComplete
  refine ⟨?mapFetch, ?mapState, ?mapData, ?fence, ?unfence, ?ownGraceExpiry, ?peerGraceExpiry, ?timeReq, ?timeRsp,
    ?heartbeat, ?heartbeatTimeout⟩
  case mapFetch =>
    intro s b hd epoch r
    exact leadsTulle_of_mgmtRow rfl r rfl
  case mapState =>
    intro s b hd epoch ms root count f r fetch peer
    exact leadsTulle_of_mgmtRow rfl r (by simp [fetch, peer])
  case mapData =>
    intro s b hd epoch first es r
    exact leadsTulle_of_mgmtRow rfl r rfl
  case fence | unfence =>
    intro s b hd n t r new
    have ⟨runs, _⟩ := r
    exact leadsTulle_of_fabric rfl runs (fenceRow_new r new)
  case ownGraceExpiry =>
    intro s n runs fenced own mode
    exact leadsTulle_of_fabric rfl runs
      ((if_neg (by simp [fenced])).trans ((if_pos own).trans (if_neg mode)))
  case peerGraceExpiry =>
    intro s n runs fenced foreign present
    exact leadsTulle_of_fabric rfl runs
      ((if_neg (by simp [fenced])).trans ((if_neg foreign).trans (if_pos present)))
  case timeReq =>
    intro s b hd t1 r rooted
    exact leadsTulle_of_mgmtRow rfl r (if_neg (by simp [rooted]))
  case timeRsp =>
    intro s b hd t1 t2 t3 root r rooted foreign parent
    exact leadsTulle_of_mgmtRow rfl r (if_neg (by simp [rooted, foreign, parent]))
  case heartbeat =>
    intro s b hd m r foreign listed alive newer
    exact leadsTulle_of_mgmtRow rfl r (if_pos (by simpa [foreign, alive, newer] using listed))
  case heartbeatTimeout =>
    intro s n runs present foreign
    exact leadsTulle_of_fabric rfl runs (if_pos (by simp [present, foreign]))

/-! ### Credits and egress -/

/-- Settles O12, clause by clause. The order of an arbiter and what stays in the replay buffer are those of `egressLink` and
`creditsBack` (log entries 38 and 81). -/
theorem creditAndEgressCommandsComplete : Obligations.CreditAndEgressCommandsComplete := by
  unfold Obligations.CreditAndEgressCommandsComplete
  refine ⟨?creditBlock, ?creditTimer, ?grantLink, ?grantAck, ?grantBay⟩
  case creditBlock =>
    intro s b ret ech up
    exact leadsHub_of rfl (if_pos up)
  case creditTimer =>
    intro s b up owes idle
    exact leadsHub_of rfl (if_pos (by simp [up, owes, idle]))
  case grantLink =>
    intro s b
    exact leadsCoh_of rfl rfl
  case grantAck =>
    intro s b line ack
    exact leadsCoh_of rfl (by simp [ack])
  case grantBay =>
    intro s b noAck
    exact leadsCoh_of rfl (by simp [noAck])

/-! ### Requests of peers -/

/-- A write-back of a peer is staged (R189, R231). -/
theorem peerArrive_writeBack {h : Hub} {b : Bay} {hd : Hdr} {d : LineData} (r : requested h b hd (.line d) 0x40) :
    peerArrive h b.val hd (.wbDirty d) (.line d) =
      { (receive h b.val hd (.line d) true).1 with coh := { (receive h b.val hd (.line d) true).1.coh with
          staging := (receive h b.val hd (.line d) true).1.coh.staging ++
            [{ slice := sliceOf hd.addr, src := srcLink b.val,
               req := peerReq (receive h b.val hd (.line d) true).1 hd (.wbDirty d), link := some b.val,
               since := (receive h b.val hd (.line d) true).1.htime }] } } := by
  obtain ⟨mine, sized, opc, source, _, alive, _⟩ := r
  have channel : vcOf hd.opc = 4 := by simp [vcOf, opc]
  simp [peerArrive, mine, sized, opc, source, alive, channel, classOpc, peerReq]

/-- Settles O14: a request enters its ingress queue, a write-back is staged. -/
theorem peerRequestsArrive : Obligations.PeerRequestsArrive := by
  unfold Obligations.PeerRequestsArrive
  refine ⟨?rdShared, ?rdAny, ?rdOwn, ?rdCur, ?upgrade, ?wrFull, ?atomic, ?stash, ?wbDirty⟩
  case rdShared | rdAny | rdOwn | rdCur | upgrade =>
    intro s b hd k
    exact leadsCoh_of rfl (peerArrive_requested rfl (by decide) k)
  case wrFull | atomic =>
    intro s b hd d k
    exact leadsCoh_of rfl (peerArrive_requested rfl (by simp [classOpc]) k)
  case stash =>
    rintro s b hd d _ c' rfl k
    exact leadsCoh_of rfl (peerArrive_requested rfl (by simp [classOpc]) k)
  case wbDirty =>
    intro s b hd d k
    exact leadsCoh_of rfl (peerArrive_writeBack k)

end Sys2Proof.Machine
end

section
/-! PROOFS. The statements on single rules of Tulle: the cost of a link, quorum, and the messages a flow accepts. -/

namespace Sys2Proof.Machine

/-! ### The cost of a link (R117) -/

/-- The rate of every code is positive. -/
theorem rateOf_pos (code : Nat) : 0 < rateOf code := by
  match code with
  | 0 | 1 | 2 | 3 | 4 | 5 => decide
  | _ + 6 => exact Nat.zero_lt_succ 24

/-- Lanes times rate is positive for every pair of codes. -/
theorem lanesOf_mul_rateOf_pos (width rate : Nat) : 0 < lanesOf width * rateOf rate :=
  Nat.mul_pos (Nat.two_pow_pos width) (rateOf_pos rate)

/-- A quotient rounded up covers the number divided, and no smaller one does. -/
theorem roundedUp_mul_bounds {n d : Nat} (nonzero : 0 < n) (pos : 0 < d) :
    n ≤ (n + d - 1) / d * d ∧ ((n + d - 1) / d - 1) * d < n := by
  have parts : (n + d - 1) / d * d + (n + d - 1) % d = n + d - 1 := Nat.div_add_mod' _ _
  have rest : (n + d - 1) % d < d := Nat.mod_lt _ pos
  rw [Nat.sub_mul, Nat.one_mul]
  omega

/-- Settles O46: the cost is a quotient rounded up, by a divisor that is never 0. -/
theorem linkCost_roundsUp : Obligations.LinkCost := by
  unfold Obligations.LinkCost
  refine ⟨?bounds, ?fourLanes, ?sixteenLanes, ?oneLane⟩
  case bounds =>
    intro h b
    exact roundedUp_mul_bounds (by decide) (lanesOf_mul_rateOf_pos _ _)
  case fourLanes | sixteenLanes | oneLane =>
    intro h b width rate
    simp [linkCost, width, rate, lanesOf, rateOf]

/-! ### Quorum (R118) -/

/-- The minimum that decides quorum's tie is the lowest of the nodes, all below 128. -/
theorem foldl_min_eq_iff {l : List Nat} {m : Nat} (nonempty : l ≠ []) (below : ∀ n ∈ l, n < 128) :
    l.foldl min 128 = m ↔ m ∈ l ∧ ∀ n ∈ l, m ≤ n := by
  obtain ⟨k, lowest⟩ := Option.isSome_iff_exists.mp (List.isSome_min?_iff.mpr nonempty)
  have ⟨listed, _⟩ := List.min?_eq_some_iff.mp lowest
  have fold : l.foldl min 128 = k := by
    rw [List.foldl_min, lowest, Option.getD_some, Nat.min_eq_right (Nat.le_of_lt (below k listed))]
  rw [fold, ← List.min?_eq_some_iff, lowest, Option.some_inj]

/-- A present node is one of the profile. -/
theorem mem_profileNodes_of_present {h : Hub} {n : Nat} (p : n ∈ presentNodes h) : n ∈ profileNodes h :=
  (List.mem_filter.mp p).left

/-- The lowest node of the profile is present just when some present node is not above any node of the profile. -/
theorem lowest_present_iff {h : Hub} (nonempty : profileNodes h ≠ []) (below : ∀ n ∈ profileNodes h, n < 128) :
    (profileNodes h).foldl min 128 ∈ presentNodes h ↔ ∃ m ∈ presentNodes h, ∀ n ∈ profileNodes h, m ≤ n := by
  constructor
  · intro lowest
    exact ⟨_, lowest, ((foldl_min_eq_iff nonempty below).mp rfl).right⟩
  · rintro ⟨m, here, le⟩
    rwa [(foldl_min_eq_iff nonempty below).mpr ⟨mem_profileNodes_of_present here, le⟩]

/-- What quorum is judged by (R118). -/
theorem quorumHeld_iff (h : Hub) :
    quorumHeld h = true ↔ profileNodes h ≠ [] ∧
      ((profileNodes h).length / 2 + 1 ≤ (presentNodes h).length ∨
        (profileNodes h).length % 2 = 0 ∧ (presentNodes h).length = (profileNodes h).length / 2 ∧
          (profileNodes h).foldl min 128 ∈ presentNodes h) := by
  simp only [quorumHeld, Bool.and_eq_true, Bool.or_eq_true, bne_iff_ne, beq_iff_eq, decide_eq_true_iff,
    List.contains_iff_mem, and_assoc, ne_eq, List.length_eq_zero_iff]
  exact Iff.rfl

/-- Settles O58: the tie is decided by the lowest node of the profile. -/
theorem quorum : Obligations.Quorum := by
  unfold Obligations.Quorum
  intro h below
  rw [quorumHeld_iff]
  refine and_congr_right fun nonempty => ?_
  rw [lowest_present_iff nonempty below]

/-! ### Counting in a block counter (R368 to R378) -/

section
variable {f : FieldDef} (block : 0x100 ≤ f.off) (off : f.off < 4096) (lo : f.lo < 32)
include block off lo

/-- A store in a register of the page header leaves the fields of the blocks. -/
theorem fld_setFld_header (h : Hub) (pg pg' : Nat) {g : FieldDef} (v : Nat) (gOff : g.off < 0x100) (gLo : g.lo < 32) :
    fld (setFld h pg' g v) pg f = fld h pg f := by
  refine fld_setFld_ne h v fun same => ?_
  obtain ⟨_, offs, _⟩ := fieldKey_inj off (by omega) lo gLo same
  omega

/-- A counter of the counter area leaves the fields of the blocks. -/
theorem fld_cvalAdd_block (h : Hub) (pg pg' n : Nat) {k : Nat} (kth : k < 8) :
    fld (cvalAdd h pg' k n) pg f = fld h pg f := by
  have header (h : Hub) (g : FieldDef) (v : Nat) (gOff : g.off < 0x100) (gLo : g.lo < 32) :=
    fld_setFld_header block off lo h pg pg' v gOff gLo
  have value (v : Nat) : fld (setCval h pg' k v) pg f = fld h pg f := by
    have high := header (setFld h pg' (Fld.HDR.CVAL_LO.nth k) (v % 2 ^ 32)) (Fld.HDR.CVAL_HI.nth k) (v / 2 ^ 32)
      (show 0x0A4 + 8 * k < 0x100 by omega) (show 0 < 32 by decide)
    have low := header h (Fld.HDR.CVAL_LO.nth k) (v % 2 ^ 32) (show 0x0A0 + 8 * k < 0x100 by omega)
      (show 0 < 32 by decide)
    exact high.trans low
  have overflow (v w : Nat) : fld (setFld (setCval h pg' k v) pg' Fld.HDR.COVF w) pg f = fld h pg f :=
    (header _ Fld.HDR.COVF _ (by decide) (by decide)).trans (value v)
  have frozen (t : Hub) : fld (setFld t pg' Fld.HDR.CSTAT_OVF_FROZEN 1) pg f = fld t pg f :=
    header t Fld.HDR.CSTAT_OVF_FROZEN 1 (by decide) (by decide)
  unfold cvalAdd
  dsimp only
  split
  · exact value _
  · split <;> split
    · exact (frozen _).trans (overflow _ _)
    · exact (frozen _).trans (overflow _ _)
    · exact overflow _ _
    · exact overflow _ _

/-- The counters of a page that select an event leave the fields of the blocks. -/
theorem fld_perfAdd_block (h : Hub) (pg pg' ev md n : Nat) : fld (perfAdd h pg' ev md n) pg f = fld h pg f := by
  unfold perfAdd
  split
  · rfl
  · refine List.foldlRecOn _ _ (motive := fun t => fld t pg f = fld h pg f) rfl fun t same k listed => ?_
    have kth : k < 8 := by simp at listed; omega
    split
    · exact (fld_cvalAdd_block block off lo t pg pg' n kth).trans same
    · exact same

/-- An event of a page leaves the fields of the blocks. -/
theorem fld_perfEvent_block (h : Hub) (pg pg' ev n : Nat) : fld (perfEvent h pg' ev n) pg f = fld h pg f := by
  unfold perfEvent
  refine (fld_perfAdd_block block off lo _ pg pg' ev 1 n).trans ?_
  split <;> rfl

/-- A block counter that counts reads the events more, up to the largest number it holds. -/
theorem fld_bumpBy_self (h : Hub) (pg n : Nat) :
    fld (bumpBy h pg f n) pg f = satAdd f.width (fld h pg f) n := by
  have fits : satAdd f.width (fld h pg f) n < 2 ^ f.width :=
    Nat.lt_of_le_of_lt (Nat.min_le_right _ _) (Nat.sub_lt (Nat.two_pow_pos _) Nat.one_pos)
  have counted : fld (countBy h pg f n) pg f = satAdd f.width (fld h pg f) n :=
    (fld_setFld_self _ _ _ _).trans (Nat.mod_eq_of_lt fits)
  unfold bumpBy
  cases blkEvent f with
  | none => exact counted
  | some ev => exact (fld_perfEvent_block block off lo _ pg pg ev n).trans counted

end

/-! ### What a flow accepts (R131) -/

/-- What counting and logs may change leaves the state of Tulle. -/
theorem Logs.tulle {pg : Nat} {h t : Hub} (logs : Logs pg h t) : t.tulle = h.tulle := by rw [logs.rest]

section
variable {h : Hub} {n vc seq : Nat}

/-- A number ahead of the one expected is accepted, and the flow expects the next one. -/
theorem flowAccept_ahead (ahead : (seq + 65536 - mapGet h.tulle.recvSeq (n * 8 + vc) 0) % 65536 < 32768) :
    flowAccept h n vc seq =
      ({ h with tulle := { h.tulle with
          recvSeq := mapSet h.tulle.recvSeq (n * 8 + vc) ((seq + 1) % 65536) 0 } }, true) := if_pos ahead

/-- Any other number is that of a copy, and is counted. -/
theorem flowAccept_copy (behind : 32768 ≤ (seq + 65536 - mapGet h.tulle.recvSeq (n * 8 + vc) 0) % 65536) :
    flowAccept h n vc seq = (bump h pTUL Fld.TUL.DUP_CNT, false) := if_neg (Nat.not_lt.mpr behind)

/-- Flows are told apart by node and channel. -/
theorem flowKey_ne {n' vc' : Nat} (channel : vc < 8) (channel' : vc' < 8) (other : (n', vc') ≠ (n, vc)) :
    n' * 8 + vc' ≠ n * 8 + vc := by
  rw [Ne, Prod.mk.injEq] at other
  omega

end

/-- Settles O49: a store in the map of flows, or a count. -/
theorem flowAccepts : Obligations.FlowAccepts := by
  unfold Obligations.FlowAccepts
  intro h n vc seq channel
  refine ⟨fun ahead => ?accepted, fun behind => ?discarded⟩
  case accepted =>
    rw [flowAccept_ahead ahead]
    exact ⟨rfl, mapGet_mapSet_self _ _ _ _,
      fun n' vc' channel' other => mapGet_mapSet_ne _ _ _ _ (flowKey_ne channel channel' other), rfl⟩
  case discarded =>
    rw [flowAccept_copy behind]
    have count : Logs pTUL h (bump h pTUL Fld.TUL.DUP_CNT) := logs_bumpBy h pTUL 1 (by decide) (by decide)
    exact ⟨rfl, count.tulle, fld_bumpBy_self (by decide) (by decide) (by decide) h pTUL 1⟩

end Sys2Proof.Machine
end

section
/-! PROOFS. The statement on the far atomic. -/

namespace Sys2Proof.Machine

/-! ### The operation on its bits (Table COH-8) -/

/-- The signed value of a word's bits is its value in two's complement. -/
theorem signedOf_toNat {w : Nat} (pos : 0 < w) (x : BitVec w) : signedOf w x.toNat = x.toInt := by
  have half : 2 ^ w = 2 * 2 ^ (w - 1) := by rw [← Nat.pow_succ', Nat.succ_eq_add_one, Nat.sub_add_cancel pos]
  have positive : 2 * x.toNat < 2 ^ w ↔ x.toNat < 2 ^ (w - 1) := by omega
  rw [signedOf, BitVec.toInt_eq_toNat_cond]
  simp only [positive, Int.natCast_pow, Int.cast_ofNat_Int]

/-- The result of an operation on values of w bits has w bits. -/
theorem atomicOp_lt {w old arg : Nat} (op cmp : Nat) (oldFits : old < 2 ^ w) (argFits : arg < 2 ^ w) :
    atomicOp op w old arg cmp < 2 ^ w := by
  unfold atomicOp
  split
  case h_1 => exact Nat.mod_lt _ (Nat.two_pow_pos w)
  case h_2 => exact Nat.and_lt_two_pow _ argFits
  case h_3 => exact Nat.or_lt_two_pow oldFits argFits
  case h_4 => exact Nat.xor_lt_two_pow oldFits argFits
  case h_5 => exact argFits
  case h_6 | h_7 | h_8 => split <;> assumption
  case h_9 => exact Nat.lt_of_le_of_lt (Nat.min_le_left _ _) oldFits
  case h_10 => exact Nat.max_lt.mpr ⟨oldFits, argFits⟩
  case h_11 => exact oldFits

/-! ### The operand's place in the line (R169) -/

/-- A field of a number is replaced: its bits become those of the new value, and every other bit stays. -/
theorem testBit_replaceField (n sh w i : Nat) {v : Nat} (fits : v < 2 ^ w) :
    (n - n / 2 ^ sh % 2 ^ w * 2 ^ sh + v * 2 ^ sh).testBit i =
      if sh ≤ i ∧ i < sh + w then v.testBit (i - sh) else n.testBit i := by
  have parts : 2 ^ sh * (2 ^ w * (n / 2 ^ sh / 2 ^ w)) + n / 2 ^ sh % 2 ^ w * 2 ^ sh + n % 2 ^ sh = n := by
    rw [Nat.mul_comm _ (2 ^ sh), ← Nat.mul_add, Nat.div_add_mod, Nat.div_add_mod]
  have replaced : n - n / 2 ^ sh % 2 ^ w * 2 ^ sh + v * 2 ^ sh =
      2 ^ sh * (2 ^ w * (n / 2 ^ sh / 2 ^ w) + v) + n % 2 ^ sh := by
    rw [Nat.mul_add, Nat.mul_comm _ v]
    omega
  rw [replaced, Nat.testBit_two_pow_mul_add _ (Nat.mod_lt _ (Nat.two_pow_pos sh)), Nat.testBit_two_pow_mul_add _ fits]
  rcases Nat.lt_or_ge i sh with below | above
  · rw [if_pos below, if_neg (by omega), Nat.testBit_mod_two_pow, decide_eq_true below, Bool.true_and]
  · rw [if_neg (Nat.not_lt.mpr above), Nat.testBit_div_two_pow, Nat.testBit_div_two_pow]
    rcases Nat.lt_or_ge i (sh + w) with within | beyond
    · rw [if_pos (by omega), if_pos ⟨above, within⟩]
    · rw [if_neg (by omega), if_neg (by omega), show i - sh - w + w + sh = i by omega]

/-- Settles O54: each operation on its own; in the line, the operand's field is replaced by a result that fits it. -/
theorem atomicAlu : Obligations.AtomicAlu := by
  unfold Obligations.AtomicAlu
  refine ⟨?operations, ?line⟩
  case operations =>
    intro w x y z pos
    refine ⟨?add, ?and, ?or, ?xor, ?swap, ?compareSwap, ?signedMin, ?signedMax, ?min, ?max⟩
    case add => exact (BitVec.toNat_add x y).symm
    case and => exact (BitVec.toNat_and x y).symm
    case or => exact (BitVec.toNat_or x y).symm
    case xor => exact (BitVec.toNat_xor x y).symm
    case swap | min | max => rfl
    case compareSwap => simp only [atomicOp, BitVec.toNat_inj, apply_ite BitVec.toNat]
    case signedMin | signedMax =>
      simp only [atomicOp, signedOf_toNat pos, BitVec.slt_iff_toInt_lt, apply_ite BitVec.toNat]
  case line =>
    intro a d w sh old
    have oldFits : old < 2 ^ w := Nat.mod_lt _ (Nat.two_pow_pos w)
    have operandFits : a.operand.toNat % 2 ^ w < 2 ^ w := Nat.mod_lt _ (Nat.two_pow_pos w)
    have narrow : w ≤ 64 := by unfold w; split <;> decide
    refine ⟨?answer, fun i inLine => ?bits⟩
    case answer =>
      exact (BitVec.toNat_ofNat _ _).trans
        (Nat.mod_eq_of_lt (Nat.lt_of_lt_of_le oldFits (Nat.pow_le_pow_right Nat.two_pos narrow)))
    case bits =>
      refine (BitVec.getLsbD_ofNat 512 _ i).trans ?_
      rw [decide_eq_true inLine, Bool.true_and]
      exact testBit_replaceField d.toNat sh w i (atomicOp_lt a.op _ oldFits operandFits)

end Sys2Proof.Machine
end

section
/-! PROOFS. The statement on the commands of Pricking and of the media. -/

namespace Sys2Proof.Machine

section
variable {h g : Hub} {line : LineAddr} {t : Txn}

/-! ### The directory entry of a miss returns (R211, R217, R220) -/

section
variable (head : headOf h line = some t) (looks : t.st = .look)
include head looks

/-- A readable entry fills its way: what waited for the entry is done, and the transaction begins. -/
theorem dirReturn_filled (readable : (regionRead h line).2 = 0)
    (fill : fillWay h line (entWord h (regionRead h line).1) false = some g) :
    dirReturn h line false = beginHead (settleWaits g line) line t := by
  simp [dirReturn, head, looks, readable, fill]

/-- A readable entry that finds every way LOCKED waits for one. -/
theorem dirReturn_stalled (readable : (regionRead h line).2 = 0)
    (full : fillWay h line (entWord h (regionRead h line).1) false = none) :
    dirReturn h line false = putTxn (bump h pPRK Fld.PRK.WAY_STALL_CNT) line { t with st := .stall } := by
  simp [dirReturn, head, looks, readable, full]

/-- An entry that the media cannot give is rebuilt with the bobbin that is free for it. -/
theorem dirReturn_rebuilds {u : Hub} {b : Nat} (wanted : cancelledRead h t.req = false)
    (fill : fillWay h line (entWord h .uncached) false = some g)
    (bobbin : mgmtTake (noteRebuild (specDiscard g line) line 1) line = some (b, u)) :
    dirReturn h line true = startRebuild u line { t with rbob := some b } := by
  simp [dirReturn, head, looks, wanted, fill, bobbin]

end

/-! ### Reads and writes of the media that end (R186, R188, R222, R262, R482) -/

/-- Whether the read of a request poisons its line does not depend on the request's sample record (R262). -/
@[simp] theorem readPoisons_tagTxn (h : Hub) (line : LineAddr) (t : Txn) (f : Tag → Tag) :
    readPoisons h line (tagTxn t f).req = readPoisons h line t.req := rfl

/-- Data that no speculative read brings is that of the transaction that awaits it, poisoned first where it is bad. -/
theorem readDone_demanded {err bad : Bool} {u : Txn} (head : headOf h line = some t) (awaits : t.st = .mrd)
    (demand : h.prk.spec.find? (fun x => x.line == line && !x.back) = none)
    (quality : (err || (mediaLine h (localKey h line)).poison || wayDown h (wayOfData h (localKey h line))) = bad)
    (stamped : tagTxn t (fun g => { g with t4 := some h.htime }) = u) :
    readDone h line err =
      useMemory (putTxn (if bad then readPoisons h line t.req else h) line u) line u
        (mediaLine h (localKey h line)).data bad := by
  subst stamped
  simp [readDone, demand, head, awaits, quality]

/-- A speculative read that was discarded is dropped on arrival, and counted where it came with an error. -/
theorem readDone_discarded {x : Spec} (spec : h.prk.spec.find? (fun y => y.line == line && !y.back) = some x)
    (discarded : x.discarded = true) :
    readDone h line true = modSpec (bump h pPRK Fld.PRK.SPEC_POISON_DROP_CNT) (fun l => l.erase x) := by
  simp [readDone, spec, discarded]

section
variable {d : LineData} {p : Bool} (head : headOf h line = some t) (data : t.wdata = some (d, p)) (writes : t.st = .mwr)
  (request : t.rebuild = false) (written : writeMedia h line d p true = (g, false))
include head data writes request written

/-- A full-line write that is in the media clears the entry and completes. -/
theorem writeDone_wrFull {x : LineData} (op : t.req.op = .wrFull x) :
    writeDone h line true =
      releaseHead (writeCmp (clearOnWrite (putTxn g line { t with wdata := none }) line .uncached) t.req t.contended)
        line := by
  simp [writeDone, head, data, writes, request, written, op]

/-- An eviction that is in the media leaves the entry UNCACHED. -/
theorem writeDone_evict (op : t.req.op = .evict) :
    writeDone h line true = releaseHead (setEnt (putTxn g line { t with wdata := none }) line .uncached) line := by
  simp [writeDone, head, data, writes, request, written, op]

end

/-! ### Writes of the directory region (R212, R482) -/

section
variable {i k : Nat} {w : Way} (item : h.prk.wbBuf[i]? = some (k, w))
include item

/-- A write of an entry that its way takes is in the region. -/
theorem wbDone_written (reached : wayDown h (wayOfLma h (entryLma h k)) = false) :
    wbDone h i true =
      { hoDirty h k true with
        prk := { (hoDirty h k true).prk with
          wbBuf := (hoDirty h k true).prk.wbBuf.eraseIdx i
          region := mapSet (hoDirty h k true).prk.region k w.word 0
          bad := (hoDirty h k true).prk.bad.filter (· != k) } } := by
  simp [wbDone, item, reached]

/-- A write of an entry that fails leaves the entry unreadable. -/
theorem wbDone_failed (readable : k ∉ h.prk.bad) :
    wbDone h i false = { h with prk := { h.prk with wbBuf := h.prk.wbBuf.eraseIdx i, bad := k :: h.prk.bad } } := by
  simp [wbDone, item, readable]

end

end

/-! ### The statement -/

/-- Settles O9, clause by clause: a read or a write that ends by what its transaction awaits, every other command by the
branch that the clause's conditions select. -/
theorem prickingCommandsComplete : Obligations.PrickingCommandsComplete := by
  unfold Obligations.PrickingCommandsComplete
  refine ⟨?format, ?flush, ?flushDone, ?entryFilled, ?entryStalled, ?entryRebuilt, ?readGood, ?readBad, ?readDiscarded,
    ?wrFullWritten, ?evictWritten, ?wayTimeout, ?entryWritten, ?entryFailed⟩
  case format =>
    intro s o k mode idle
    exact leadsCoh_of rfl ((guardedK_served k).trans (by simp [prkFormat, mode, idle, logKinds_nil, formatStart]))
  case flush =>
    intro s o k
    exact leadsCoh_of rfl (guarded_served k)
  case flushDone =>
    intro s busy empty
    exact leadsHub_of rfl (if_pos (by simp [busy, empty]))
  case entryFilled =>
    intro s line t h head looks readable fill
    exact leadsCoh_of rfl (dirReturn_filled head looks readable fill)
  case entryStalled =>
    intro s line t head looks readable full
    exact leadsCoh_of rfl (dirReturn_stalled head looks readable full)
  case entryRebuilt =>
    intro s line t h g b head looks wanted fill bobbin
    exact leadsCoh_of rfl (dirReturn_rebuilds head looks wanted fill bobbin)
  case readGood =>
    intro s line t head awaits demand clean up
    exact leadsCoh_of rfl (readDone_demanded head awaits demand (by simp [clean, up]) rfl)
  case readBad =>
    intro s line t head awaits demand
    exact leadsCoh_of rfl (readDone_demanded head awaits demand (by simp) rfl)
  case readDiscarded =>
    intro s line x spec discarded
    exact leadsCoh_of rfl (readDone_discarded spec discarded)
  case wrFullWritten =>
    intro s line t d p x h head data writes request op written
    exact leadsCoh_of rfl (writeDone_wrFull head data writes request written op)
  case evictWritten =>
    intro s line t d p h head data writes request op written
    exact leadsCoh_of rfl (writeDone_evict head data writes request written op)
  case wayTimeout =>
    intro s w up
    exact leadsCoh_of rfl (if_neg (by simp [up]))
  case entryWritten =>
    intro s i k w item reached
    exact leadsCoh_of rfl (wbDone_written item reached)
  case entryFailed =>
    intro s i k w item readable
    exact leadsCoh_of rfl (wbDone_failed item readable)

end Sys2Proof.Machine
end

section
/-! PROOFS. The statements on the messages of the coherence protocol between hubs: snoops and pushes at the remote line
cache, answers at the home, and data and completions at the requester. -/

namespace Sys2Proof.Machine

/-! ### Messages that a row takes (R160, R183) -/

section
variable {b : Bay} {hd : Hdr} {opc : Nat}

/-- A snoop with the opcode and size of its row and no reserved source reaches the RLC. -/
theorem snoopRow_mine {h : Hub} (mine : (receive h b.val hd .none true).2 = true) (opcode : hd.opc = opc)
    (source : reservedSrc hd.src = false) (sized : hd.sized = true) :
    snoopRow h b hd opc = rlcSnoop (receive h b.val hd .none true).1 b.val hd.addr (snpOf hd) := by
  simp [snoopRow, mine, opcode, source, sized]

section
variable {h h' : Hub} {f : Hub → Option Hub}

/-- An answer of a live node for a transaction whose bobbin is in use takes the effect of the row that matches it. -/
theorem answerAt_open {line : LineAddr} {src tag : Nat} (alive : agentDead h (rlcAgent (agentNode src)) = false)
    (bobbin : (mapGet? h.coh.bobs tag).isSome = true) (chain : (headOf h line).isSome = true) (taken : f h = some h') :
    answerAt h line opc src tag f = h' := by
  simp [answerAt, alive, Option.isNone_eq_false_iff.mpr bobbin, Option.isNone_eq_false_iff.mpr chain, taken]

/-- The same for a SNP_WB that leaves write staging, whose next state is I or S. -/
theorem snpWbAct_open {r : Req} {d : LineData} {attr : Nat} (op : r.op = .snpWb d attr)
    (alive : agentDead h (rlcAgent (agentNode r.agent)) = false) (bobbin : (mapGet? h.coh.bobs r.bob).isSome = true)
    (chain : (headOf h r.line).isSome = true) (next : attr % 8 ≤ 1)
    (taken : homeAnswer h r.line r.agent
      (if bit attr 3 then .fwdWb (attr % 8 == 1) d r.poison
       else .wb (attr % 8 == 1) d r.poison (BitVec.allOnes 64)) = some h') : snpWbAct h r = h' := by
  rw [snpWbAct, op]
  exact answerAt_open alive bobbin chain ((if_neg (Nat.not_lt.mpr next)).trans taken)

/-- An answer that is for this hub and for an open transaction leads where its row does. -/
theorem leadsCoh_of_answer {c : Instr} {s : State} {body : Payload}
    (e : exec c s = .next (s.onCoh fun h => answerRow h b hd body opc f)) (m : meant s.hub b hd body opc)
    (isOpen : forOpen (received s.hub b hd body) hd) (taken : f (received s.hub b hd body) = some h') :
    leadsCoh c s h' := by
  obtain ⟨alive, bobbin, chain⟩ := isOpen
  exact leadsCoh_of e ((atHub_meant m).trans (answerAt_open alive bobbin chain taken))

end

/-- A message at the requester that a row takes leads where the row does. -/
theorem leadsCoh_of_requester {c : Instr} {s : State} {body : Payload} {f : Hub → Option Hub} {h' : Hub}
    (e : exec c s = .next (s.onCoh fun h => requesterRow h b hd body opc f)) (m : meant s.hub b hd body opc)
    (taken : f (received s.hub b hd body) = some h') : leadsCoh c s h' :=
  leadsCoh_of e ((atHub_meant m).trans (by rw [taken]))

/-- A SNP_WB with nothing of its line staged before it leaves write staging at once, and is handled as an answer. -/
theorem leadsCoh_of_snpWb {s : State} {d : LineData} {h h' : Hub} (mine : (receive s.hub b.val hd (.line d) true).2 = true)
    (opcode : hd.opc = 0x41) (source : reservedSrc hd.src = false) (sized : hd.sized = true)
    (first : (receive s.hub b.val hd (.line d) true).1.coh.staging.all (fun x => x.req.line != hd.addr) = true)
    (freed : oweCredits (receive s.hub b.val hd (.line d) true).1 b.val 4 5 = h) (isOpen : forOpen h hd)
    (next : hd.attr % 8 ≤ 1)
    (taken : homeAnswer h hd.addr hd.src
      (if bit hd.attr 3 then .fwdWb (hd.attr % 8 == 1) d hd.poison
       else .wb (hd.attr % 8 == 1) d hd.poison (BitVec.allOnes 64)) = some h') :
    leadsCoh (.snpWb b hd d) s h' := by
  have unstaged : (receive s.hub b.val hd (.line d) true).1.coh.staging.any (fun x => x.req.line == hd.addr) = false := by
    simpa using first
  obtain ⟨alive, bobbin, chain⟩ := isOpen
  refine leadsCoh_of rfl ?_
  simp only [mine, opcode, source, sized, unstaged, freed, Bool.not_true, bne_self_eq_false, Bool.or_false,
    Bool.false_eq_true, if_false]
  exact snpWbAct_open rfl alive bobbin chain next taken

end

/-! ### The statements -/

/-- Settles O16: each message that is for this hub reaches the RLC. -/
theorem snoopCommandsComplete : Obligations.SnoopCommandsComplete := by
  unfold Obligations.SnoopCommandsComplete
  refine ⟨?snpInv, ?snpData, ?snpFwd, ?stashPush⟩
  case snpInv | snpData | snpFwd =>
    intro s b hd mine opcode source sized
    exact leadsCoh_of rfl (snoopRow_mine mine opcode source sized)
  case stashPush =>
    intro s b hd d m
    exact leadsCoh_of rfl (atHub_meant m)

/-- Settles O17, answer by answer. -/
theorem answerCommandsComplete : Obligations.AnswerCommandsComplete := by
  unfold Obligations.AnswerCommandsComplete
  refine ⟨?rspI, ?rspS, ?rspFwd, ?snpWb, ?ack, ?stashAck⟩
  case rspI | rspS | ack | stashAck =>
    intro s b hd h' m isOpen taken
    exact leadsCoh_of_answer rfl m isOpen taken
  case rspFwd =>
    intro s b hd h' m next isOpen taken
    exact leadsCoh_of_answer rfl m isOpen ((if_neg (Nat.not_lt.mpr next)).trans taken)
  case snpWb =>
    intro s b hd d h h' mine opcode source sized first freed isOpen next taken
    exact leadsCoh_of_snpWb mine opcode source sized first freed isOpen next taken

/-- Settles O18: a message is taken by the RLC where no mover's request of the line is out, otherwise by that request. -/
theorem requesterCommandsComplete : Obligations.RequesterCommandsComplete := by
  unfold Obligations.RequesterCommandsComplete
  refine ⟨?rlcData, ?moverData, ?dataFwd, ?rlcCmp, ?writeCmp, ?stashCmp, ?dataAtm⟩
  case rlcData =>
    intro s b hd d h' m noneOut taken
    exact leadsCoh_of_requester rfl m (by simp only [noneOut, taken])
  case moverData =>
    intro s b hd d r m out read noGrant
    exact leadsCoh_of_requester rfl m (by simp [out, read, noGrant])
  case dataFwd =>
    intro s b hd d h' m noneOut taken
    exact leadsCoh_of_requester rfl m (by simp [noneOut, taken])
  case rlcCmp =>
    intro s b hd h' m noneOut taken
    exact leadsCoh_of_requester rfl m (by simp only [noneOut, taken])
  case writeCmp =>
    intro s b hd r d m out op
    exact leadsCoh_of_requester rfl m (by simp only [out, op])
  case stashCmp =>
    intro s b hd r d c m out op
    exact leadsCoh_of_requester rfl m (by simp only [out, op])
  case dataAtm =>
    intro s b hd old st r a m out op
    exact leadsCoh_of_requester rfl m (by simp only [out, op])

end Sys2Proof.Machine
end

section
/-! PROOFS. The statement on the messages of a device. -/

namespace Sys2Proof.Machine

section
variable {h h' : Hub} {b : Bay} {line : LineAddr}

/-- A device's clean-eviction notice that is taken reaches the line's home and is completed (R163). -/
theorem localNotice_devTakes {e : Emit} (k : devTakes h b line) :
    localNotice h b.val (some line) e =
      bayPut (notice h line (bayAgent h b.val)) b.val e none srcInternal (fld h pBOB Fld.BOB.PRI_WB) := by
  obtain ⟨_, mode, mapped, media⟩ := k
  cases home : whereIs h line with
  | unmapped => exact absurd home mapped
  | noMedia => exact absurd home media
  | here | peer => simp [localNotice, mode, home]

/-- An agent whose requests the mode takes has no open dead record (R257). -/
theorem agentDead_of_not_modeRejects {a : AgentId} (k : modeRejects h a = false) : agentDead h a = false := by
  simp only [modeRejects, Bool.or_eq_false_iff] at k
  exact k.right

/-- What a device's response says of the copy it keeps, and of dirty data (Table TRN-4). -/
def rspShape (d : LineData) (poison : Bool) : D2hRspOp → Bool × Option (LineData × BitVec 64 × Bool)
  | .rspIHitI => (false, none)
  | .rspIHitSE => (false, none)
  | .rspSHitSE => (true, none)
  | .rspIFwdM => (false, some (d, BitVec.allOnes 64, poison))
  | .rspSFwdM => (true, some (d, BitVec.allOnes 64, poison))

/-- A response of a living device that a state awaits is its answer; a stale one is counted (R175, R191). -/
theorem leadsCoh_of_d2hRsp {s : State} {op : D2hRspOp} {d : LineData} {poison : Bool} (link : devOk s.hub b.val = true)
    (alive : agentDead s.hub (bayAgent s.hub b.val) = false)
    (taken : localAnswer s.hub line (bayAgent s.hub b.val) (rspShape d poison op).1 (rspShape d poison op).2 = some h') :
    leadsCoh (.d2hRsp b op line d poison) s
      (if op = .rspIHitI then bump (homeEvicts h' line (bayAgent s.hub b.val)) pCOH Fld.COH.SNP_STALE
       else homeEvicts h' line (bayAgent s.hub b.val)) := by
  refine leadsCoh_of rfl ?_
  cases op
  all_goals
    simp only [rspShape] at taken
    simp [link, alive, taken, -BitVec.reduceAllOnes]

end

/-- Settles O20, clause by clause: a request or a notice that is taken by what becomes of it, a response by the answer it
is, pulled data by the branch that its conditions select. A write brings its data after the pull (log entry 27), and the
completions of notices are CXL's (log entry 29). -/
theorem deviceCacheCommandsComplete : Obligations.DeviceCacheCommandsComplete := by
  unfold Obligations.DeviceCacheCommandsComplete
  refine ⟨?rdShared, ?rdAny, ?rdOwn, ?rdCurr, ?rdOwnNoData, ?writeLine, ?writePart, ?clflush, ?dirtyevict, ?cleanevict,
    ?cleanevictNoData, ?cacheflushed, ?rspIHitSE, ?rspSHitSE, ?rspIFwdM, ?rspSFwdM, ?rspIHitI, ?d2hData⟩
  case rdShared | rdAny | rdOwn | rdCurr | rdOwnNoData | clflush =>
    intro s b line k
    exact leadsCoh_of rfl (devArrive_taken k)
  case writeLine =>
    intro s b line op k
    exact leadsCoh_of rfl (devArrive_taken k)
  case writePart =>
    intro s b line op mask k part
    exact leadsCoh_of rfl ((devArrive_taken k).trans (by rw [if_neg part]; rfl))
  case dirtyevict =>
    intro s b line k
    have ⟨_, mode, _⟩ := k
    exact leadsCoh_of rfl ((if_neg (by simp [agentDead_of_not_modeRejects mode])).trans (devArrive_taken k))
  case cleanevict | cleanevictNoData =>
    intro s b line k
    have ⟨link, _⟩ := k
    exact leadsCoh_of rfl ((if_pos link).trans (localNotice_devTakes k))
  case cacheflushed =>
    intro s b link mode
    exact leadsHub_of rfl (by simp [link, mode])
  case rspIHitSE | rspSHitSE | rspIFwdM | rspSFwdM | rspIHitI =>
    intro s b line d poison h' link alive taken
    exact leadsCoh_of_d2hRsp link alive taken
  case d2hData =>
    intro s b line d poison h' link alive taken
    exact leadsCoh_of rfl (by simp [link, alive, taken])

end Sys2Proof.Machine
end

section
/-! PROOFS. The statements on the work of a slice: the request at the head of a chain, the arbiters, starvation and audit. -/

namespace Sys2Proof.Machine

/-! ### The head of a chain -/

/-- Settles O15: a request of each class is the head's own, so the head is served. -/
theorem coherenceRequestsServed : Obligations.CoherenceRequestsServed := by
  unfold Obligations.CoherenceRequestsServed
  refine ⟨?rdShared, ?rdAny, ?rdOwn, ?rdCur, ?upgrade, ?wrFull, ?atomic, ?stash⟩
  case rdShared | rdAny | rdOwn | rdCur | upgrade =>
    intro s line ready
    exact leadsCoh_of rfl (serveClass_headIs ready)
  case wrFull | atomic =>
    intro s line operand ready
    exact leadsCoh_of rfl (serveClass_headIs ready)
  case stash =>
    intro s line d consumer ready
    exact leadsCoh_of rfl (serveClass_headIs ready)

section
variable {h g : Hub} {sl : Nat}

/-! ### The ingress arbiter (R233, R236) -/

/-- A request that the arbiter picks and that gets its bobbin leaves its queue, its credits return, and it enters the slice;
its age has not saturated (R240). -/
theorem ingressGrant_picked {i : Nat} {x : Ing} {r : Req} (pick : ingressPick (ingressReady h sl) sl = some (i, x))
    (bobbin : equip (ingressReady h sl) sl x.pool { x.req with prio := basePrio (ingressReady h sl) x } x.lane.isSome
      (ageLevel (ingressReady h sl) x.since) = some (r, g))
    (young : ageLevel (ingressReady h sl) x.since ≠ 7) :
    ingressGrant h sl =
      enterPool (giveBack { g with
        coh := { g.coh with ingress := nextHead g (g.coh.ingress.eraseIdx i) x.src x.slice x.pool } } x) x.pool r := by
  simp [ingressGrant, pick, bobbin, young]

/-! ### Work that waits for a way (R211, R212) -/

section
variable {line : LineAddr} {t u : Txn}

/-- A transaction looked up again that its head's row serves, or that is not ready yet, goes no further. -/
theorem resumeHead_rowServed (head : headOf (lookup h line t) line = some u)
    (row : u.st = .ready → rowServed u.req.op = true) : resumeHead h line t = lookup h line t := by
  have waits : ¬(u.st = .ready && !rowServed u.req.op) = true := by simpa using row
  simp only [resumeHead, head, if_neg waits]

/-- The first transaction whose set has an unlocked way resumes. -/
theorem stallResume_head (stalled : stalledHead h sl = some (line, t)) (request : t.req.op ≠ .rebuild) :
    stallResume h sl = resumeHead h line t := by
  simp only [stallResume, stalled, if_neg request]

/-- Where no transaction resumes, the first entry change whose set has an unlocked way is done. -/
theorem stallResume_entry (noHead : stalledHead h sl = none) (entry : stalledEntry h sl = some line) :
    stallResume h sl = closeDone (settleWaits h line) := by
  simp only [stallResume, noHead, entry]

end

/-! ### Write staging (R199, R231, R232) -/

section
variable {x : Staged} (pick : stagedPick h sl = some x)
include pick

/-- A SNP_WB that leaves write staging is handled as an answer. -/
theorem stagingDequeue_answer (answer : isAnswer x.req = true) :
    stagingDequeue h sl = snpWbAct (unstage h x) x.req := by
  simp [stagingDequeue, pick, answer]

/-- A write that a collected snoop awaits is absorbed. -/
theorem stagingDequeue_absorbed (write : isAnswer x.req = false) (awaited : absorbs h x.req = true) :
    stagingDequeue h sl = absorb (unstage h x) x.req := by
  simp [stagingDequeue, pick, needsNone, write, awaited]

/-- Any other write enters the slice with its bobbin, by its pool; where its granule is not FROZEN it is not late (R199). -/
theorem stagingDequeue_equipped {r : Req} (needs : needsNone h x = false)
    (flows : (homeEntry (unstage h x) (granuleOf x.req.line)).frozen = false)
    (bobbin : equip (unstage h x) sl (stagedPool h x.req)
      { x.req with prio := poolPrio (unstage h x) (stagedPool h x.req) x.req, late := false } x.lane.isSome
      (ageLevel (unstage h x) x.since) = some (r, g)) :
    stagingDequeue h sl = if stagedPool h x.req = 1 then takeWb g r else enterSlice g r := by
  have write : isAnswer x.req = false := (Bool.or_eq_false_iff.mp needs).left
  simp [stagingDequeue, pick, write, needs, flows, bobbin]

end
end

/-! ### The arbiters, starvation and audit -/

/-- Settles O25, clause by clause: an arbiter by what it picks, work that waits for a way by what resumes, a starvation by
the place that the index names (log entry 98), an audit by its window. -/
theorem sliceCommandsComplete : Obligations.SliceCommandsComplete := by
  unfold Obligations.SliceCommandsComplete
  refine ⟨?granted, ?resumedHead, ?resumedEntry, ?stagedAnswer, ?stagedAbsorbed, ?stagedEntered, ?starvedIngress,
    ?starvedStaged, ?audit⟩
  case granted =>
    intro s sl i x r h pick bobbin young
    exact leadsCoh_of rfl (ingressGrant_picked pick bobbin young)
  case resumedHead =>
    intro s sl line t u stalled request head row
    exact leadsCoh_of rfl ((stallResume_head stalled request).trans (resumeHead_rowServed head row))
  case resumedEntry =>
    intro s sl line noHead entry
    exact leadsCoh_of rfl (stallResume_entry noHead entry)
  case stagedAnswer =>
    intro s sl x pick answer
    exact leadsCoh_of rfl (stagingDequeue_answer pick answer)
  case stagedAbsorbed =>
    intro s sl x pick write awaited
    exact leadsCoh_of rfl (stagingDequeue_absorbed pick write awaited)
  case stagedEntered =>
    intro s sl x r h pick needs flows bobbin
    exact leadsCoh_of rfl (stagingDequeue_equipped pick needs flows bobbin)
  case starvedIngress =>
    intro s sl idx i x head outside
    exact leadsHub_of rfl (by simp [head, outside, starved])
  case starvedStaged =>
    intro s sl i x candidate outside
    exact leadsHub_of rfl (by simp [candidate, outside, starved])
  case audit =>
    intro s q idx enabled imbalance
    exact leadsHub_of rfl (if_neg (by simp [enabled, imbalance]))

end Sys2Proof.Machine
end

section
/-! PROOFS. The statements on the Pricking directory: an entry's 64-bit form and the updates of its slots. -/

namespace Sys2Proof.Machine

/-! ### Fields laid side by side in a number -/

/-- Fields, each a width and a value, laid side by side from bit 0 up. -/
def packFields : List (Nat × Nat) → Nat
  | [] => 0
  | (w, x) :: t => x + 2 ^ w * packFields t

/-- The bits that fields take together. -/
def fieldsWidth (l : List (Nat × Nat)) : Nat := (l.map (·.1)).sum

/-- Each value fits its field. -/
def fieldsFit (l : List (Nat × Nat)) : Prop := ∀ f ∈ l, f.2 < 2 ^ f.1

/-- Fields that fit take no more bits than their widths. -/
theorem packFields_lt : ∀ {l : List (Nat × Nat)}, fieldsFit l → packFields l < 2 ^ fieldsWidth l
  | [], _ => Nat.one_pos
  | (w, x) :: t, fit => by
    obtain ⟨head, tail⟩ := List.forall_mem_cons.mp fit
    calc x + 2 ^ w * packFields t < 2 ^ w + 2 ^ w * packFields t := Nat.add_lt_add_right head _
      _ = 2 ^ w * (packFields t + 1) := by rw [Nat.mul_succ, Nat.add_comm]
      _ ≤ 2 ^ w * 2 ^ fieldsWidth t := Nat.mul_le_mul_left _ (packFields_lt tail)
      _ = 2 ^ fieldsWidth ((w, x) :: t) := (Nat.pow_add ..).symm

/-- Above a value that fits the bits below it, a number reads as if that value were not there. -/
theorem bits_above {x n : Nat} (y lo w : Nat) (fits : x < 2 ^ n) : bits (x + 2 ^ n * y) (n + lo) w = bits y lo w := by
  rw [bits, bits, Nat.pow_add, ← Nat.div_div_eq_div_mul, Nat.add_mul_div_left _ _ (Nat.two_pow_pos n),
    Nat.div_eq_of_lt fits, Nat.zero_add]

/-- A field reads at its place, the widths below it, as it was laid. -/
theorem bits_packFields : ∀ {l : List (Nat × Nat)}, fieldsFit l → ∀ (i : Nat) (k : i < l.length),
    bits (packFields l) (fieldsWidth (l.take i)) l[i].1 = l[i].2
  | (w, x) :: t, fit, 0, _ => by
    obtain ⟨head, -⟩ := List.forall_mem_cons.mp fit
    simp [packFields, bits, fieldsWidth, Nat.mod_eq_of_lt head]
  | (w, x) :: t, fit, i + 1, k => by
    obtain ⟨head, tail⟩ := List.forall_mem_cons.mp fit
    exact (bits_above _ _ _ head).trans (bits_packFields tail i (Nat.lt_of_succ_lt_succ k))

/-- The number of a truth value is one bit. -/
theorem b2n_lt (b : Bool) : b2n b < 2 ^ 1 := by cases b <;> decide

/-- A field of one bit that holds a truth value reads as that value. -/
theorem bit_of_bits {v i : Nat} {b : Bool} (field : bits v i 1 = b2n b) : bit v i = b := by
  rw [bit, Nat.testBit_eq_decide_div_mod_eq, show v / 2 ^ i % 2 = b2n b from field]
  cases b <;> rfl

/-! ### The 64-bit form of an entry (R204, R205) -/

/-- Every state has a code of 3 bits. -/
theorem DirSt.code_lt (st : DirSt) : st.code < 2 ^ 3 := by cases st <;> decide

/-- The fields of Table PRK-1, from bit 0 up. -/
def entFields (h : Hub) (e : DirEnt) : List (Nat × Nat) :=
  [(3, e.st.code), (13, e.p0), (13, e.p1), (13, e.p2), (1, b2n e.v0), (1, b2n e.v1), (1, b2n e.v2), (1, b2n e.f0),
    (12, bgen h)]

/-- What R205 asks of the pointers: an agent's 13 bits, and zero where the slot is not valid, PTR0 of a POISONED entry
apart. -/
structure PointersStored (e : DirEnt) : Prop where
  p0_lt : e.p0 < 2 ^ 13
  p1_lt : e.p1 < 2 ^ 13
  p2_lt : e.p2 < 2 ^ 13
  p0_zero : e.v0 = true ∨ e.st = .poisoned ∨ e.p0 = 0
  p1_zero : e.v1 = true ∨ e.p1 = 0
  p2_zero : e.v2 = true ∨ e.p2 = 0

/-- The forms of Table PRK-2, but for the pointers. -/
def formValid (e : DirEnt) : Prop :=
  match e.st with
  | .uncached => e = .uncached
  | .shared => e.v0 = true ∨ e.v1 = true ∨ e.v2 = true
  | .owned => e.v0 = true ∧ e.v1 = false ∧ e.v2 = false ∧ e.f0 = false
  | .overflow => True
  | .poisoned => e.v0 = false ∧ e.v1 = false ∧ e.v2 = false ∧ e.f0 = false

/-- A value that is zero wherever it is not written, and fits, is what is written. -/
theorem storedPointer_eq {c : Prop} [Decidable c] {p : Nat} (fits : p < 2 ^ 13) (zero : c ∨ p = 0) :
    (if c then p % 8192 else 0) = p := by
  by_cases written : c
  · exact (if_pos written).trans (Nat.mod_eq_of_lt fits)
  · rw [if_neg written, zero.resolve_left written]

section
variable {h : Hub} {e : DirEnt}

/-- The fields of an entry that is stored fit. -/
theorem entFields_fit (gen : bgen h < 2 ^ 12) (ptr : PointersStored e) : fieldsFit (entFields h e) := by
  simp only [fieldsFit, entFields, List.forall_mem_cons]
  exact ⟨e.st.code_lt, ptr.p0_lt, ptr.p1_lt, ptr.p2_lt, b2n_lt _, b2n_lt _, b2n_lt _, b2n_lt _, gen,
    List.forall_mem_nil _⟩

/-- The 64-bit form of an entry that is stored is its fields side by side. -/
theorem entWord_eq_packFields (ptr : PointersStored e) : entWord h e = packFields (entFields h e) := by
  have p0 := storedPointer_eq (c := (e.v0 || e.st == .poisoned) = true) ptr.p0_lt
    (by simpa [or_assoc] using ptr.p0_zero)
  simp only [entWord, p0, storedPointer_eq ptr.p1_lt ptr.p1_zero, storedPointer_eq ptr.p2_lt ptr.p2_zero, entFields,
    packFields]
  omega

/-- A word whose fields are those of an entry in a valid form is read as that entry. -/
theorem wordEnt_of_fields {w : Nat} (form : formValid e) (holder : e.f0 = true → e.v0 = true ∧ e.p0 % 64 = 62)
    (state : bits w 0 3 = e.st.code) (p0 : bits w 3 13 = e.p0) (p1 : bits w 16 13 = e.p1) (p2 : bits w 29 13 = e.p2)
    (v0 : bit w 42 = e.v0) (v1 : bit w 43 = e.v1) (v2 : bit w 44 = e.v2) (f0 : bit w 45 = e.f0)
    (gen : bits w 46 12 = bgen h) : wordEnt h w = some e := by
  have holderOk : (!e.f0 || (e.v0 && e.p0 % 64 == 62)) = true := by
    cases f : e.f0 with
    | false => rfl
    | true => simp [holder f]
  simp only [wordEnt, state, p0, p1, p2, v0, v1, v2, f0, gen, bne_self_eq_false, Bool.false_eq_true, if_false, holderOk]
  unfold formValid at form
  cases st : e.st <;> simp only [st] at form <;> simp only [DirSt.code]
  case uncached => rw [form]; rfl
  case shared =>
    have named : (e.v0 || e.v1 || e.v2) = true := by simpa [or_assoc] using form
    simp [named, ← st]
  case owned =>
    have owner : (e.v0 && !e.v1 && !e.v2 && !e.f0) = true := by simp [form]
    rw [if_pos owner, ← st]
  case overflow => simp [← st]
  case poisoned =>
    have unnamed : ¬(e.v0 || e.v1 || e.v2 || e.f0) = true := by simp [form]
    rw [if_neg unnamed, ← st]

end

/-- Settles O51: the fields of Table PRK-1 lie side by side, so that each reads back as it was laid, and an entry with
these fields is consistent in each form of Table PRK-2. -/
theorem directoryWordRoundTrip : Obligations.DirectoryWordRoundTrip := by
  unfold Obligations.DirectoryWordRoundTrip
  intro h e gen p0_lt p1_lt p2_lt p0_zero p1_zero p2_zero holder form
  have ptr : PointersStored e := ⟨p0_lt, p1_lt, p2_lt, p0_zero, p1_zero, p2_zero⟩
  have fit : fieldsFit (entFields h e) := entFields_fit gen ptr
  have field (i : Nat) (k : i < 9) := bits_packFields fit i k
  rw [entWord_eq_packFields ptr]
  refine ⟨packFields_lt fit, ?_, field 8 (by decide), ?_⟩
  · exact (congrArg (· % 8) (Nat.div_one _).symm).trans (field 0 (by decide))
  · exact wordEnt_of_fields form holder (field 0 (by decide)) (field 1 (by decide)) (field 2 (by decide))
      (field 3 (by decide)) (bit_of_bits (field 4 (by decide))) (bit_of_bits (field 5 (by decide)))
      (bit_of_bits (field 6 (by decide))) (bit_of_bits (field 7 (by decide))) (field 8 (by decide))

/-! ### The updates of the slots (R214) -/

section
variable {e : DirEnt} {a : AgentId}

/-- Slots 1 and 2 without an agent's, slot 0 as it was. -/
def clearSlots12 (e : DirEnt) (a : AgentId) : DirEnt :=
  { e with
    v1 := e.v1 && e.p1 != a, p1 := if e.v1 && e.p1 == a then 0 else e.p1,
    v2 := e.v2 && e.p2 != a, p2 := if e.v2 && e.p2 == a then 0 else e.p2 }

/-- An entry that has sharers is open to another as it is. -/
theorem entOpen_sharers (st : e.st = .shared ∨ e.st = .overflow) : entOpen e = e :=
  if_neg (by rcases st with st | st <;> simp [st])

/-- The agent of slot 0 becomes the F holder where it is. -/
theorem entAddF_slot0 (st : e.st = .shared ∨ e.st = .overflow) (valid : e.v0 = true) (agent : e.p0 = a) :
    entAddF e a = { e with f0 := true } := by
  simp [entAddF, entOpen_sharers st, valid, agent]

/-- A slot of which the agent's own is cleared is valid where it was and names another. -/
theorem slot_kept (v : Bool) (p : AgentId) : (v && !(v && p == a)) = (v && p != a) := by
  cases v <;> rfl

/-- Any other agent leaves slots 1 and 2, takes slot 0, and its predecessor there moves to the first free slot. -/
theorem entAddF_other (st : e.st = .shared ∨ e.st = .overflow) (other : ¬(e.v0 = true ∧ e.p0 = a)) :
    entAddF e a =
      if e.v0 = false then { clearSlots12 e a with p0 := a, v0 := true, f0 := true }
      else if (clearSlots12 e a).v1 = false then { clearSlots12 e a with p0 := a, f0 := true, p1 := e.p0, v1 := true }
      else if (clearSlots12 e a).v2 = false then { clearSlots12 e a with p0 := a, f0 := true, p2 := e.p0, v2 := true }
      else { clearSlots12 e a with p0 := a, f0 := true, st := .overflow } := by
  have elsewhere : ¬(e.v0 && e.p0 == a) = true := by simpa using other
  simp only [entAddF, entOpen_sharers st, if_neg elsewhere, slot_kept, clearSlots12, Bool.not_eq_true']
  cases e.v0 <;> rfl

/-- An agent that is named needs no slot. -/
theorem entAddS_named (st : e.st = .shared ∨ e.st = .overflow) (named : a ∈ e.named) : entAddS e a = e := by
  simp [entAddS, entOpen_sharers st, named]

/-- An agent that is not named takes the first free slot of 1, 2 and 0. -/
theorem entAddS_new (st : e.st = .shared ∨ e.st = .overflow) (new : a ∉ e.named) :
    entAddS e a =
      if e.v1 = false then { e with p1 := a, v1 := true }
      else if e.v2 = false then { e with p2 := a, v2 := true }
      else if e.v0 = false then { e with p0 := a, v0 := true, f0 := false }
      else { e with st := .overflow } := by
  simp [entAddS, entOpen_sharers st, new]

/-- The slots without one agent's, the others where they were. -/
def slotsWithout (e : DirEnt) (a : AgentId) : DirEnt :=
  { e with
    v0 := e.v0 && !(e.v0 && e.p0 == a), p0 := if e.v0 && e.p0 == a then 0 else e.p0, f0 := e.f0 && !(e.v0 && e.p0 == a),
    v1 := e.v1 && !(e.v1 && e.p1 == a), p1 := if e.v1 && e.p1 == a then 0 else e.p1,
    v2 := e.v2 && !(e.v2 && e.p2 == a), p2 := if e.v2 && e.p2 == a then 0 else e.p2 }

/-- The agents named without one agent's slots are the others. -/
theorem named_slotsWithout (e : DirEnt) (a : AgentId) : (slotsWithout e a).named = e.named.filter (· != a) := by
  have slot (v : Bool) (p : AgentId) :
      (if v && !(v && p == a) then [if v && p == a then 0 else p] else []) = (if v then [p] else []).filter (· != a) := by
    by_cases agent : p = a <;> cases v <;> simp [agent]
  rw [DirEnt.named, DirEnt.named, List.filter_append, List.filter_append, ← slot, ← slot, ← slot]
  rfl

/-- An entry names nobody where no slot is valid. -/
theorem named_eq_nil (e : DirEnt) : e.named = [] ↔ (e.v0 || e.v1 || e.v2) = false := by
  simp [DirEnt.named, and_assoc]

/-- A removal clears the agent's slots; a SHARED or OWNED entry without any slot left becomes UNCACHED. -/
theorem entRemove_eq (e : DirEnt) (a : AgentId) :
    entRemove e a =
      if (e.st = .shared ∨ e.st = .owned) ∧ (slotsWithout e a).named = [] then .uncached else slotsWithout e a := by
  show (if (e.st = .shared || e.st = .owned) &&
    !((slotsWithout e a).v0 || (slotsWithout e a).v1 || (slotsWithout e a).v2) then .uncached else slotsWithout e a) = _
  simp [named_eq_nil]

/-- Where a slot stays valid, or the entry is OVERFLOW, a removal clears the agent's slots only. -/
theorem entRemove_slots
    (left : (entRemove e a).v0 = true ∨ (entRemove e a).v1 = true ∨ (entRemove e a).v2 = true ∨ e.st = .overflow) :
    entRemove e a = slotsWithout e a := by
  rw [entRemove_eq] at left ⊢
  split at left
  next emptied =>
    obtain ⟨st, -⟩ := emptied
    have overflow : e.st = .overflow := by simpa [DirEnt.uncached] using left
    simp [overflow] at st
  next slots => exact if_neg slots

/-- The last agent's removal leaves a SHARED entry UNCACHED. -/
theorem entRemove_last (st : e.st = .shared) (last : ∀ b ∈ e.named, b = a) : entRemove e a = .uncached := by
  have gone : (slotsWithout e a).named = [] := by
    rw [named_slotsWithout, List.filter_eq_nil_iff]
    simpa using last
  rw [entRemove_eq, if_pos ⟨.inl st, gone⟩]

end

/-- Settles O50, clause by clause: the rule of each of R214's updates. -/
theorem slotUpdates : Obligations.SlotUpdates := by
  unfold Obligations.SlotUpdates
  refine ⟨?holder, ?newHolder, ?named, ?newSharer, ?removal, ?own⟩
  case holder => exact fun _ _ => entAddF_slot0
  case newHolder => exact fun _ _ => entAddF_other
  case named => exact fun _ _ => entAddS_named
  case newSharer => exact fun _ _ => entAddS_new
  case removal => exact fun _ _ _ => ⟨entRemove_slots, entRemove_last⟩
  case own => exact fun _ => rfl

end Sys2Proof.Machine
end

section
/-! PROOFS. The statements on dead agents and transactions without an end, and on what an egress arbiter grants. -/

namespace Sys2Proof.Machine

/-! ### Dead agents and transactions without an end (R243, R250, R251, R254, R260) -/

/-- Settles O26, clause by clause: a sweep and a timed-out transaction by their own functions, every other command by the
branch of its meaning that the clause's conditions select. -/
theorem deadAgentCommandsComplete : Obligations.DeadAgentCommandsComplete := by
  unfold Obligations.DeadAgentCommandsComplete
  refine ⟨?deadLink, ?deadSnoop, ?alertExpiry, ?sweepEnd, ?reclaimWalk, ?txnTimeout⟩
  case deadLink =>
    intro s b t since down agent
    exact leadsCoh_of rfl (by simp [since, down, agent])
  case deadSnoop =>
    intro s b t since
    exact leadsCoh_of rfl (by simp only [since])
  case alertExpiry =>
    intro s t ts alerts
    exact leadsHub_of rfl (by simp only [alerts])
  case sweepEnd => exact fun _ _ => leadsTulle_of rfl rfl
  case reclaimWalk =>
    intro s recorded _ idle
    exact leadsTulle_of rfl (by simp [recorded, idle])
  case txnTimeout => exact fun _ _ => leadsCoh_of rfl rfl

/-! ### The egress arbiter (R236, R239) -/

/-- Effective priority of a candidate at an egress arbiter (R236). -/
def effPrio (h : Hub) (m : TMsg) : Nat := min 7 (msgPrio h m + ageLevel h m.since)

/-- A candidate is served no later than another (R236): its effective priority is higher, or equal with an earlier wait, or
these are equal and its source is no higher. -/
def noLater (h : Hub) (x y : Nat × TMsg) : Prop :=
  effPrio h y.2 < effPrio h x.2 ∨
    effPrio h y.2 = effPrio h x.2 ∧ (x.2.since < y.2.since ∨ x.2.since = y.2.since ∧ x.2.src ≤ y.2.src)

/-- The one kept of the best candidate so far and the next. -/
def keepAhead (h : Hub) (best : Option (Nat × TMsg)) (x : Nat × TMsg) : Option (Nat × TMsg) :=
  match best with
  | none => some x
  | some y =>
    if ahead h (msgPrio h x.2) x.2.since x.2.src (msgPrio h y.2) y.2.since y.2.src then some x else some y

/-- The heads of one VC that can be sent. -/
def vcCands (h : Hub) (l : TLink) (vc : Nat) : List (Nat × TMsg) := (vcHeads l.queue vc).filter (fun x => sendable h l x.2)

section
variable {h : Hub} {l : TLink} {vc : Nat} {b x y z : Nat × TMsg} {c : List (Nat × TMsg)}

/-- The order of R236 is reflexive. -/
theorem noLater_refl : noLater h x x := .inr ⟨rfl, .inr ⟨rfl, Nat.le_refl _⟩⟩

/-- The order of R236 is transitive. -/
theorem noLater_trans (xy : noLater h x y) (yz : noLater h y z) : noLater h x z := by
  unfold noLater at *
  omega

/-- The arbiter puts a candidate ahead of another where that one would come later. -/
theorem ahead_iff :
    ahead h (msgPrio h x.2) x.2.since x.2.src (msgPrio h y.2) y.2.since y.2.src = true ↔ ¬noLater h y x := by
  simp only [ahead, noLater, effPrio, Bool.or_eq_true, Bool.and_eq_true, decide_eq_true_iff, beq_iff_eq]
  omega

/-- Of two candidates, one comes no later than the other. -/
theorem noLater_of_not (later : ¬noLater h y x) : noLater h x y := by
  unfold noLater at *
  omega

/-- The one kept is one of the two, and comes no later than either. -/
theorem keepAhead_some :
    ∃ k, keepAhead h (some b) x = some k ∧ (k = b ∨ k = x) ∧ noLater h k b ∧ noLater h k x := by
  by_cases first : noLater h b x
  · exact ⟨b, if_neg fun overtaken => ahead_iff.mp overtaken first, .inl rfl, noLater_refl, first⟩
  · exact ⟨x, if_pos (ahead_iff.mpr first), .inr rfl, noLater_of_not first, noLater_refl⟩

/-- What is kept at the end is one of the candidates, and comes no later than any. -/
theorem foldl_keepAhead (c : List (Nat × TMsg)) (b : Nat × TMsg) :
    ∃ m, c.foldl (keepAhead h) (some b) = some m ∧ m ∈ b :: c ∧ ∀ y ∈ b :: c, noLater h m y := by
  induction c generalizing b with
  | nil => exact ⟨b, rfl, List.mem_cons_self, List.forall_mem_singleton.mpr noLater_refl⟩
  | cons x t ih =>
    obtain ⟨k, kept, of, kb, kx⟩ := keepAhead_some (h := h) (b := b) (x := x)
    obtain ⟨m, last, listed, first⟩ := ih k
    obtain ⟨mk, mt⟩ := List.forall_mem_cons.mp first
    refine ⟨m, by rw [List.foldl_cons, kept, last], ?_, ?_⟩
    · obtain rfl | inTail := List.mem_cons.mp listed
      · obtain rfl | rfl := of
        · exact List.mem_cons_self
        · exact List.mem_cons_of_mem _ List.mem_cons_self
      · exact List.mem_cons_of_mem _ (List.mem_cons_of_mem _ inTail)
    · exact List.forall_mem_cons.mpr ⟨noLater_trans mk kb, List.forall_mem_cons.mpr ⟨noLater_trans mk kx, mt⟩⟩

/-- Nothing is kept only of nothing. -/
theorem foldl_keepAhead_none (nothing : c.foldl (keepAhead h) none = none) : c = [] := by
  cases c with
  | nil => rfl
  | cons b t =>
    obtain ⟨m, last, -⟩ := foldl_keepAhead (h := h) t b
    exact nomatch last.symm.trans nothing

/-- What is kept of candidates is one of them that no other comes before. -/
theorem foldl_keepAhead_best (kept : c.foldl (keepAhead h) none = some x) : x ∈ c ∧ ∀ y ∈ c, noLater h x y := by
  cases c with
  | nil => exact nomatch kept
  | cons b t =>
    obtain ⟨m, last, best⟩ := foldl_keepAhead (h := h) t b
    obtain rfl := Option.some.inj (last.symm.trans kept)
    exact best

/-- A candidate is a head of a source queue that can be sent. -/
theorem mem_vcCands : y ∈ vcCands h l vc ↔ y ∈ vcHeads l.queue vc ∧ sendable h l y.2 = true := List.mem_filter

/-- The grant is the lane's head among the candidates, else what is kept of them. -/
theorem vcPick_eq : vcPick h l vc =
    ((vcCands h l vc).find? (fun x => laneHead h l.queue == some x.2)).or ((vcCands h l vc).foldl (keepAhead h) none) := by
  dsimp only [vcPick, vcCands]
  split
  next found => rw [found, Option.some_or]
  next missing =>
    rw [missing, Option.none_or]
    congr 1
    funext best x
    cases best <;> rfl

/-- Nothing is granted only where nothing can be sent. -/
theorem vcCands_of_vcPick_none (idle : vcPick h l vc = none) : vcCands h l vc = [] := by
  rw [vcPick_eq, Option.or_eq_none_iff] at idle
  exact foldl_keepAhead_none idle.right

section
variable (pick : vcPick h l vc = some x)
include pick

/-- The grant is either the lane's head or, where no candidate is, one that comes no later than any candidate. -/
theorem vcPick_cases :
    x ∈ vcCands h l vc ∧ laneHead h l.queue = some x.2 ∨
      (∀ y ∈ vcCands h l vc, laneHead h l.queue ≠ some y.2) ∧
        x ∈ vcCands h l vc ∧ ∀ y ∈ vcCands h l vc, noLater h x y := by
  rw [vcPick_eq, Option.or_eq_some_iff] at pick
  refine pick.imp (fun found => ⟨List.mem_of_find?_eq_some found, ?_⟩) (fun ⟨missing, kept⟩ =>
    ⟨fun y listed lane => ?_, foldl_keepAhead_best kept⟩)
  · have lane := List.find?_some found
    exact beq_iff_eq.mp lane
  · exact List.find?_eq_none.mp missing y listed (beq_iff_eq.mpr lane)

/-- The grant is a candidate. -/
theorem vcPick_mem : x ∈ vcCands h l vc := (vcPick_cases pick).elim And.left fun ⟨_, listed, _⟩ => listed

/-- Where a candidate is the lane's head, the grant is its message. -/
theorem vcPick_laneHead (listed : y ∈ vcCands h l vc) (lane : laneHead h l.queue = some y.2) : x.2 = y.2 := by
  obtain ⟨-, found⟩ | ⟨missing, -⟩ := vcPick_cases pick
  · exact Option.some.inj (found.symm.trans lane)
  · exact absurd lane (missing y listed)

/-- A grant that is not the lane's head comes no later than any candidate. -/
theorem noLater_of_vcPick (other : laneHead h l.queue ≠ some x.2) (listed : y ∈ vcCands h l vc) :
    noLater h x y := by
  obtain ⟨-, found⟩ | ⟨-, -, best⟩ := vcPick_cases pick
  · exact absurd found other
  · exact best y listed

end
end

/-- Settles O53: the grant is a candidate, the lane's head first and else one that no other comes before. The base priority of
a message and the order of the lane are the model's (log entry 38). -/
theorem arbiterPicksTheBest : Obligations.ArbiterPicksTheBest := by
  unfold Obligations.ArbiterPicksTheBest
  refine fun h l vc => ⟨?idle, ?candidate, ?lane, ?best⟩
  case idle =>
    intro idle y head
    exact Bool.eq_false_iff.mpr fun sends =>
      List.ne_nil_of_mem (mem_vcCands.mpr ⟨head, sends⟩) (vcCands_of_vcPick_none idle)
  case candidate => exact fun x pick => mem_vcCands.mp (vcPick_mem pick)
  case lane => exact fun x y pick head sends => vcPick_laneHead pick (mem_vcCands.mpr ⟨head, sends⟩)
  case best =>
    intro x pick other y head sends
    exact noLater_of_vcPick pick other (mem_vcCands.mpr ⟨head, sends⟩)

end Sys2Proof.Machine
end

section
/-! PROOFS. The statements on the owner counts of local granules, on live home handoff and on the transfer of poison
records. -/

namespace Sys2Proof.Machine

/-! ### The owner counts (R269) -/

section
variable {h : Hub} {line : LineAddr} {old new : DirEnt} {g : Nat}

/-- A change of a line's count is of the count of its own granule, where that is homed here. -/
theorem ownerAdd_self (up : Bool) (homed : homedHere h (granuleOf line) = true)
    (own : g = (homeEntry h (granuleOf line)).loc) :
    mapGet (ownerAdd h line up).owners g 0 =
      if up then min (mapGet h.owners g 0 + 1) (2 ^ 25 - 1) else mapGet h.owners g 0 - 1 := by
  subst own
  simp only [ownerAdd, homed, if_true, mapGet_mapSet_self]

/-- It leaves the count of every other granule. -/
theorem ownerAdd_ne (up : Bool) (other : g ≠ (homeEntry h (granuleOf line)).loc) :
    mapGet (ownerAdd h line up).owners g 0 = mapGet h.owners g 0 := by
  unfold ownerAdd
  split
  · exact mapGet_mapSet_ne _ _ _ _ other
  · rfl

/-- A line that stops being OWNED is counted down. -/
theorem ownedShift_stops (stops : old.st = .owned ∧ new.st ≠ .owned) :
    ownedShift h line old new = ownerAdd h line false := if_pos (by simp [stops])

/-- A line that becomes OWNED is counted up. -/
theorem ownedShift_becomes (becomes : old.st ≠ .owned ∧ new.st = .owned) :
    ownedShift h line old new = ownerAdd h line true := by simp [ownedShift, becomes]

/-- A line that stays OWNED, or stays not OWNED, is not counted. -/
theorem ownedShift_stays (stays : old.st = .owned ↔ new.st = .owned) : ownedShift h line old new = h := by
  by_cases owned : new.st = .owned <;> simp [ownedShift, stays, owned]

/-- A line that neither stops being OWNED nor becomes OWNED is OWNED after the change where it was before. -/
theorem iff_of_not_stops_not_becomes (stops : ¬(old.st = .owned ∧ new.st ≠ .owned))
    (becomes : ¬(old.st ≠ .owned ∧ new.st = .owned)) : old.st = .owned ↔ new.st = .owned :=
  ⟨fun was => Decidable.of_not_not fun isNot => stops ⟨was, isNot⟩,
   fun is => Decidable.of_not_not fun wasNot => becomes ⟨wasNot, is⟩⟩

/-- A change of entry leaves the counts of the granules that are not the line's. -/
theorem ownedShift_ne (other : g ≠ (homeEntry h (granuleOf line)).loc) :
    mapGet (ownedShift h line old new).owners g 0 = mapGet h.owners g 0 := by
  unfold ownedShift
  split
  · exact ownerAdd_ne false other
  · split
    · exact ownerAdd_ne true other
    · rfl

end

/-- Settles O52: another granule's count by `ownedShift_ne`, the line's own by whether the line stops being OWNED, becomes
OWNED or stays as it was. -/
theorem ownerCounts : Obligations.OwnerCounts := by
  unfold Obligations.OwnerCounts
  intro h line old new g homed
  by_cases own : g = (homeEntry h (granuleOf line)).loc
  · rw [if_neg (not_not_intro own)]
    by_cases stops : old.st = .owned ∧ new.st ≠ .owned
    · rw [if_pos stops, ownedShift_stops stops]
      exact ownerAdd_self false homed own
    · rw [if_neg stops]
      by_cases becomes : old.st ≠ .owned ∧ new.st = .owned
      · rw [if_pos becomes, ownedShift_becomes becomes]
        exact ownerAdd_self true homed own
      · rw [if_neg becomes, ownedShift_stays (iff_of_not_stops_not_becomes stops becomes)]
  · rw [if_pos own]
    exact ownedShift_ne own

/-! ### Live home handoff and the transfer of poison records (R264, R266, R268, R456, R457) -/

/-- A served start with a FREEZE time that HO_CTL takes stores it and starts the handoff. -/
theorem handoffStart_served {s : State} {o : Origin} {us : Nat} (k : served s.hub o pMOD 0x114 (1 + 2 * us)) (pos : 0 < us)
    (most : us ≤ 4000) :
    leadsTulle (.handoffStart o us) s (handStart (setFld s.hub pMOD Fld.MOD.HO_CTL_FREEZE_MAX_US us)) := by
  have field : us % 4096 = us := Nat.mod_eq_of_lt (by omega)
  have encoded : (us = 0 || 4000 < us) = false := by simp [Nat.ne_of_gt pos, most]
  refine leadsTulle_of rfl ?_
  simp only [field]
  refine (guardedK_served k).trans ?_
  simp [encoded, logKinds_nil]

/-- Settles O13, clause by clause: a message that is for this hub by the branch of its meaning that the clause's conditions
select, a served start by `handoffStart_served`, the end of the copy and of the chains by their own functions, and the timeout
by the granule being FROZEN. -/
theorem handoffCommandsComplete : Obligations.HandoffCommandsComplete := by
  unfold Obligations.HandoffCommandsComplete
  refine ⟨?offer, ?accept, ?refuse, ?sent, ?received, ?abort, ?copy, ?confirm, ?entries, ?markAgain, ?markNew, ?start,
    ?copyDone, ?chainsEmpty, ?freezeTimeout⟩
  case offer => exact fun s b hd g l r => leadsTulle_of_mgmtRow rfl r rfl
  case accept => exact fun s b hd g l r offered => leadsTulle_of_mgmtRow rfl r (if_pos offered)
  case refuse => exact fun s b hd g l r offered => leadsTulle_of_mgmtRow rfl r (if_pos offered)
  case sent => exact fun s b hd g l n k r => leadsTulle_of_mgmtRow rfl r rfl
  case received => exact fun s b hd g l r flushed => leadsTulle_of_mgmtRow rfl r (if_pos flushed)
  case abort => exact fun s b hd g l r => leadsTulle_of_mgmtRow rfl r rfl
  case copy => exact fun s b hd item x r found => leadsTulle_of_mgmtRow rfl r (by simp only [found])
  case confirm => exact fun s b hd g mark es r => leadsTulle_of_mgmtRow rfl r (if_pos rfl)
  case entries => exact fun s b hd g es r => leadsTulle_of_mgmtRow rfl r rfl
  case markAgain => exact fun s b hd g es r known => leadsTulle_of_mgmtRow rfl r (if_pos known)
  case markNew => exact fun s b hd g es r unknown => leadsTulle_of_mgmtRow rfl r (if_neg (Bool.eq_false_iff.mp unknown))
  case start => exact fun s o us k pos most => handoffStart_served k pos most
  case copyDone => exact fun _ _ _ _ => leadsTulle_of rfl rfl
  case chainsEmpty => exact fun _ _ _ _ _ _ => leadsTulle_of rfl rfl
  case freezeTimeout => exact fun s a own frozen => leadsTulle_of rfl (by simp only [own, frozen, if_true])

end Sys2Proof.Machine
end

section
/-! PROOFS. The statements on the queue of commands and on the states that every step keeps. -/

namespace Sys2Proof.Machine

/-! ### The queue of commands -/

section
variable {s t : State} {c : Instr} {cs : List Instr}

/-- On an empty queue a step is an idle one. -/
theorem step_of_pending_nil (empty : s.pending = []) : step s = .next (idle s) := by rw [step, empty]

/-- Otherwise the command at the front runs on the state with the queue's rest. -/
theorem step_of_pending_cons (front : s.pending = c :: cs) : step s = exec c { s with pending := cs } := by
  rw [step, front]

/-- A step takes the command at the front, and leaves the queue's rest. -/
theorem step_takes_front (front : s.pending = c :: cs) : ∃ t, step s = .next t ∧ t.pending = cs := by
  obtain ⟨t, runs, acts⟩ := exec_acts c { s with pending := cs }
  exact ⟨t, (step_of_pending_cons front).trans runs, acts.pending⟩

/-- A step acts on the hub alone, once the command it runs has left the queue. -/
theorem step_acts (s : State) : ∃ t, step s = .next t ∧ ActsOn { s with pending := s.pending.tail } t := by
  cases front : s.pending with
  | nil => exact ⟨idle s, step_of_pending_nil front, by rw [List.tail_nil, ← front]; exact acts_picot s _⟩
  | cons c cs =>
    obtain ⟨t, runs, acts⟩ := exec_acts c { s with pending := cs }
    exact ⟨t, (step_of_pending_cons front).trans runs, acts⟩

/-- A run goes on from where its first step leads. -/
theorem run_succ_of_step (n : Nat) (first : step s = .next t) : core.run (n + 1) s = core.run n t := by
  have goesOn : core.step s = .next t := first
  simp only [Host.Core.run, goesOn]

/-- As many steps as commands wait empty a queue of a given length. -/
theorem run_drains (cs : List Instr) (s : State) (waiting : s.pending = cs) :
    ∃ t : State, core.run cs.length s = Host.Outcome.next t ∧ t.pending = [] := by
  induction cs generalizing s with
  | nil => exact ⟨s, rfl, waiting⟩
  | cons c cs ih =>
    obtain ⟨t, first, rest⟩ := step_takes_front waiting
    obtain ⟨u, runs, empty⟩ := ih t rest
    exact ⟨u, (run_succ_of_step cs.length first).trans runs, empty⟩

end

/-- Settles O37, by induction on the commands that wait: each step takes the one at the front and adds none. -/
theorem queueDrains : Obligations.QueueDrains := fun s => run_drains s.pending s rfl

/-- Settles O34. -/
theorem stepTakesFront : Obligations.StepTakesFront := fun _ _ _ front => step_of_pending_cons front

/-- Settles O35: the model's choice (log entry 1). -/
theorem stepIdlesAtEmptyQueue : Obligations.StepIdlesAtEmptyQueue := fun _ empty =>
  ⟨step_of_pending_nil empty, (onPicot_pending _ _).trans empty⟩

/-- Settles O36: every command acts on the hub alone. One whose occasion does not exist leaves it unchanged (log entry 7). -/
theorem everyCommandCompletes : Obligations.EveryCommandCompletes := by
  unfold Obligations.EveryCommandCompletes
  intro c s
  obtain ⟨t, runs, acts⟩ := exec_acts c s
  exact ⟨t, runs, acts.pending⟩

/-! ### Safe states -/

/-- Settles O38: management SRAM is empty at reset (log entry 31). -/
theorem safeAtReset : Obligations.SafeAtReset := by
  unfold Obligations.SafeAtReset
  exact ⟨rfl, List.forall_mem_nil _, rfl, rfl⟩

/-- Settles O39: a step acts on the hub alone, and an act on the hub keeps management SRAM safe. The canonical form is how
the model holds it (log entry 31). -/
theorem stepsKeepSafe : Obligations.StepsKeepSafe := by
  unfold Obligations.StepsKeepSafe
  rintro s t ⟨canonical, bounded, -, -⟩ leads
  obtain ⟨u, runs, acts⟩ := step_acts s
  obtain rfl := Host.Outcome.next.inj (runs.symm.trans leads)
  exact acts.safe ⟨canonical, bounded⟩

end Sys2Proof.Machine
end

section
/-! PROOFS. The statements on queues: their assignment, the doorbells and pushes that reach them, and the acceptance of their
entries. -/

namespace Sys2Proof.Machine

/-! ### A queue after a change -/

section
variable {h : Hub} {q k : Nat}

/-- A queue that is changed reads as changed. -/
@[simp] theorem queue_modQueue_self (h : Hub) (q : Nat) (f : Queue → Queue) : queue (modQueue h q f) q = f (queue h q) :=
  mapGet_mapSet_self _ _ _ _

/-- Every other queue stays. -/
theorem queue_modQueue_ne (f : Queue → Queue) (other : k ≠ q) : queue (modQueue h q f) k = queue h k :=
  mapGet_mapSet_ne _ _ _ _ other

end

/-! ### Assignment (R275) -/

/-- QASSIGN applies to a queue: it is UNASSIGNED, IDLE or STOPPED, with no op outstanding. -/
def assignable (h : Hub) (q : Nat) : Prop :=
  ((queue h q).st = .unassigned ∨ (queue h q).st = .idle ∨ (queue h q).st = .stopped) ∧ opsOf h q = []

/-- What QASSIGN makes of a queue. -/
def assigned (v : Nat) (x : Queue) : Queue :=
  { x with
    bay := bits v 0 6, int := bit v 6,
    st := if bit v 7 then (if x.st = .unassigned then .idle else x.st) else .unassigned }

section
variable {h : Hub} {v : Nat}

/-- The branch that QASSIGN takes. -/
theorem not_assignable_iff {q : Nat} :
    (!((queue h q).st == .unassigned || (queue h q).st == .idle || (queue h q).st == .stopped) ||
      !(opsOf h q).isEmpty) = true ↔ ¬assignable h q := by
  simp only [assignable, Bool.or_eq_true, Bool.not_eq_true', Bool.or_eq_false_iff, beq_eq_false_iff_ne, ne_eq, not_and_or,
    not_or, and_assoc, List.isEmpty_eq_false_iff]

/-- QASSIGN is applied to a queue at rest. -/
theorem qassign_assignable (rest : assignable h (fld h pQCTL Fld.QCTL.QSEL)) :
    qassign h v = (modQueue h (fld h pQCTL Fld.QCTL.QSEL) (assigned v), []) := by
  refine (if_neg fun busy => not_assignable_iff.mp busy rest).trans ?_
  unfold assigned
  cases bit v 7 <;> rfl

/-- Otherwise QASSIGN is a state refusal. -/
theorem qassign_refused (busy : ¬assignable h (fld h pQCTL Fld.QCTL.QSEL)) : qassign h v = (h, [.stateRefused]) :=
  if_pos (not_assignable_iff.mpr busy)

end

section
variable {s : State} {o : Origin} {v : Word} (k : served s.hub o pQCTL 0x104 v.toNat)
include k

/-- A served write of QASSIGN to a queue at rest assigns it. -/
theorem leadsHub_qassign (rest : assignable s.hub (fld s.hub pQCTL Fld.QCTL.QSEL)) :
    leadsHub (.qassign o v) s (modQueue s.hub (fld s.hub pQCTL Fld.QCTL.QSEL) (assigned v.toNat)) :=
  leadsHub_of rfl ((guardedK_served k).trans (by rw [qassign_assignable rest, logKinds_nil]))

/-- To any other queue it is dropped and logged. -/
theorem leadsHub_qassign_refused (busy : ¬assignable s.hub (fld s.hub pQCTL Fld.QCTL.QSEL)) :
    leadsHub (.qassign o v) s (accErr s.hub .stateRefused (regAccess o pQCTL 0x104) true) :=
  leadsHub_of rfl ((guardedK_served k).trans (by rw [qassign_refused busy]; rfl))

end

/-- Settles O48: the change of one queue, or an access error. -/
theorem queueAssignmentRule : Obligations.QueueAssignmentRule := by
  unfold Obligations.QueueAssignmentRule
  intro s o v k q x
  refine ⟨fun rest => ⟨modQueue s.hub q (assigned v.toNat), leadsHub_qassign k rest, ?bay, ?int, ?cleared, ?set, ?frame, rfl⟩,
    fun busy => leadsHub_qassign_refused k busy⟩
  case bay => exact (congrArg Queue.bay (queue_modQueue_self _ _ _)).trans (congrArg (· % 2 ^ 6) (Nat.div_one _))
  case int => exact congrArg Queue.int (queue_modQueue_self _ _ _)
  case cleared => exact fun clear => by rw [queue_modQueue_self, assigned, clear]; rfl
  case set => exact fun assign => by rw [queue_modQueue_self, assigned, assign]; rfl
  case frame => exact fun _ other => queue_modQueue_ne _ other

/-! ### Doorbells and pushes (R276 to R279) -/

section
variable {h : Hub} {o : Origin} {q : Nat} {u : DbUnit} (listed : q < 16384) (reach : decodes h o = true)
  (rings : ringsQueue h o q = true)
include listed reach rings

/-- A doorbell of an ENABLED queue whose indices lie in their rings moves them. -/
theorem doorbell_inRange (ring : u.setup = false) (enabled : (queue h q).st = .enabled) (zero : u.zeroOk = true)
    (sq : u.sqValid = false ∨ sub32 (queue h q).tail (queue h q).accept ≤ sub32 u.sqTail (queue h q).accept ∧
      sub32 u.sqTail (queue h q).accept ≤ 2 ^ (queue h q).sqLog2)
    (cq : u.cqValid = false ∨ sub32 u.cqHead (queue h q).head ≤ sub32 (queue h q).complete (queue h q).head) :
    doorbell h o q u =
      modQueue h q (fun x => { x with tail := if u.sqValid then u.sqTail % 2 ^ 32 else x.tail,
                                      head := if u.cqValid then u.cqHead % 2 ^ 32 else x.head }) := by
  have sqOk : (!u.sqValid || (sub32 (queue h q).tail (queue h q).accept ≤ sub32 u.sqTail (queue h q).accept &&
      sub32 u.sqTail (queue h q).accept ≤ 2 ^ (queue h q).sqLog2)) = true := by simpa using sq
  have cqOk : (!u.cqValid || sub32 u.cqHead (queue h q).head ≤ sub32 (queue h q).complete (queue h q).head) = true := by
    simpa using cq
  simp only [doorbell, reach, rings, ring, enabled, zero, sqOk, cqOk, Nat.not_le.mpr listed, decide_false, Bool.not_true,
    Bool.or_self, bne_self_eq_false, Bool.false_eq_true, if_false]

/-- A setup of a management queue that is IDLE or STOPPED with no op outstanding enables it with empty rings. -/
theorem doorbell_setup (setup : u.setup = true) (mgmt : mgmtQueue q = true)
    (rest : (queue h q).st = .idle ∨ (queue h q).st = .stopped) (noOps : opsOf h q = []) (zero : u.zeroOk = true)
    (aligned : ringsOk u.sqLog2 u.cqLog2 u.sqBase u.cqBase = true) (vector : u.vector < 2048) :
    doorbell h o q u =
      modQueue h q (fun x => { x with st := .enabled, cause := 0, sqBase := u.sqBase, cqBase := u.cqBase,
                                      sqLog2 := u.sqLog2, cqLog2 := u.cqLog2, vector := u.vector, accept := 0,
                                      complete := 0, tail := 0, head := 0, pushed := [] }) := by
  have atRest : ((queue h q).st == .idle || (queue h q).st == .stopped) = true := by simpa using rest
  simp only [doorbell, reach, rings, setup, mgmt, atRest, noOps, zero, aligned, vector, Nat.not_le.mpr listed,
    List.isEmpty_nil, decide_true, decide_false, Bool.not_true, Bool.or_self, Bool.and_self, Bool.false_eq_true, if_true,
    if_false]

/-- A push to an ENABLED queue with room in its ring and for its entry is held. -/
theorem push_room {e : BitVec 512} (enabled : (queue h q).st = .enabled)
    (ring : sub32 (queue h q).tail (queue h q).accept < 2 ^ (queue h q).sqLog2) (room : (queue h q).pushed.length < 4) :
    push h o q e = modQueue h q (fun x => { x with pushed := x.pushed ++ [(x.tail, e)], tail := (x.tail + 1) % 2 ^ 32 }) := by
  simp only [push, reach, rings, enabled, Nat.not_le.mpr listed, Nat.not_le.mpr ring, Nat.not_le.mpr room, decide_false,
    Bool.not_true, Bool.or_self, bne_self_eq_false, Bool.false_eq_true, if_false]

end

/-! ### Acceptance (R283, R284, R439, R440) -/

/-- The accept engine accepts an entry: the mode takes it, the Scorebook is in service and has a free slot, durable work is
not held up, and a token is free. -/
theorem tryAccept_accepts {h : Hub} {q tok : Nat} {e : BitVec 512} (mode : modeAccepts h q e = true) (inService : h.scb.boot = 2)
    (slot : ringFree439 h = true) (durable : (durableClass q e && durBlocked h) = false)
    (free : freeTok 1024 h.mov.toks 0 = some tok) : tryAccept h q e = accept h q tok e := by
  simp only [tryAccept, mode, inService, slot, durable, free, Bool.not_true, bne_self_eq_false, Bool.false_eq_true, if_false]

/-- The accept engine comes to a queue that is ready, with a token free, before any other queue. -/
theorem accept_turn {h : Hub} {ram : List Host.Cell} {q : Nat} (ready : queueReady (queue h q) = true)
    (tokens : tokensHeld h < 1024) (first : turnOther h ram q = false) :
    ¬(!queueReady (queue h q) || 1024 ≤ tokensHeld h || turnOther h ram q) = true := by
  simp [ready, first, tokens]

/-- Settles O21, clause by clause: an assignment, a doorbell and a push by their own rules, an acceptance by where the entry
is held. -/
theorem queueCommandsComplete : Obligations.QueueCommandsComplete := by
  unfold Obligations.QueueCommandsComplete
  refine ⟨?qassign, ?sqTail, ?cqHead, ?setup, ?push, ?acceptHeld, ?acceptRead⟩
  case qassign => exact fun s o v k rest noOps => leadsHub_qassign k ⟨rest, noOps⟩
  case sqTail | cqHead =>
    intro s o q u listed reach rings ring enabled zero sq cq
    exact leadsStops_of rfl (doorbell_inRange listed reach rings ring enabled zero sq cq)
  case setup =>
    intro s o q u listed reach rings setup mgmt rest noOps zero aligned vector
    exact leadsStops_of rfl (doorbell_setup listed reach rings setup mgmt rest noOps zero aligned vector)
  case push =>
    intro s o q e listed reach rings enabled ring room
    exact leadsHub_of rfl (push_room listed reach rings enabled ring room)
  case acceptHeld =>
    intro s q tok entry e ready tokens first held mode inService slot durable free
    refine leadsStops_of rfl ((if_neg (accept_turn ready tokens first)).trans ?_)
    simp only [held, tryAccept_accepts mode inService slot durable free]
  case acceptRead =>
    intro s q tok entry h1 ready tokens first held read mode inService slot durable free
    refine leadsStops_of rfl ((if_neg (accept_turn ready tokens first)).trans ?_)
    simp only [held, read, tryAccept_accepts mode inService slot durable free, if_true]

/-! ### Reach handles (R290) -/

/-- Settles O56: the checks in their order. -/
theorem reachCheckOrder : Obligations.ReachCheckOrder := by
  unfold Obligations.ReachCheckOrder
  intro h hd owner ctx perm off len r p1 p2 p3 p4 t
  have node : (hNode hd != ownNode h) = true ↔ p1 := bne_iff_ne
  have listed : (65536 ≤ hIdx hd || !r.valid) = true ↔ p2 := by simp [p2]
  have generation : (hGen hd != r.gen) = true ↔ p3 := bne_iff_ne
  have access : (r.bay != owner || r.ctx != ctx || r.perm &&& perm != perm || r.lines * 64 < off + len) = true ↔ p4 := by
    simp [p4, or_assoc]
  have checks : t = if p1 then 0x15 else if p2 then 0x13 else if p3 then 0x14 else if p4 then 0x16 else 0 := by
    simp only [← node, ← listed, ← generation, ← access]
    rfl
  rw [checks]
  exact ⟨fun n => if_pos n, fun n l => by rw [if_neg n, if_pos l], fun n l g => by rw [if_neg n, if_neg l, if_pos g],
    fun n l g a => by rw [if_neg n, if_neg l, if_neg g, if_pos a],
    fun n l g a => by rw [if_neg n, if_neg l, if_neg g, if_neg a]⟩

end Sys2Proof.Machine
end

section
/-! PROOFS. The statements on the movers' ops and on the management commands of a queue. -/

namespace Sys2Proof.Machine

section
variable {h : Hub} {tok : Nat} {o : Op}

/-- A change of the op that holds a token stores what it gives for it. -/
theorem modOp_of_opOf {f : Op → Op} (held : opOf h tok = some o) : modOp h tok f = putOp h tok (f o) := by
  simp only [modOp, held]

/-! ### Ops on streams (R286, R293, R332, R333) -/

/-- An ADVISE of a code begins its effect where it has not begun it. -/
theorem advise_turn {code : Nat} {f : Hub → Op → Hub} (turn : adviseTurn h tok code o) (new : o.begun = false) :
    advise h tok code f = opSettle (modOp (f h o) tok (fun o => { o with begun := true })) tok := by
  obtain ⟨held, stream, isCode, sound, goesOn⟩ := turn
  simp [advise, held, stream, isCode, sound, goesOn, new]

/-- A MIGRATE takes the first free hold, and invalidates its source. -/
theorem migrateBegin_free {i : Nat}
    (free : (List.range 16).find? (fun i => (mapGet? h.xlt.holds i).isNone) = some i) :
    migrateBegin h tok o =
      putOp (invAsk (putHold h i
          { tok := tok, bay := (queue h o.q).bay, pasid := (queue h o.q).pasid, va := (eSrc o.entry).addr,
            len := eLen o.entry, posted := none })
        { src := .op o.seq, bay := (queue h o.q).bay, pasid := some (queue h o.q).pasid, va := (eSrc o.entry).addr,
          len := eLen o.entry }) tok { o with begun := true, inval := true } := by
  simp only [migrateBegin, free]

end

/-- A data step of an op of its kind on a stream takes what has arrived, and the stream goes on. -/
theorem leadsHub_dataStep {c : Instr} {s : State} {opc : Nat} {t : OpStep}
    (e : exec c s = .next (s.onHub fun h => dataStep h opc t)) (stream : onStream s.hub t.tok opc = true) :
    leadsHub c s (pump (tileStep s.hub t.tok t.tile t.host t.poison) t.tok) := leadsHub_of e (if_pos stream)

/-- An ADVISE that begins leads to its effect, and ends where nothing of it is left. -/
theorem leadsHub_advise {c : Instr} {s : State} {t : Hub} {tok code : Nat} {o : Op} {f : Hub → Op → Hub}
    (e : exec c s = .next (s.onHub fun h => advise h tok code f)) (turn : adviseTurn s.hub tok code o)
    (new : o.begun = false) (k : f s.hub o = t) :
    leadsHub c s (opSettle (modOp t tok (fun o => { o with begun := true })) tok) :=
  leadsHub_of e ((advise_turn turn new).trans (by rw [k]))

/-- Settles O22, clause by clause: a step of a stream by `leadsHub_dataStep`, an ADVISE by `leadsHub_advise`, every other
command by the branch of its meaning that the clause's conditions select. -/
theorem moverCommandsComplete : Obligations.MoverCommandsComplete := by
  unfold Obligations.MoverCommandsComplete
  refine ⟨?copy, ?fill, ?compare, ?crc32c, ?stash, ?atomicBatch, ?willneed, ?dontneed, ?hot, ?cold, ?migrateStep,
    ?migrateBegins, ?dispatch, ?tileComplete, ?completionInternal, ?completionHost, ?enable⟩
  case copy | fill | compare | crc32c | stash | atomicBatch => exact fun s t stream => leadsHub_dataStep rfl stream
  case willneed =>
    rintro s tok o ⟨held, stream, isCode, sound, goesOn⟩
    exact leadsHub_of rfl (by simp [held, stream, isCode, sound, goesOn, modOp_of_opOf held])
  case dontneed | hot | cold => exact fun s tok o turn new => leadsHub_advise rfl turn new rfl
  case migrateStep =>
    intro s t o held stream begun
    refine leadsHub_of rfl ?_
    simp only [held, begun, Bool.not_true, Bool.and_false, Bool.false_and, Bool.false_eq_true, if_false]
    exact if_pos stream
  case migrateBegins =>
    intro s t o i held stream new sound goesOn free
    have begins : (onStream s.hub t.tok 8 && !o.begun && o.fail.isNone && !o.aborted) = true := by
      simp [stream, new, sound, goesOn]
    refine leadsHub_of rfl ?_
    simp only [held, begins, if_true, migrateBegin_free free]
  case dispatch =>
    intro s g tok m o head on mode stays mover held
    refine leadsHub_of rfl ?_
    have serves : (s.hub.mode.mode != .serve && s.hub.mode.mode != .drain || s.hub.mode.toMaintain) = false := by
      rcases mode with mode | mode <;> simp [mode, stays]
    simp only [head, on, bne_self_eq_false, serves, mover, held, Bool.false_eq_true, if_false]
  case tileComplete => exact fun s tok tile => leadsHub_of rfl rfl
  case completionInternal =>
    intro s tok o held may internal
    exact leadsStops_of rfl (by simp [held, may, internal])
  case completionHost =>
    intro s tok o held may host mgmt quad
    exact leadsStops_of rfl (by simp [held, may, host, mgmt, quad])
  case enable => exact fun s o m v k e => leadsHub_of rfl (congrArg noMoverCheck (plainWrite_served k e))

/-! ### Management commands (R282, R288, R289, R291, R298, R315, R319, R325, R326, R329) -/

/-- A management command whose turn it is leads to its effect. -/
theorem leadsHub_mgmt {c : Instr} {s : State} {t : Hub} {tok opc : Nat} {o : Op} {f : Hub → Op → Queue → Hub}
    (e : exec c s = .next (s.onHub fun h => mgmtRun h tok opc f)) (turn : mgmtTurn s.hub tok opc o)
    (k : f s.hub o (queue s.hub o.q) = t) : leadsHub c s t := leadsHub_of e ((mgmtRun_turn turn).trans k)

/-- Settles O23, clause by clause: a management command whose turn it is, by the branch of its meaning that the clause's
conditions select. -/
theorem managementCommandsComplete : Obligations.ManagementCommandsComplete := by
  unfold Obligations.ManagementCommandsComplete
  refine ⟨?nop, ?reachCreate, ?reachRevoke, ?queueCreate, ?queueDestroy, ?queueSetPrio, ?bind, ?inval, ?resume, ?fring,
    ?unbind⟩
  case nop | inval | fring => exact fun s tok o turn => leadsHub_mgmt rfl turn rfl
  case reachCreate =>
    intro s tok o base i turn lines free listed
    refine leadsHub_mgmt rfl turn ?_
    simp only [lines, free, Nat.not_le.mpr listed, if_false]
    rfl
  case reachRevoke =>
    intro s tok o turn node listed valid generation owner
    exact leadsHub_mgmt rfl turn (by simp [node, listed, valid, generation, owner])
  case queueCreate =>
    intro s tok o turn work listed owner int rest noOps
    have atRest : ((queue s.hub (eB o.entry 8 2)).st == .idle || (queue s.hub (eB o.entry 8 2)).st == .stopped) = true := by
      simpa using rest
    exact leadsHub_mgmt rfl turn (if_neg (by simp [work, listed, owner, int, atRest, noOps]))
  case queueDestroy =>
    intro s tok o turn listed owner int enabled
    exact leadsHub_mgmt rfl turn (if_neg (by simp [listed, owner, int, enabled]))
  case queueSetPrio =>
    intro s tok o turn listed owner int known
    exact leadsHub_mgmt rfl turn (if_neg (by simp [listed, owner, int, known]))
  case bind =>
    intro s tok o turn room unbound node listed valid owner
    exact leadsHub_mgmt rfl turn (if_neg (by simp [-Nat.reducePow, room, unbound, node, listed, valid, owner]))
  case resume =>
    intro s tok o f turn fault mirror owner
    refine leadsStops_of rfl ((mgmtRun_turn turn).trans ?_)
    simp [fault, mirror, owner]
  case unbind =>
    intro s tok o turn bound
    exact leadsHub_mgmt rfl turn (if_neg (by simp [-Nat.reducePow, Option.isNone_eq_false_iff.mpr bound]))

end Sys2Proof.Machine
end

section
/-! PROOFS. The statement on the translation of movers' addresses and on the heat sketch. -/

namespace Sys2Proof.Machine

/-- Settles O24, clause by clause: each answer, timeout and sweep finds its slot, fault entry, hold or invalidation in use, and
takes the branch of its meaning that the clause's conditions select. -/
theorem translationCommandsComplete : Obligations.TranslationCommandsComplete := by
  unfold Obligations.TranslationCommandsComplete
  refine ⟨?atsOk, ?atsRefused, ?walkRead, ?prgSuccess, ?prgInvalid, ?prgFailure, ?prgLate, ?faultTimeout, ?invRequest,
    ?invStart, ?sweepEnd, ?invCompleteHost, ?invCompleteOp, ?holdExpiry, ?decay⟩
  case atsOk =>
    intro s slot pa log2 rd w u x slotOpen ats permitted
    exact leadsStops_of rfl (by simp only [slotOpen, ats, permitted, Bool.not_true, Bool.false_eq_true, if_false])
  case atsRefused =>
    intro s slot x slotOpen ats
    exact leadsStops_of rfl (by simp only [slotOpen, ats, Bool.false_eq_true, if_false])
  case walkRead =>
    intro s slot size pa w x r slotOpen read clean leaf
    exact leadsStops_of rfl (by simp only [slotOpen, read, clean, leaf, Bool.false_eq_true, if_false])
  case prgSuccess | prgInvalid | prgFailure =>
    intro s b idx f fault ats owner
    exact leadsStops_of rfl (by simp [fault, ats, owner])
  case prgLate =>
    intro s b idx c free
    exact leadsStops_of rfl (by simp only [free])
  case faultTimeout =>
    intro s idx f fault
    exact leadsStops_of rfl (by simp only [fault])
  case invRequest =>
    intro s b glob pasid va log2 tag up
    exact leadsHub_of rfl (if_neg (by simp [up]))
  case invStart =>
    intro s idle waiting
    exact leadsStops_of rfl (if_pos (by simp [idle, waiting]))
  case sweepEnd =>
    intro s v t run
    exact leadsHub_of rfl (by simp only [run])
  case invCompleteHost =>
    intro s v t tag run noneOut source
    exact leadsHub_of rfl (by simp only [run, noneOut, source, Bool.false_eq_true, if_false])
  case invCompleteOp =>
    intro s v t seq k o run noneOut source op
    exact leadsHub_of rfl (by simp only [run, noneOut, source, op, Bool.false_eq_true, if_false])
  case holdExpiry =>
    intro s i t x held posted
    exact leadsStops_of rfl (by simp only [held, posted])
  case decay => exact fun _ => leadsHub_of rfl rfl

end Sys2Proof.Machine
end

section
/-! PROOFS. The statements on Picot: its compare channels, captures, synchronisation pins and task inputs; and on overflow
reports, dump ticks and sampling. -/

namespace Sys2Proof.Machine

/-! ### START (R347) -/

/-- The smallest k for which k steps from a phase lie above a time. -/
def firstAbove (iv ph ta : Nat) : Nat := if ta < ph then 0 else (ta - ph) / iv + 1

section
variable {iv ph ta : Nat}

/-- As many steps lie above the time. -/
theorem lt_firstAbove (ta ph : Nat) (pos : 0 < iv) : ta < firstAbove iv ph ta * iv + ph := by
  unfold firstAbove
  split
  · omega
  · have above := Nat.lt_div_mul_add pos (a := ta - ph)
    rw [Nat.add_one_mul]
    omega

/-- Fewer do not. -/
theorem firstAbove_le {j : Nat} (above : ta < j * iv + ph) : firstAbove iv ph ta ≤ j := by
  unfold firstAbove
  split
  · exact Nat.zero_le j
  · exact Nat.div_lt_of_lt_mul (by rw [Nat.mul_comm]; omega)

end

/-- START computes that many INTERVALs above PHASE. -/
theorem startCmp_eq (h : Hub) (c ta : Nat) :
    startCmp h c ta =
      (firstAbove (chInt h c) (fld h pPIC (Fld.PIC.CH_PHASE.nth c)) ta * chInt h c +
        fld h pPIC (Fld.PIC.CH_PHASE.nth c)) % 2 ^ 64 := by
  by_cases below : ta < fld h pPIC (Fld.PIC.CH_PHASE.nth c)
  · simp only [startCmp, firstAbove, below, if_true, Nat.zero_mul, Nat.zero_add]
  · simp only [startCmp, firstAbove, below, if_false]

/-- Settles O55. -/
theorem startValue : Obligations.StartValue := by
  unfold Obligations.StartValue
  intro h c ta below
  exact ⟨_, startCmp_eq h c ta, lt_firstAbove ta _ (Nat.zero_lt_of_lt below), fun _ => firstAbove_le⟩

/-! ### Writes of a channel's registers (R102, R344, R347, R349) -/

/-- A bit that is set stays as it is where it is set again. -/
theorem or_two_pow_of_bit {v i : Nat} (set : bit v i = true) : v ||| 2 ^ i = v := by
  refine Nat.eq_of_testBit_eq fun j => ?_
  rw [Nat.testBit_or, Nat.testBit_two_pow]
  by_cases same : i = j
  · subst same; simp [show v.testBit i = true from set]
  · simp [same]

/-- A served write of a high half whose low half is freshly staged does its effect with both (R102). -/
theorem highWriteK_staged {h : Hub} {o : Origin} {pg off v : Nat} {act : Hub → Nat → Hub × List AccKind} {t : Stage}
    (k : served h o pg off v) (st : stageFor h o pg off = some t) (fresh : h.htime - t.time < 1024) :
    highWriteK h o pg off v act =
      logKinds (act (stageDrop h o) t.value).1 (act (stageDrop h o) t.value).2 (regAccess o pg off) true := by
  obtain ⟨a, b, c⟩ := k
  simp [highWriteK, a, b, c, st, fresh]

section
variable {h : Hub} {o : Origin} {c v : Nat} (soft : hubsOwn c = false)
include soft

/-- A served write of CTL of a software channel does its effect, and logs what the effect says. -/
theorem chanWrite_ctl_served (k : served h o pPIC (0x410 + 32 * c) v) :
    chanWrite h o c .ctl v = logKinds (ctlSet h c v).1 (ctlSet h c v).2 (regAccess o pPIC (0x410 + 32 * c)) true := by
  simp only [chanWrite, guardedK_served k, soft, Bool.false_eq_true, if_false]

/-- A served write of INTERVAL of a software channel. -/
theorem chanWrite_interval_served (k : served h o pPIC (0x408 + 32 * c) v) :
    chanWrite h o c .interval v = intervalSet h c v := by
  simp only [chanWrite, guardedK_served k, soft, Bool.false_eq_true, if_false, logKinds_nil]

/-- A served write of PHASE of a software channel. -/
theorem chanWrite_phase_served (k : served h o pPIC (0x40C + 32 * c) v) :
    chanWrite h o c .phase v = phaseSet h c v := by
  simp only [chanWrite, guardedK_served k, soft, Bool.false_eq_true, if_false, logKinds_nil]

/-- A served write of the high half of C of a software channel whose low half is freshly staged. -/
theorem chanWrite_cmpHi_staged {t : Stage} (k : served h o pPIC (0x404 + 32 * c) v)
    (st : stageFor h o pPIC (0x404 + 32 * c) = some t) (fresh : h.htime - t.time < 1024) :
    chanWrite h o c .cmpHi v = cmpSet (stageDrop h o) c (t.value + 2 ^ 32 * v) := by
  simp only [chanWrite, highWriteK_staged k st fresh, soft, Bool.false_eq_true, if_false, logKinds_nil]

end

/-- CTL with a reserved encoding is refused (R349). -/
theorem ctlSet_reserved {h : Hub} {c v : Nat}
    (reserved : v % 4 = 2 ∧ chInt h c = 0 ∨ v % 4 = 3 ∧ chInt h c < 2 ∨
      bit v 5 = true ∧ chInt h c ≤ fld h pPIC (Fld.PIC.CH_PHASE.nth c)) : ctlSet h c v = (h, [.reservedEnc]) := by
  have mode : bits v 0 2 = v % 4 := congrArg (· % 2 ^ 2) (Nat.div_one v)
  refine if_pos ?_
  simpa only [mode, Bool.or_eq_true, Bool.and_eq_true, decide_eq_true_iff, or_assoc] using reserved

/-- Settles O47: the write is a reserved encoding, and an access error touches the PAG page alone. -/
theorem reservedChannelControl : Obligations.ReservedChannelControl := by
  unfold Obligations.ReservedChannelControl
  intro s o c v k soft reserved t
  have write : chanWrite s.hub o c.val .ctl v.toNat = t :=
    (chanWrite_ctl_served soft k).trans (by rw [ctlSet_reserved reserved]; rfl)
  have log : Logs pPAG s.hub t := logs_accErr _ _ _ _
  refine ⟨leadsPicot_of rfl write, fun start => leadsPicot_of rfl ?_, by rw [log.rest], log.fields⟩
  rw [show v.toNat ||| 0x20 = v.toNat from or_two_pow_of_bit start]
  exact write

/-! ### Captures, pins and task inputs (R350 to R362) -/

/-- An event source raised in the present hc. -/
theorem raiseAt_htime (h : Hub) (src : Nat) : raiseAt h src h.htime = raise h src := rfl

/-- An event source that is raised leaves the register fields. -/
@[simp] theorem fld_raise (h : Hub) (src pg : Nat) (f : FieldDef) : fld (raise h src) pg f = fld h pg f := by
  unfold raise
  split <;> rfl

/-- A capture input that holds no capture takes the edge (R353). -/
theorem captureAt_empty {h : Hub} {i : Nat} (empty : flag h pPIC (Fld.PIC.CAP_STAT_VALID.nth i) = false) :
    captureAt h i h.htime =
      setIstat (setFld (setFld64 (raise h (64 + i)) pPIC (Fld.PIC.CAP_LO.nth i) (Fld.PIC.CAP_HI.nth i) h.htime) pPIC
        (Fld.PIC.CAP_STAT_VALID.nth i) 1) pPIC 3 := by
  have still : flag (raise h (64 + i)) pPIC (Fld.PIC.CAP_STAT_VALID.nth i) = false := by rwa [flag, fld_raise]
  simp only [captureAt, raiseAt_htime, still, Bool.false_eq_true, if_false]

/-- Settles O27, clause by clause: a write by the effect of its register, every other command by the branch of its meaning
that the clause's conditions select. -/
theorem picotCommandsComplete : Obligations.PicotCommandsComplete := by
  unfold Obligations.PicotCommandsComplete
  refine ⟨?cmpHi, ?interval, ?phase, ?ctl, ?start, ?fire, ?wrap, ?taskEnd, ?irqClear, ?swfire, ?taskWrite, ?capture,
    ?syncIn, ?syncOut⟩
  case cmpHi => exact fun s o c v t k soft st fresh => leadsPicot_of rfl (chanWrite_cmpHi_staged soft k st fresh)
  case interval => exact fun s o c v k soft => leadsPicot_of rfl (chanWrite_interval_served soft k)
  case phase => exact fun s o c v k soft => leadsPicot_of rfl (chanWrite_phase_served soft k)
  case ctl | start =>
    intro s o c v k soft silent
    exact leadsPicot_of rfl ((chanWrite_ctl_served soft k).trans (by rw [silent, logKinds_nil]))
  case fire | wrap =>
    intro s c f next
    exact leadsPicot_of rfl (by simp only [next])
  case taskEnd =>
    intro s t runs ended
    exact leadsPicot_of rfl (if_pos (by simp [runs, ended]))
  case irqClear => exact fun s o hi v => leadsPicot_of rfl rfl
  case swfire => exact fun s o v k => leadsPicot_of rfl (guarded_served k)
  case taskWrite =>
    intro s o t v k silent
    exact leadsPicot_of rfl ((guardedK_served k).trans (by rw [silent, logKinds_nil]))
  case capture =>
    intro s i clock enabled edge empty
    exact leadsPicot_of rfl ((if_neg (by simp [clock, enabled, edge])).trans (captureAt_empty empty))
  case syncIn =>
    intro s clock
    exact leadsPicot_of rfl (if_pos clock)
  case syncOut =>
    intro s high
    exact leadsPicot_of rfl (if_pos high)

/-! ### Overflow reports, dump ticks and sampling (R373, R378, R379) -/

/-- Settles O28, clause by clause: a dump tick is taken where a task input is bound to dumps, and counted where none is. -/
theorem counterCommandsComplete : Obligations.CounterCommandsComplete := by
  unfold Obligations.CounterCommandsComplete
  refine ⟨?overflow, ?tickTaken, ?tickCounted, ?sampling⟩
  case overflow =>
    intro s pg t rest pending
    exact leadsPicot_of rfl (by simp only [pending])
  case tickTaken =>
    intro s clock enabled bound
    exact leadsPicot_of rfl ((if_neg (by simp [clock, enabled])).trans (if_pos bound))
  case tickCounted =>
    intro s clock enabled unbound
    exact leadsPicot_of rfl ((if_neg (by simp [clock, enabled])).trans (if_neg (Bool.eq_false_iff.mp unbound)))
  case sampling => exact fun s o v => leadsPicot_of rfl rfl

end Sys2Proof.Machine
end

section
/-! PROOFS. The statements on the mailbox's services, the watchdog and the health window, and on the management commands. -/

namespace Sys2Proof.Machine

/-! ### The mailbox (R392 to R394, R399 to R404, R412 to R416) -/

/-- A service of the mailbox that runs and is allowed leads to its completion. -/
theorem leadsTulle_service {c : Instr} {s : State} {code : Nat} {allowed : Hub → Bool} {act : Hub → Svc} {h : Hub} {status : Nat}
    {rsp : List Nat} (e : exec c s = .next (s.onTulle fun h => service h code (allowed h) act))
    (runs : callRuns s.hub code = true) (mode : allowed s.hub = true) (k : act s.hub = (h, status, rsp)) :
    leadsTulle c s (complete h status rsp) := leadsTulle_of e ((service_runs runs mode).trans (by rw [k]))

/-- Outside HUB_RESET_N the hub itself acts on the devices of the keep store (R469). -/
theorem byProgrammer_released {h : Hub} {f : Keep → Keep} {hubs : Hub → Hub} (released : h.pins.hubReset = false) :
    byProgrammer h f hubs = hubs h := if_neg (Bool.eq_false_iff.mp released)

/-- Under HUB_RESET_N an external programmer does (log entry 80). -/
theorem byProgrammer_held {h : Hub} {f : Keep → Keep} {hubs : Hub → Hub} (held : h.pins.hubReset = true) :
    byProgrammer h f hubs = { h with keep := f h.keep } := if_pos held

/-- A service that the external programmer could do instead leads to its completion where HUB_RESET_N is released. -/
theorem leadsTulle_programmable {c : Instr} {s : State} {code : Nat} {allowed : Hub → Bool} {f : Keep → Keep} {act : Hub → Svc}
    {h : Hub} {status : Nat} {rsp : List Nat}
    (e : exec c s = .next (s.onTulle fun h => byProgrammer h f (fun h => service h code (allowed h) act)))
    (released : s.hub.pins.hubReset = false) (runs : callRuns s.hub code = true) (mode : allowed s.hub = true)
    (k : act s.hub = (h, status, rsp)) : leadsTulle c s (complete h status rsp) :=
  leadsTulle_of e ((byProgrammer_released released).trans ((service_runs runs mode).trans (by rw [k])))

/-- Settles O29, clause by clause: a service that runs by `leadsTulle_service`, the watchdog and the health window by the branch
of their meanings that the clause's conditions select. What RELAY answers is free (log entry 18), and under HUB_RESET_N
FW_STAGE stands for the external programmer (log entry 80). -/
theorem mailboxCommandsComplete : Obligations.MailboxCommandsComplete := by
  unfold Obligations.MailboxCommandsComplete
  refine ⟨?nop, ?kick, ?relay, ?stage, ?activate, ?policy, ?profile, ?programmed, ?svnCommit, ?overlay, ?mcRead, ?mcIncr,
    ?declare, ?resetRequest, ?healthTimer, ?half, ?expiry⟩
  case nop | kick => exact fun s runs mode => leadsTulle_service rfl runs mode rfl
  case relay => exact fun s len runs mode => leadsTulle_service rfl runs mode rfl
  case stage =>
    intro s k sl off len img runs mode released fits buffer
    exact leadsTulle_programmable rfl released runs mode (if_neg (by simp [fits, buffer]))
  case activate => exact fun s k sl runs mode => leadsTulle_service rfl runs mode rfl
  case policy | profile => exact fun s p runs mode released => leadsTulle_programmable rfl released runs mode rfl
  case programmed => exact fun s k sl off len img held => leadsTulle_of rfl (byProgrammer_held held)
  case svnCommit => exact fun s runs mode store => leadsTulle_service rfl runs mode (if_pos store)
  case overlay => exact fun s ok runs mode => leadsTulle_service rfl runs mode rfl
  case mcRead => exact fun s n runs mode listed => leadsTulle_service rfl runs mode (if_neg (by omega))
  case mcIncr =>
    intro s n runs mode above listed store
    have counter : ¬(n < 3 ∨ 7 < n) := by omega
    exact leadsTulle_service rfl runs mode (by simp [counter, store])
  case declare => exact fun s runs mode => leadsTulle_service rfl runs (by simp [mode]) rfl
  case resetRequest =>
    intro s runs mode
    exact leadsTulle_of rfl (by simp [runs, mode])
  case healthTimer =>
    intro s serves window mode
    exact leadsTulle_of rfl (if_pos (by simp [serves, window, mode]))
  case half =>
    intro s t p runs policy new
    exact leadsTulle_of rfl (by simp only [wdogHalf, runs, policy, new, Bool.false_eq_true, if_false])
  case expiry =>
    intro s t p runs policy
    exact leadsTulle_of rfl (by simp only [wdogExpire, runs, policy])

/-! ### Management commands (R389, R405, R409 to R413, R471) -/

section
variable {h : Hub}

/-- In the Zhozha tier of BENCH the ROM does not answer. -/
theorem romTier_of_zhTier (tier : zhTier h = true) : romTier h = false := by
  simp only [zhTier, Bool.and_eq_true] at tier
  obtain ⟨-, zhozha⟩ := tier
  rw [romTier, zhozha, Bool.not_true, Bool.and_false]

/-- LDG_READ leaves the hub. -/
theorem ldgRead_hub (h : Hub) (l n : Nat) : (ldgRead h l n).1 = h := by
  unfold ldgRead
  split
  · rfl
  · split <;> rfl

/-- OWNER_REVOKE answers no data. -/
theorem ownerRevoke_data (h : Hub) (slot : Nat) : (ownerRevoke h slot).2.2 = [] := by
  unfold ownerRevoke
  split <;> rfl

/-- IMAGE_UPDATE answers no data. -/
theorem imageUpdate_data (h : Hub) (kind : Nat) (img : Image) : (imageUpdate h kind img).2.2 = [] := by
  unfold imageUpdate
  dsimp only
  split <;> rfl

/-- A BENCH_RELEASE with a good signature clears BOOT_TRIES, is answered, and resets the hub (R405). -/
theorem benchRelease_good {c : QCarrier} {sig : OwnerSig} (k : answers h = true) (tier : zhTier h = true)
    (good : sigGood h sig (opsKey h sig.key || rootInForce h sig.key) = true) :
    benchRelease h c sig =
      hubReset (emit (putSel (spend h sig) { bootSel (spend h sig) with tries := 0 }) (.answer c 0 [])) 5 0 false := by
  simp only [benchRelease, k, romTier_of_zhTier tier, tier, good, Bool.not_true, Bool.or_self, Bool.false_eq_true, if_false]

end

/-- A management command outside the ROM's tier that is allowed leads to its answer. -/
theorem leadsTulle_mgmt {i : Instr} {s : State} {c : QCarrier} {allowed : Hub → Bool} {act : Hub → Svc} {h : Hub} {status : Nat}
    {data : List Nat} (e : exec i s = .next (s.onTulle fun h => mgmtCmd h c (allowed h) act)) (k : answers s.hub = true)
    (rom : romTier s.hub = false) (mode : allowed s.hub = true) (a : act s.hub = (h, status, data)) :
    leadsTulle i s (emit h (.answer c status data)) :=
  leadsTulle_of e ((mgmtCmd_runs k rom mode).trans (by rw [a]))

/-- An owner-signed one whose signature holds spends its nonce and leads to its answer (R413). -/
theorem leadsTulle_signed {i : Instr} {s : State} {c : QCarrier} {sig : OwnerSig} {allowed keyOk : Hub → Bool} {act : Hub → Svc}
    {h : Hub} {status : Nat} {data : List Nat}
    (e : exec i s = .next (s.onTulle fun h => mgmtCmd h c (allowed h) (fun h => signedCmd h sig (keyOk h) act)))
    (k : answers s.hub = true) (rom : romTier s.hub = false) (mode : allowed s.hub = true)
    (good : sigGood s.hub sig (keyOk s.hub) = true) (a : act (spend s.hub sig) = (h, status, data)) :
    leadsTulle i s (emit h (.answer c status data)) := leadsTulle_mgmt e k rom mode ((if_pos good).trans a)

/-- Settles O30, clause by clause: a command by what it answers, an owner-signed one whose signature holds by its effect. -/
theorem quinsorCommandsComplete : Obligations.QuinsorCommandsComplete := by
  unfold Obligations.QuinsorCommandsComplete
  refine ⟨?info, ?read, ?certs, ?nonce, ?ack, ?release, ?claim, ?revoke, ?update, ?status⟩
  case info | nonce => exact fun s c k rom mode => leadsTulle_mgmt rfl k rom mode rfl
  case read => exact fun s c l n k rom mode => leadsTulle_mgmt rfl k rom mode (Prod.ext (ldgRead_hub _ l n) rfl)
  case certs => exact fun s c k rom mode devs => leadsTulle_mgmt rfl k rom mode (if_neg (by simp [devs]))
  case ack => exact fun s c sig l k rom mode good => leadsTulle_signed rfl k rom mode good rfl
  case release => exact fun s c sig k tier good => leadsTulle_of rfl (benchRelease_good k tier good)
  case claim =>
    intro s c key k tier unownedHub
    exact leadsTulle_mgmt rfl k (romTier_of_zhTier tier) (by simp [tier, unownedHub]) rfl
  case revoke =>
    intro s c sig i k tier good
    have data := ownerRevoke_data (spend s.hub sig) i.val
    exact leadsTulle_signed rfl k (romTier_of_zhTier tier) tier good (Prod.ext rfl (Prod.ext rfl data))
  case update =>
    intro s c kind img k tier
    have data := imageUpdate_data s.hub (kindNum kind) img
    exact leadsTulle_mgmt rfl k (romTier_of_zhTier tier) tier (Prod.ext rfl (Prod.ext rfl data))
  case status =>
    intro s c k rom
    exact leadsTulle_of rfl ((if_neg (by simp [k])).trans (if_pos rom))

/-! ### LDG_ACK (R411) -/

/-- Settles O59: the branches of LDG_ACK. -/
theorem ledgerAck : Obligations.LedgerAck := by
  unfold Obligations.LedgerAck
  refine ⟨?acked, ?beyond, ?advances⟩
  case acked => exact fun h n below => if_pos below
  case beyond => exact fun h n above beyond => (if_neg (Nat.not_le.mpr above)).trans (if_pos beyond)
  case advances =>
    intro h n above within store
    rw [ackTo, if_neg (Nat.not_le.mpr above), if_neg (Nat.not_lt.mpr within), if_neg (by simp [store])]

end Sys2Proof.Machine
end

section
/-! PROOFS. The statements on the keep store and the Scorebook. -/

namespace Sys2Proof.Machine

/-! ### The Scorebook sequence (R437) -/

/-- Where one acceptance more has been counted, the next sequence is one further, or 1 after the largest. -/
theorem nextScbSeq_advance {h g : Hub} (one : g.scb.issued = h.scb.issued + 1) :
    nextScbSeq g = if nextScbSeq h = 2 ^ 48 - 1 then 1 else nextScbSeq h + 1 := by
  have next : nextScbSeq h = h.scb.issued % (2 ^ 48 - 1) + 1 := rfl
  have further : nextScbSeq g = (h.scb.issued + 1) % (2 ^ 48 - 1) + 1 := by rw [nextScbSeq, one]
  split <;> omega

/-- The next sequence is not 0, and has 48 bits. -/
theorem nextScbSeq_range (h : Hub) : nextScbSeq h ≠ 0 ∧ nextScbSeq h < 2 ^ 48 := by
  unfold nextScbSeq
  omega

/-- Settles O57: the number of acceptances, counted in cycles of 2^48 - 1 from 1. -/
theorem scorebookSequence : Obligations.ScorebookSequence := by
  unfold Obligations.ScorebookSequence
  exact ⟨fun h none => by rw [nextScbSeq, none, Nat.zero_mod], fun h => nextScbSeq_advance rfl, nextScbSeq_range⟩

/-! ### The batch (R426, R428, R429) -/

section
variable {h : Hub}

/-- Units appended to a device's log change the keep store alone. -/
theorem devPuts_keep (h : Hub) (d part : Nat) (us : List KUnit) : ∃ k, devPuts h d part us = { h with keep := k } := by
  unfold devPuts
  split
  · exact ⟨_, rfl⟩
  · exact ⟨h.keep, rfl⟩

/-- The same for units appended on several devices. -/
theorem foldl_devPuts_keep (ds : List Nat) (h : Hub) (part : Nat) (us : List KUnit) :
    ∃ k, ds.foldl (fun h d => devPuts h d part us) h = { h with keep := k } := by
  induction ds generalizing h with
  | nil => exact ⟨h.keep, rfl⟩
  | cons d ds ih =>
    obtain ⟨k, first⟩ := devPuts_keep h d part us
    obtain ⟨k', rest⟩ := ih (devPuts h d part us)
    exact ⟨k', rest.trans (by rw [first])⟩

/-- A phase passes on a device: the units that the batch's records give are appended there. -/
def passOn (units : List KRec → List KUnit) (acc : Hub × KBatch) (d : Nat) : Hub × KBatch :=
  (devPuts acc.1 d acc.2.part (units acc.2.recs), { acc.2 with passed := d :: acc.2.passed })

/-- A phase passes on several devices. -/
theorem foldl_passOn (units : List KRec → List KUnit) (ds : List Nat) (h : Hub) (b : KBatch) :
    ds.foldl (passOn units) (h, b) =
      (ds.foldl (fun h d => devPuts h d b.part (units b.recs)) h, { b with passed := ds.reverse ++ b.passed }) := by
  induction ds generalizing h b with
  | nil => rfl
  | cons d ds ih =>
    rw [List.foldl_cons, passOn, ih]
    simp only [List.foldl_cons, List.reverse_cons, List.append_assoc, List.singleton_append]

section
variable {b : KBatch} (runs : h.kep.batch = some b) (fresh : b.passed = [])
include runs fresh

/-- Phase 1 that passes on every device ends. -/
theorem phase1_passes (first : b.phase2 = false) :
    phase1 h [] =
      { (activeDevs h).foldl (fun h d => devPuts h d b.part (b.recs.map .data)) h with
        kep := { h.kep with batch := some { b with phase2 := true, passed := [] } } } := by
  have fold := foldl_passOn (List.map .data) (activeDevs h) h b
  unfold passOn at fold
  simp only [fresh, List.append_nil] at fold
  obtain ⟨k, puts⟩ := foldl_devPuts_keep (activeDevs h) h b.part (b.recs.map .data)
  rw [puts] at fold ⊢
  have all : (activeDevs h).all (fun d => (activeDevs h).reverse.contains d) = true := by simp
  have same : activeDevs { h with keep := k } = activeDevs h := rfl
  simp only [phase1, runs, first, fresh, List.contains_nil, Bool.not_false, List.filter_true, Bool.false_eq_true, if_false,
    fold, same, all, if_true, keepBatch, Option.isSome_some]

/-- Phase 2 that passes on every device commits the batch. -/
theorem phase2_passes (second : b.phase2 = true) :
    phase2 h [] =
      b.recs.foldl recDone (bump
        { (activeDevs h).foldl (fun h d => devPuts h d b.part ((batchUnits b.recs).drop b.recs.length)) h with
          kep := { h.kep with batch := none } } pKEP Fld.KEP.BATCH_CNT) := by
  have fold := foldl_passOn (fun rs => (batchUnits b.recs).drop rs.length) (activeDevs h) h b
  unfold passOn at fold
  simp only [fresh, List.append_nil] at fold
  obtain ⟨k, puts⟩ := foldl_devPuts_keep (activeDevs h) h b.part ((batchUnits b.recs).drop b.recs.length)
  rw [puts] at fold ⊢
  have all : (activeDevs h).all (fun d => (activeDevs h).reverse.contains d) = true := by simp
  have same : activeDevs { h with keep := k } = activeDevs h := rfl
  simp only [phase2, runs, second, fresh, List.contains_nil, Bool.not_true, Bool.not_false, List.filter_true,
    Bool.false_eq_true, if_false, fold, same, all, if_true, Option.isSome_some, Bool.and_self]

end

/-- A read-back that fails before the third try is tried again, and counted (R428). -/
theorem programFail_retries {b : KBatch} {d : Nat} (units : Nat) (tries : b.tries.getD d 0 < 2) :
    ∃ l, programFail h b d units =
      (bump (putLog h d b.part l) pKEP Fld.KEP.PROG_RETRY_CNT,
        { b with tries := b.tries.set d (b.tries.getD d 0 + 1) }) := ⟨_, if_pos tries⟩

/-- A block counter that counts leaves the other fields of the blocks. -/
theorem fld_bump_ne {f g : FieldDef} {pg : Nat} (block : 0x100 ≤ g.off) (off : g.off < 4096) (lo : g.lo < 32)
    (other : fieldKey pg g ≠ fieldKey pg f) : fld (bump h pg f) pg g = fld h pg g := by
  have counted : fld (countBy h pg f 1) pg g = fld h pg g := fld_setFld_ne h _ other
  unfold bump bumpBy
  cases blkEvent f with
  | none => exact counted
  | some ev => exact (fld_perfEvent_block block off lo _ pg pg ev 1).trans counted

/-- A program retry that is counted leaves which devices take batches. -/
theorem activeDevs_bump_retry (h : Hub) : activeDevs (bump h pKEP Fld.KEP.PROG_RETRY_CNT) = activeDevs h := by
  have states : ∀ d ∈ [0, 1], devState (bump h pKEP Fld.KEP.PROG_RETRY_CNT) d = devState h d :=
    List.forall_mem_cons.mpr ⟨fld_bump_ne (by decide) (by decide) (by decide) (by decide),
      List.forall_mem_singleton.mpr (fld_bump_ne (by decide) (by decide) (by decide) (by decide))⟩
  exact List.filter_congr fun d listed => by rw [states d listed]

/-- Phase 1 that fails on the one device that takes batches is tried again. -/
theorem phase1_retries {b : KBatch} {d : Nat} (runs : h.kep.batch = some b) (first : b.phase2 = false)
    (fresh : b.passed = []) (only : activeDevs h = [d]) (tries : b.tries.getD d 0 < 2) :
    phase1 h [d] = keepBatch (programFail h b d (batchSize b)).1 (programFail h b d (batchSize b)).2 := by
  obtain ⟨l, fails⟩ := programFail_retries (h := h) (batchSize b) tries
  have same : activeDevs (bump (putLog h d b.part l) pKEP Fld.KEP.PROG_RETRY_CNT) = [d] :=
    (activeDevs_bump_retry _).trans only
  simp [phase1, runs, first, fresh, only, fails, same]

end

/-! ### Sectors (R424, R433) -/

section
variable {h : Hub} {d part : Nat} {x : KSec} {t : List KSec} (due : eraseDue h d part = true)
  (oldest : (devLog h.keep d part).full = x :: t)
include due oldest

/-- A sector that is erased, is not to be retired and is not worn out is erased ahead of the write position. -/
theorem sectorErased_kept (sound : x.retire = false) (unworn : x.erases + 1 < 100000) :
    sectorErased h d part { ok := true, header := true } =
      wearCheck (putLog (bump h pKEP Fld.KEP.ERASE_CNT) d part
        { devLog h.keep d part with
          full := t
          ahead := (devLog h.keep d part).ahead ++
            [{ x with erases := x.erases + 1, used := 1, units := [], retire := false,
                      seq := topSecSeq (devLog h.keep d part) + 1 }] }) := by
  have lasts : ¬100000 ≤ x.erases + 1 := Nat.not_le.mpr unworn
  simp [sectorErased, due, oldest, sound, lasts, erased, oldErases]

/-- A sector whose erase fails is replaced by the spare that retires it. -/
theorem sectorErased_retired {y : KSec} {g : Hub} {header : Bool}
    (spare : retire (bump h pKEP Fld.KEP.ERASE_CNT) d part x = (g, some y)) :
    sectorErased h d part { ok := false, header := header } =
      wearCheck (putLog g d part
        { devLog h.keep d part with
          full := t
          ahead := (devLog h.keep d part).ahead ++ [{ y with seq := topSecSeq (devLog h.keep d part) + 1 }] }) := by
  simp [sectorErased, due, oldest, spare]

end

/-! ### Probes and the daily read (R431, R432) -/

section
variable {h : Hub} {d : Nat}

/-- A probe that a FAILED device passes. -/
theorem probeEnd_passed (failed : devState h d = 2) : probeEnd h d true = probePassed h d := if_pos (by simp [failed])

/-- A probe that a device does not pass. -/
theorem probeEnd_not_passed : probeEnd h d false = h := if_neg (by simp)

/-- A record that one of two HEALTHY devices reads invalid is owed to it by the other. -/
theorem badRecord_mirrored {e part seq : Nat} {r : KRec} (pair : healthyDevs h = [0, 1])
    (other : (d, e) = (0, 1) ∨ (d, e) = (1, 0)) (held : (devRecs h.keep d part).any (fun x => x.seq == seq) = true)
    (copy : (devRecs h.keep e part).find? (fun x => x.seq == seq) = some r) :
    badRecord h part seq [d] =
      { putLog h d part (spoil (devLog h.keep d part) seq) with
        kep := { h.kep with fixes := h.kep.fixes ++ [(d, part, r)] } } := by
  have mirrored : (devRecs h.keep e part).any (fun x => x.seq == seq) = true :=
    List.any_eq_true.mpr ⟨r, List.mem_of_find?_eq_some copy, by simpa using List.find?_some copy⟩
  simp only [Prod.mk.injEq] at other
  obtain ⟨rfl, rfl⟩ | ⟨rfl, rfl⟩ := other <;>
    simp [-List.any_eq_true, badRecord, pair, held, mirrored, copy, putLog]

/-- A record that the only HEALTHY device reads invalid is lost. -/
theorem badRecord_lost {part seq : Nat} (only : healthyDevs h = [d])
    (held : (devRecs h.keep d part).any (fun x => x.seq == seq) = true) :
    badRecord h part seq [d] =
      setIstat (errlog (bump (putLog h d part (spoil (devLog h.keep d part) seq)) pKEP Fld.KEP.READ_ERR_CNT) pKEP 2
        (recAddr (devLog h.keep d part) seq) part) pKEP 4 := by
  simp [-List.any_eq_true, badRecord, only, held]

/-- The daily read of one invalid record. -/
theorem dailyRead_single (h : Hub) (d part seq : Nat) : dailyRead h [(d, part, seq)] = badRecord h part seq [d] := by
  simp [dailyRead, List.eraseDups_cons]

end

/-- Settles O32, clause by clause: a phase, an erase, a probe and a bad record by their own rules, every other command by the
branch of its meaning that the clause's conditions select. Under HUB_RESET_N the erase stands for the external programmer (log
entry 80). -/
theorem keepStoreCommandsComplete : Obligations.KeepStoreCommandsComplete := by
  unfold Obligations.KeepStoreCommandsComplete
  refine ⟨?batchStart, ?phase1, ?phase1Fails, ?committed, ?erased, ?eraseFails, ?programmed, ?probe, ?kepProbe, ?rebuildStep,
    ?rebuildEnds, ?mirrored, ?lost, ?rdSeq, ?fetch, ?fetched⟩
  case batchStart =>
    intro s part bs idle healthy started rom next room
    have may : ¬(s.hub.kep.batch.isSome || (healthyDevs s.hub).isEmpty || s.hub.boot.point = .none ||
        s.hub.boot.point = .rom) = true := by
      simp [idle, healthy, started, rom]
    refine leadsHub_of rfl ((if_neg may).trans ?_)
    simp only [next, room, Bool.not_true, Bool.and_false, Bool.false_eq_true, if_false, if_true]
  case phase1 => exact fun s b runs first fresh => leadsHub_of rfl (phase1_passes runs fresh first)
  case phase1Fails =>
    exact fun s b d runs first fresh only tries => leadsHub_of rfl (phase1_retries runs first fresh only tries)
  case committed => exact fun s b runs second fresh => leadsTulle_of rfl (phase2_passes runs fresh second)
  case erased =>
    intro s d part x t released due oldest sound unworn
    exact leadsHub_of rfl ((byProgrammer_released released).trans (sectorErased_kept due oldest sound unworn))
  case eraseFails =>
    intro s d part x y t h header released due oldest spare
    exact leadsHub_of rfl ((byProgrammer_released released).trans (sectorErased_retired due oldest spare))
  case programmed => exact fun s d part header held => leadsHub_of rfl (byProgrammer_held held)
  case probe => exact fun s d failed => leadsHub_of rfl (probeEnd_passed failed)
  case kepProbe =>
    intro s o d k failed
    refine leadsHub_of rfl ((guarded_served k).trans ?_)
    fin_cases d
    · exact probeEnd_not_passed.trans (probeEnd_passed failed)
    · exact (congrArg (fun h => probeEnd h 1 true) probeEnd_not_passed).trans (probeEnd_passed failed)
  case rebuildStep =>
    intro s d rebuilding healthy more
    exact leadsHub_of rfl (by simp [rebuildCopy, rebuilding, healthy, more])
  case rebuildEnds =>
    intro s d rebuilding healthy last
    exact leadsHub_of rfl (by simp [rebuildCopy, rebuilding, healthy, last])
  case mirrored =>
    intro s d part seq r pair held copy
    have other : (d.val, 1 - d.val) = (0, 1) ∨ (d.val, 1 - d.val) = (1, 0) := by fin_cases d <;> simp
    exact leadsHub_of rfl ((dailyRead_single _ _ _ _).trans (badRecord_mirrored pair other held copy))
  case lost =>
    intro s d part seq only held
    exact leadsHub_of rfl ((dailyRead_single _ _ _ _).trans (badRecord_lost only held))
  case rdSeq => exact fun s o v k => leadsHub_of rfl (guarded_served k)
  case fetch =>
    intro s o k idle
    exact leadsHub_of rfl ((guardedK_served k).trans (by simp [fetchStart, idle, logKinds_nil]))
  case fetched =>
    intro s busy
    exact leadsHub_of rfl (if_neg (by simp [busy]))

end Sys2Proof.Machine
end

section
/-! PROOFS. The statement on modes, power domains and the phases of SEAL. -/

namespace Sys2Proof.Machine

section
variable {h : Hub}

/-! ### Mode requests (R447, R450) -/

/-- SERVE is requested in DRAIN, with no handoff under way. -/
theorem reqServe_drain (stays : h.mode.toMaintain = false) (mode : h.mode.mode = .drain) (noHandoff : h.tulle.handA = none) :
    reqServe h = raise (setMode (reqOutcome h 1) .serve) 75 := by
  simp [reqServe, stays, mode, noHandoff]

/-- In DRAIN the request waits for a handoff that is under way. -/
theorem reqServe_handoff {a : HandA} (stays : h.mode.toMaintain = false) (mode : h.mode.mode = .drain)
    (handoff : h.tulle.handA = some a) :
    reqServe h = reqOutcome (modMode h (fun m => { m with toServe := true })) 3 := by
  simp [reqServe, stays, mode, handoff]

/-- SERVE is requested in MAINTAIN, with what SERVE needs. -/
theorem reqServe_maintain (stays : h.mode.toMaintain = false) (mode : h.mode.mode = .maintain) (ready : serveReady h = true) :
    reqServe h = raise (setMode (reqOutcome h 1) .serve) 75 := by
  simp [reqServe, stays, mode, ready]

/-- DRAIN is requested in SERVE, outside BRACE. -/
theorem reqDrain_serve (mode : h.mode.mode = .serve) (calm : h.mode.brace = false) (stays : h.mode.toMaintain = false) :
    reqDrain h =
      if localCount (setMode (reqOutcome h 1) .drain) = 0 then setIstat (setMode (reqOutcome h 1) .drain) pMOD 4
      else setMode (reqOutcome h 1) .drain := if_pos (by simp [mode, calm, stays])

/-- MAINTAIN is requested in SERVE or DRAIN, with no granule homed here. -/
theorem reqMaintain_open (mode : h.mode.mode = .serve ∨ h.mode.mode = .drain) (noneHere : localCount h = 0)
    (stays : h.mode.toMaintain = false) :
    reqMaintain h =
      maintainProgress (reqOutcome (modMode h (fun m => { m with toMaintain := true, toServe := false })) 3) :=
  if_pos (by simp [mode, noneHere, stays])

/-! ### Power domains (R459) -/

/-- A request for a domain that is ON, or of a domain that may leave it, logs nothing. -/
theorem domReq_logs_nothing {d req : Nat} (may : req = 0 ∨ domPinned h d = false) : (domReq h d req).2 = [] := by
  have taken : ¬(req != 0 && domPinned h d) = true := by rcases may with may | may <;> simp [may]
  unfold domReq
  rw [if_neg taken]
  simp only [apply_ite Prod.snd, ite_self]

end

/-- A served mode request leads to its effect. -/
theorem leadsTulle_modeReq {c : Instr} {s : State} {o : Origin} {code : Nat} {f : Hub → Hub} {h : Hub}
    (e : exec c s = .next (s.onTulle fun h => modeReq h o code f))
    (k : served s.hub o pMOD 0x104 (code + 8 * fld s.hub pMOD Fld.MOD.CTL_SERVE_OK)) (a : f s.hub = h) : leadsTulle c s h :=
  leadsTulle_of e ((guarded_served k).trans a)

/-- A served write of a domain's REQ that logs nothing leads to its effect (R459). -/
theorem leadsTulleStops_domReq {c : Instr} {s : State} {o : Origin} {d req : Nat}
    (e : exec c s = .next (s.onTulle (withStops fun h => domWrite h o d req)))
    (k : served s.hub o pPWR (0x140 + 4 * d) req) (may : req = 0 ∨ domPinned s.hub d = false) :
    leadsTulleStops c s (domReq s.hub d req).1 :=
  leadsTulleStops_of e ((guardedK_served k).trans (by rw [domReq_logs_nothing may, logKinds_nil]))

/-- Settles O33, clause by clause: a request that is served by its own rule, every other command by the branch of its meaning
that the clause's conditions select. -/
theorem modeCommandsComplete : Obligations.ModeCommandsComplete := by
  unfold Obligations.ModeCommandsComplete
  refine ⟨?serveFromDrain, ?serveAfterHandoff, ?serveFromMaintain, ?drain, ?maintain, ?serveOk, ?enterServe, ?enterMaintain,
    ?domOn, ?domDrained, ?domOff, ?drained, ?off, ?powerUp, ?phaseEnd, ?phaseDeadline⟩
  case serveFromDrain =>
    exact fun s o k stays mode noHandoff => leadsTulle_modeReq rfl k (reqServe_drain stays mode noHandoff)
  case serveAfterHandoff =>
    exact fun s o a k stays mode handoff => leadsTulle_modeReq rfl k (reqServe_handoff stays mode handoff)
  case serveFromMaintain =>
    exact fun s o k stays mode ready => leadsTulle_modeReq rfl k (reqServe_maintain stays mode ready)
  case drain => exact fun s o k mode calm stays => leadsTulle_modeReq rfl k (reqDrain_serve mode calm stays)
  case maintain =>
    exact fun s o k mode noneHere stays => leadsTulle_modeReq rfl k (reqMaintain_open mode noneHere stays)
  case serveOk => exact fun s o v k e => leadsTulle_of rfl (plainWrite_served k e)
  case enterServe =>
    intro s runs mode ready
    exact leadsTulle_of rfl (if_pos (by simp [runs, mode, ready]))
  case enterMaintain =>
    intro s enters noLine noOp
    exact leadsTulle_of rfl (if_pos (by simp only [enters, noLine, noOp, Bool.and_self, decide_true]))
  case domOn => exact fun s o d k => leadsTulleStops_domReq rfl k (.inl rfl)
  case domDrained | domOff => exact fun s o d k may => leadsTulleStops_domReq rfl k (.inr may)
  case drained =>
    intro s d draining empty
    exact leadsTulleStops_of rfl (if_pos (by simp [draining, empty]))
  case off | powerUp =>
    intro s d state request
    exact leadsTulle_of rfl (if_pos (by simp [state, request]))
  case phaseEnd =>
    intro s runs done
    exact leadsTulle_of rfl (by simp [runs, done])
  case phaseDeadline =>
    intro s runs late
    exact leadsTulle_of rfl (by simp [runs, late])

end Sys2Proof.Machine
end
